-- ==== Sys2Proof/Word.lean ====
section
/-! DEFINITION. The plain word types of the JX7400 model and the sparse table type in which State holds every indexed
store (tables, register words, memory bytes). -/

namespace Sys2Proof

/-- One byte of pool memory or of a packet. -/
abbrev Byte := BitVec 8
/-- A 32-bit register word (R12). -/
abbrev Word32 := BitVec 32
/-- A 64-bit word: the unit of the word code (R235). -/
abbrev Word64 := BitVec 64
/-- A line: 64 aligned bytes of pool memory (R23), byte 0 in the lowest bits (R10). -/
abbrev Line := BitVec 512
/-- A node ID on the fabric (R23). -/
abbrev NodeId := BitVec 16
/-- A partition ID (R59). -/
abbrev PartId := BitVec 12
/-- An index of the extent table (R51). -/
abbrev ExtIdx := BitVec 15
/-- A queue number (R272). -/
abbrev QueueId := BitVec 16
/-- A pool offset (R43). -/
abbrev Offset := BitVec 48
/-- A line number: pool offset bits [47:6] (R126). -/
abbrev LineNo := BitVec 42
/-- A transaction tag (R121). -/
abbrev Tag := BitVec 16
/-- A fabric port, 0 to 23 (R26). -/
abbrev PortNo := Fin 24
/-- A DDR channel, 0 to 23 (R26). -/
abbrev ChanNo := Fin 24
/-- A root port and its drive, 0 to 15 (R26). -/
abbrev DriveNo := Fin 16
/-- A cluster of 16 physical cores (R26). -/
abbrev ClusterNo := Fin 36
/-- A power domain number (R597). -/
abbrev DomainNo := Fin 77
/-- A message-interrupt vector (R551). -/
abbrev VecNo := BitVec 11
/-- A SHA-512 digest (R485). -/
abbrev Digest := BitVec 512

/-- One compute die (R25). -/
inductive Half where
  | west
  | east
deriving DecidableEq, Repr

/-- Sparse storage: pairs of a key and a value, keys strictly rising, no value equal to the store's default.
Equal stores are then equal lists. -/
abbrev Tbl (α : Type) := List (Nat × α)

end Sys2Proof
end

