-- ==== Sys2Proof/Syntax.lean ====
section
/-! DEFINITION. The commands of the JX7400 and their operands: one constructor of Instr for each row of the table of
operations and events. A row that stands for something the device does by itself (a deadline that passes, a pass that
ends) carries the name of the object it concerns. -/

namespace Sys2Proof

/-- The strap levels sampled at a rising edge of PERST_N (R691). -/
structure Straps where
  eastPrimary : Bool
  sbAddr      : BitVec 2
deriving DecidableEq, Repr

/-- The party that makes a register access (R658, R667, R670). -/
inductive Path where
  | companion
  | sideband
  | firmware
deriving DecidableEq, Repr

/-- Where a packet enters or leaves the node: a fabric port or the companion link (R3). -/
inductive Via where
  | port (p : PortNo)
  | companion
deriving DecidableEq, Repr

/-- The status codes of R20. -/
inductive Status where
  | ok | nackRetry | tierFill | revoked | poisoned | noAccess | stateConflict | malformed | timeout | fenced
  | policed | staleVersion | unreached | translationFault | uncorrectable | quota | cancelled | keyError
deriving DecidableEq, Repr

/-- The code of a status (R20). -/
def Status.code : Status → BitVec 8
  | .ok => 0x00 | .nackRetry => 0x01 | .tierFill => 0x02 | .revoked => 0x03 | .poisoned => 0x04 | .noAccess => 0x05
  | .stateConflict => 0x06 | .malformed => 0x07 | .timeout => 0x08 | .fenced => 0x09 | .policed => 0x0A
  | .staleVersion => 0x0B | .unreached => 0x0C | .translationFault => 0x0D | .uncorrectable => 0x0E | .quota => 0x0F
  | .cancelled => 0x10 | .keyError => 0x11

/-- The status that a received code stands for; a reserved code is treated as MALFORMED (R22). -/
def Status.ofCode (c : BitVec 8) : Status :=
  match c.toNat with
  | 0 => .ok | 1 => .nackRetry | 2 => .tierFill | 3 => .revoked | 4 => .poisoned | 5 => .noAccess | 6 => .stateConflict
  | 7 => .malformed | 8 => .timeout | 9 => .fenced | 10 => .policed | 11 => .staleVersion | 12 => .unreached
  | 13 => .translationFault | 14 => .uncorrectable | 15 => .quota | 16 => .cancelled | 17 => .keyError
  | _ => .malformed

/-- The header of a request as the home sees it (R121, R441, R443): where it came in, the source node, TAG, RETRY, RISS,
the source partition when PV is 1, the fabric-key entry it was decrypted under, and the pool offset. -/
structure ReqHdr where
  via    : Via
  src    : NodeId
  tag    : Tag
  retry  : BitVec 4
  riss   : Bool
  pv     : Bool
  spart  : PartId
  fkey   : Option (BitVec 13)
  offset : Offset
deriving DecidableEq, Repr

/-- A fabric packet (R441): the header fields and the payload bytes. -/
structure Packet where
  dst     : NodeId
  src     : NodeId
  opc     : BitVec 8
  pv      : Bool
  poison  : Bool
  enc     : Bool
  arg     : BitVec 5
  tag     : Tag
  word    : Word64
  payload : List Byte
deriving DecidableEq, Repr

/-- A link frame as the receiver takes it (R400, R401): the header fields, the payload bytes, whether its CRC failed (R402), whether it overlaps an
uncorrectable codeword, and the FEC symbols that its codewords corrected. -/
structure LinkFrame where
  seq       : BitVec 16
  vc        : BitVec 3
  kind      : BitVec 2
  sop       : Bool
  eop       : Bool
  av        : Bool
  len       : BitVec 8
  ack       : BitVec 16
  cretVc    : BitVec 3
  cretValid : Bool
  cret      : BitVec 12
  payload   : List Byte
  crcBad    : Bool
  fecBad    : Bool
  corrected : Nat := 0
deriving DecidableEq, Repr

/-- A batten circuit frame (R447). -/
structure CktFrame where
  label   : BitVec 10
  poison  : Bool
  enc     : Bool
  ftag    : BitVec 10
  line    : LineNo
  payload : List Byte
deriving DecidableEq, Repr

/-- A sync message of the global count (R374). -/
structure SyncMsg where
  type   : BitVec 8
  hops   : BitVec 8
  flags  : BitVec 8
  seq    : BitVec 16
  master : NodeId
  tx     : Word64
  rxPrev : Word64
  rxSeq  : BitVec 16
deriving DecidableEq, Repr

/-- An answer to a device-issued transaction (R454). -/
inductive DevAnswer where
  /-- ACK or NACK from the home: status, data, the FWD bit, the RETRY answered, the hint in units of 100 ns. -/
  | home (status : BitVec 8) (data : List Byte) (fwd : Bool) (retry : BitVec 4) (hint : BitVec 16)
  /-- Data forwarded by an owner, with the RETRY it serves. -/
  | forwarded (data : List Byte) (retry : BitVec 4)
  /-- A POLICED notice with its hint. -/
  | policed (hint : BitVec 16)
deriving DecidableEq, Repr

/-- The engine that makes an access (R86, R104): a core, the bulk mover of a cluster (R288), or the front end for a queue. -/
inductive Engine where
  | core (physical : Fin 576) (op : Nat)
  | mover (cluster : Fin 36) (op : Nat)
  | frontEnd (queue : QueueId)
deriving DecidableEq, Repr

/-- What an engine access does (R118). -/
inductive EngKind where
  | read
  | write (data : Line) (poison : Bool)
  | merge (data : Line) (mask : Word64)
  | update (aop : BitVec 4) (wide : Bool) (operand : List Byte)
deriving DecidableEq, Repr

/-- One granule that drive reads return (R170, R171, R175, R186, R195): the 4,096 data bytes and the first 32 metadata bytes as stored on each of the
stripe's 16 drives, by drive; none where no read was made or the read failed. -/
structure Granule where
  members : List (Option (List Byte))
deriving DecidableEq, Repr

/-- Whom a DRAM read serves (R250). -/
inductive Reader where
  | host (node : NodeId) (tag : Tag)
  | merge (node : NodeId) (tag : Tag)
  | operation (op : Nat)
  | tag
  | map
  | none
  | correction
deriving DecidableEq, Repr

/-- The bits of a 72-bit word that an error has flipped (R235): data and check bits. -/
structure WordFlip where
  data  : Word64
  check : Byte
deriving DecidableEq, Repr

/-- Where data is read that the word code protects (R235, R237): a DRAM line by channel and address; the words of a pool line as read data on the
mesh or bridge; those of write data arriving at the home; a word of a core's SRAM or accumulators; an entry of a core's micro-TLB; the entry in a way
of a set of a half's shared translation cache; the set that a place of a half's tag cache holds; and the directory entry of a line in a way, with the
two copies of its word 0 and its word 1. -/
inductive ReadSite where
  | dram (ch : ChanNo) (addr : Nat) (flips : BitVec 640) (reader : Reader)
  | readData (line : LineNo) (flips : List WordFlip)
  | writeData (line : LineNo) (flips : List WordFlip)
  | core (core : Fin 576) (word : Nat) (flip : WordFlip)
  | micro (core : Fin 576) (place : Fin 64) (flip : WordFlip)
  | shared (half : Half) (set : BitVec 10) (way : Fin 16) (flip : WordFlip)
  | tags (half : Half) (place : Fin 8192) (flip : WordFlip)
  | dir (line : LineNo) (way : Fin 16) (first second sharers : WordFlip)
deriving DecidableEq, Repr

/-- The two forms of a doorbell write (R543): a DOORBELL packet of one doorbell, or a WRITE_PARTIAL of a line. -/
inductive DoorbellForm where
  | packet (payload : List Byte)
  | writePartial (data : Line) (mask : Word64)
deriving DecidableEq, Repr

/-- The value type of a MAP micro-operation (R328). -/
inductive MicroType where
  | f32
  | i32
deriving DecidableEq, Repr

/-- The value type of MIN, MAX and CMP (R328). -/
inductive OrdType where
  | f32
  | i32
  | u32
deriving DecidableEq, Repr

/-- How CVT rounds to INT32 (R328). -/
inductive CvtRound where
  | nearest
  | zero
  | floor
deriving DecidableEq, Repr

/-- The condition of CMP (R328). -/
inductive MicroCond where
  | eq | ne | lt | le | gt | ge
deriving DecidableEq, Repr

/-- The conversions of CVT (R328). -/
inductive CvtMode where
  | f32ToI32 (r : CvtRound)
  | i32ToF32
  | toBf16
  | toFp16
deriving DecidableEq, Repr

/-- A fault that the array self-test or service finds in a device array (R254, R576). -/
structure ArrayFault where
  half       : Half
  array      : Nat
  subarray   : Nat
  set        : Nat
  way        : Nat
  repairable : Bool
deriving DecidableEq, Repr

/-- A core that failed the self-test (R577, R578): the failed part is logic, SRAM, accumulators or slot state. -/
structure CoreFailure where
  core : Fin 576
  part : Fin 4
deriving DecidableEq, Repr

/-- What a DIMM declares in its SPD and its mode registers (R200, R219, R223): whether it is a registered, data-buffered DDR5 MRDIMM and has ECC; its
data rate in MT/s; its subchannels with their data and check bits; the width, density in Gb, banks, bank groups and page bytes of its devices; its
ranks; whether it has both kinds of refresh with its rate in mode register 4; whether its register clock driver checks command-address parity;
whether it has an SPD hub with a thermal sensor; whether it requires refresh management, with the initial and the maximum threshold; its longest alert
latency and its read latency in DDR clocks; and its serial number. -/
structure Dimm where
  mrdimm    : Bool
  ecc       : Bool
  rate      : Nat
  subs      : Nat
  dataBits  : Nat
  checkBits : Nat
  width     : Nat
  density   : Nat
  banks     : Nat
  groups    : Nat
  page      : Nat
  ranks     : Nat
  refresh   : Bool
  caParity  : Bool
  hub       : Bool
  rfm       : Bool
  rfmInit   : Nat
  rfmMax    : Nat
  alertLat  : BitVec 8
  readLat   : BitVec 8
  serial    : BitVec 32
deriving DecidableEq, Repr

/-- What a channel's training finds (R200, R203, R227): how many DIMMs the channel has and what the DIMM declares, whether stored results passed the
margin test, whether the channel trained, and the results. -/
structure TrainResult where
  ch        : ChanNo
  dimms     : Nat
  dimm      : Dimm
  margin    : Bool
  passed    : Bool
  results   : List Byte
deriving DecidableEq, Repr

/-- What mode register 4 of a rank reports (R212, R214): the normal rate, the doubled rate, or a temperature above the rated range. -/
inductive Mr4 where
  | normal | doubled | above
deriving DecidableEq, Repr

/-- A ridge status message (R533): the sender's role (0 ACTIVE, 1 STANDBY, 2 RESYNC, 3 OFFLINE), its own latch as commanded, both latches as
it senses them, and its last input number; and the latches as the receiving half senses them when it takes the message. -/
structure RidgeMsg where
  role      : BitVec 2
  latch     : Bool
  west      : Bool
  east      : Bool
  input     : Nat
  ownWest   : Bool
  ownEast   : Bool
deriving DecidableEq, Repr

/-- The channel of an SPDM session (R492, R493). -/
inductive SpdmVia where
  | sideband
  | companion
  | fabric (part : PartId)
deriving DecidableEq, Repr

/-- A drive as its bring-up finds it (R189 to R191): whether a single endpoint answers; its class code; the LBA format of its namespace: data bytes,
metadata bytes, and whether they lie in a separate buffer; whether it takes 4 KiB memory pages; its I/O queue pairs and their entries; its LBAs and
serial number; and the link's width and rate. -/
structure DriveInfo where
  port      : DriveNo
  present   : Bool
  classCode : BitVec 24
  lbaBytes  : Nat
  metaBytes : Nat
  separate  : Bool
  page4k    : Bool
  pairs     : Nat
  entries   : Nat
  lbas      : Word64
  serial    : List Byte
  width     : BitVec 3
  rate      : BitVec 3
deriving DecidableEq, Repr

/-- A flit of the companion link as received (R633, R634): sequence number, whether its check failed, an acknowledgement, and the packet of the COH
channel that it completes, with its virtual channel. -/
structure Flit where
  seq  : BitVec 16
  bad  : Bool
  ack  : BitVec 16
  coh  : Option (BitVec 3 × Packet)
deriving DecidableEq, Repr

/-- A firmware-image fragment message (R588, R589). -/
structure Fragment where
  root    : NodeId
  tag     : Tag
  index   : BitVec 16
  count   : BitVec 16
  srcAddr : Word64
  crc     : BitVec 32
  actCount : Word64
  data    : List Byte
deriving DecidableEq, Repr

/-- The commands of the block: one constructor for each row of the table of operations and events. -/
inductive Instr where
  /-- PERST_N_ASSERT (R565). PERST_N held low for 1 µs or more is a cold reset; the halves stay unpowered and the Dawn
  sequence waits at its first step. -/
  | perstNAssert
  /-- PERST_N_RELEASE (R565). PERST_N rises; the straps are sampled, and the Dawn sequence may start once both
  supplies are good and the reference is stable. -/
  | perstNRelease (straps : Straps)
  /-- AUX_RAIL_GOOD (R687). VAUX has stayed above 3.0 V for 1 ms; the always-on islands start and the side-band port
  works. -/
  | auxRailGood (straps : Straps) (crystal : Bool)
  /-- AUX_RAIL_LOSS (R687). VAUX below 2.9 V for 10 µs is a cold reset and removes power from both halves. -/
  | auxRailLoss
  /-- MAIN_INPUT_GOOD (R564). The 40 V input has stayed within range for 10 ms; it counts as good, and PWR_FAULT_N is
  released. -/
  | mainInputGood
  /-- MAIN_INPUT_LOSS (R687). VIN leaves its range for 1 ms or more, or falls below 30 V; this is a cold reset, the
  halves lose power and PWR_FAULT_N asserts. -/
  | mainInputLoss
  /-- CONVERTER_FAULT (R650). An on-module converter faults and PWR_FAULT_N is asserted. -/
  | converterFault
  /-- REFERENCE_STABLE (R688). After 1 ms of reference edges within ±1,000 ppm, the reference counts as stable, and
  the global counter and the Dawn sequence may start. -/
  | referenceStable
  /-- DEVICE_RESET_COMMAND (R674). A write of the key to GLB.RESET is accepted and schedules a warm reset; any other
  value sets ILLEGAL_WRITE. -/
  | deviceResetCommand (path : Path) (value : Word32)
  /-- WARM_RESET (R566). A warm reset clears all but the kept state of R569 and starts a warm Dawn sequence with the
  halves powered. -/
  | warmReset
  /-- ACTIVATION_COUNT_REACHED (R590). The global count reaches ACT_COUNT while STORE is PENDING, and the node
  performs a warm reset to activate the image. -/
  | activationCountReached
  /-- DAWN_SEQUENCE_START (R570). With supplies good, the reference stable and PERST_N high, the Dawn sequencer starts
  at step ROM. -/
  | dawnSequenceStart
  /-- ROM_STEP (R485). The security engine digests the boot ROM, reads the fuses, derives the identity key and checks
  the certificate chain. -/
  | romStep (romDigest chainDigest : Digest)
  /-- IMAGE_VERIFY (R572). VERIFY reads the image region and applies R489; on failure the device enters Dawn hold. -/
  | imageVerify
  /-- POWER_STEP (R573). The halves are powered and each complex reloads and rechecks the control firmware against its
  measurement. -/
  | powerStep (westDigest eastDigest : Digest)
  /-- ARRAYS_STEP (R576). The device switches in fused spares, self-tests the arrays and repairs faults, with optical
  tuning alongside. -/
  | arraysStep (faults : List ArrayFault)
  /-- SELFTEST_WAVE (R577). A 30 ms wave ends after testing four clusters, and the next wave or the DDR step starts. -/
  | selftestWave (failed : List CoreFailure)
  /-- DDR_TRAINING (R227). Every channel completes full or fast training, with a fallback to full training on a margin
  failure. -/
  | ddrTraining (results : List TrainResult)
  /-- FILL_STEP (R582). FILL completes the mandatory fill of SRAM, arrays and DRAM, or enters STOPPED when a channel
  failed R203. -/
  | fillStep
  /-- REPAIR_ROUND_END (R583). A repair round ends 100 µs after its request; digest mismatches fail the round, and a
  third failure fences the core. -/
  | repairRoundEnd (failed : List Nat)
  /-- HANDOVER (R584). The device builds the core map, releases the cores, lets the complexes claim the ridge line,
  asserts READY and enters SERVICE. -/
  | handover
  /-- HANDOVER_TIMEOUT (R584). No complex has claimed within 1 s; STEP becomes STOPPED and a FIRMWARE_EVENT is logged.
  -/
  | handoverTimeout
  /-- THERMAL_TRIP (R625). A die sensor reaches 115 °C or an engine sensor 95 °C; THERMTRIP_N asserts and both halves
  lose power. -/
  | thermalTrip (sensor : Fin 44) (reading : Int)
  /-- TEMPERATURE_SAMPLE (R622). The 44 sensors are read every 1 ms and corrected by their offsets. -/
  | temperatureSample (raw : List Int)
  /-- POWER_SAMPLE (R614). Every 1 ms the device measures input power and computes the estimate, and checks them for
  disagreement. -/
  | powerSample (meas est : BitVec 16)
  /-- DECISION_POINT (R612). Every 250 ms the device sets the cap and thermal levels and chooses the slowest permitted
  performance level. -/
  | decisionPoint (estimates : List Nat)
  /-- PACE_NOTICE_RECEIVE (R620). A received pace notice is recorded in PWR.PACE_RX and PACE_RX is set. -/
  | paceNoticeReceive (node : NodeId) (level : BitVec 3) (count : Word64)
  /-- PWR_NOP (R630). The PWR NOP command does nothing. -/
  | pwrNop
  /-- VOTE (R630). The COMP vote on a domain is cast or withdrawn, starting a return or a Midnight entry. -/
  | vote
  /-- PART_POLICY (R630). The KEEP policy of a partition is set. -/
  | partPolicy (part : PartId)
  /-- THERM_POINT (R627). Sensor offsets are computed against an external reference when the readings are stable and
  close. -/
  | thermPoint
  /-- THERM_SAVE (R627). The accepted offsets are written to the thermal section of the calibration store. -/
  | thermSave
  /-- PSENSE_POINT (R626). A power-sense calibration point is armed with an external reading and a start count. -/
  | psensePoint
  /-- PSENSE_POINT_DONE (R626). The 4 s average of raw sense from the start count ends and the point completes. -/
  | psensePointDone (rawMilliwatt : Nat)
  /-- PSENSE_SAVE (R626). The gain of two points is checked and, if consistent, saved to the power-sense section,
  clearing NOCAL. -/
  | psenseSave
  /-- DUSK_ENTRY (R602). An enabled cluster idle for IDLE starts its entry into Dusk mode. -/
  | duskEntry (cluster : ClusterNo)
  /-- MIDNIGHT_ENTRY (R601). The last vote on a domain is withdrawn and the domain starts its entry into Midnight. -/
  | midnightEntry (domain : DomainNo)
  /-- ENTRY_STEP_DONE (R605). A step of a Dusk or Midnight entry ends, and the next step starts or the entry is undone
  at an abort point. -/
  | entryStepDone (domain : DomainNo)
  /-- DUSK_SAMPLER_WAKE (R603). The Dusk sampler wakes every PERIOD and checks the wake conditions. -/
  | duskSamplerWake (cluster : ClusterNo)
  /-- CLUSTER_RESUME (R604). A cluster resumes work 12 µs after the sample that found a wake condition. -/
  | clusterResume (cluster : ClusterNo)
  /-- DOMAIN_RETURN (R609). A returning domain starts in the return order with its spacing, rail and isolation
  release. -/
  | domainReturn (domain : DomainNo)
  /-- DOMAIN_USABLE (R609). A returned domain becomes usable: a cluster after refill and firmware load, a port after
  training. -/
  | domainUsable (domain : DomainNo)
  /-- PLANNED_SHUTDOWN (R434). An optical port stops new DATA frames because its last vote was withdrawn or EN was
  written 0. -/
  | plannedShutdown (port : PortNo)
  /-- SHUTDOWN_DRAIN_END (R434). When all frames are acknowledged or 100 µs pass, the port sends LINK_DOWN, darkens
  and enters OFF. -/
  | shutdownDrainEnd (port : PortNo)
  /-- SYNC_SEND (R373). At each interval a master or follower sends SYNC on its downstream ports. -/
  | syncSend
  /-- SYNC_RECEIVE (R376). A follower takes SYNC from its upstream port, completes an exchange and answers with an
  ECHO. -/
  | syncReceive (port : PortNo) (msg : SyncMsg)
  /-- ECHO_RECEIVE (R376). An ECHO from a follower is timestamped for return as RX_PREV in the next SYNC. -/
  | echoReceive (port : PortNo) (msg : SyncMsg)
  /-- FREEZE_END (R379). A count frozen for the offset resumes counting. -/
  | freezeEnd
  /-- HOLDOVER_ENTRY (R378). Three intervals pass with no valid exchange and the follower enters HOLDOVER. -/
  | holdoverEntry
  /-- EXCHANGE_TIMEOUT (R376). An exchange that has not ended within 4 intervals of its SYNC becomes invalid and is
  counted. -/
  | exchangeTimeout
  /-- SET_HI_WRITE (R394). A write of GTC.SET_HI steps the count forward on a master or free-running node, else is
  refused. -/
  | setHiWrite (path : Path) (value : Word32)
  /-- SYNC_ROLE_WRITE (R378). A write of GTC.SYNC_CFG.ROLE changes the node's sync role, entering ACQUIRING as a
  follower. -/
  | syncRoleWrite (path : Path) (value : Word32)
  /-- PAIR_LOW_WORD_READ (R13). Reading the low word of a 64-bit pair latches the high word for that access path. -/
  | pairLowWordRead (path : Path) (addr : BitVec 26)
  /-- PAIR_HIGH_WORD_WRITE (R13). Writing the high word of a pair writes the whole pair with the held low word of that
  path. -/
  | pairHighWordWrite (path : Path) (addr : BitVec 26) (value : Word32)
  /-- REGISTER_WRITE (R14). A write to a register without behaviour of its own sets its fields under the access codes
  and owner checks. -/
  | registerWrite (path : Path) (addr : BitVec 26) (value : Word32)
  /-- OWNER_WRITE (R669). A write to OWNER changes the page holder when the current holder and path permit it. -/
  | ownerWrite (path : Path) (page : BitVec 14) (value : Word32)
  /-- BLK_RESET (R665). A block reset returns the block's non-sticky, non-RWO fields to their reset values. -/
  | blkReset (path : Path) (page : BitVec 14)
  /-- CLR_CNT (R663). Every counter of the block becomes 0. -/
  | clrCnt (path : Path) (page : BitVec 14)
  /-- ERR_INJ (R663). Selected ERR_STS bits are set as if the errors occurred, with INJECTED. -/
  | errInj (path : Path) (page : BitVec 14) (value : Word32)
  /-- NODE_ID_WRITE (R673). The first valid write of GLB.NODE_ID sets it and starts link resets with cause POWER on
  enabled ports. -/
  | nodeIdWrite (path : Path) (value : Word32)
  /-- COMP_NODE_WRITE (R654). The first valid write of CMP.COMP_NODE sets the companion's node ID. -/
  | compNodeWrite (path : Path) (value : Word32)
  /-- PORT_ENABLE_WRITE (R437). Writing FAB.PORT_CFG.EN shuts the port down or starts a link reset with cause POWER. -/
  | portEnableWrite (path : Path) (port : PortNo) (value : Word32)
  /-- DELIVER_WRITE (R550). Setting IRQ.GLB_CTL.DELIVER delivers each pending source and unmasked vector once. -/
  | deliverWrite (path : Path) (value : Word32)
  /-- VECTOR_UNMASK (R552). Clearing the mask of a pending vector sends one message and clears the pending bit and
  count. -/
  | vectorUnmask (path : Path) (value : Word32)
  /-- COMPANION_REG_READ (R638). A REG read from the companion is answered by the active complex after earlier writes.
  -/
  | companionRegRead (addr : Word32) (size : Nat)
  /-- COMPANION_REG_WRITE (R638). A posted REG write from the companion takes effect in its block if the companion
  holds the page. -/
  | companionRegWrite (addr : Word32) (size : Nat) (value : Word32)
  /-- REG_READ_TIMEOUT (R557). A companion read unanswered for 50 µs receives an error completion with TIMEOUT. -/
  | regReadTimeout
  /-- COH_NOP (R69). The extent NOP command does nothing. -/
  | cohNop
  /-- EXT_READ (R69). The extent entry is copied to EXT_DATA. -/
  | extRead (index : ExtIdx)
  /-- EXT_ASSIGN (R70). A FREE entry is checked and written from the image and enters INIT. -/
  | extAssign (index : ExtIdx)
  /-- EXT_INIT_DONE (R71). The zero fill or zero marking of INIT ends, the entry becomes ACTIVE and EXT_ASSIGN
  completes OK. -/
  | extInitDone (index : ExtIdx)
  /-- EXT_GRANT (R71). PERM bits of an ACTIVE entry are set without a drain. -/
  | extGrant (index : ExtIdx)
  /-- EXT_RESTRICT (R72). PERM bits are cleared or HSET changed, and a restriction drain starts. -/
  | extRestrict (index : ExtIdx)
  /-- EXT_REVOKE (R72). A range of ACTIVE extents is revoked: GEN increases, STATE becomes REVOKING, and the drain and
  sweep start. -/
  | extRevoke (index : ExtIdx) (count : BitVec 8)
  /-- CHANGE_END (R72). When no tracker entry carries the old GEN and both sweeps are done, the restriction or
  revocation completes. -/
  | changeEnd (change : Nat)
  /-- SWEEP_PASS_START (R75). A directory sweep pass starts, serving up to 256 pending changes. -/
  | sweepPassStart (half : Half)
  /-- SWEEP_PASS_END (R75). A sweep pass over a half's directory entries ends after sending its snoops and poisoning
  the dead hosts' lines. -/
  | sweepPassEnd (half : Half)
  /-- EXT_SCRUB (R78). A REVOKED extent enters SCRUBBING and its zero fill or block discard starts. -/
  | extScrub (index : ExtIdx)
  /-- SCRUB_DONE (R510). The scrub ends, a SCRUB record is written and the entry becomes FREE. -/
  | scrubDone (index : ExtIdx)
  /-- HSET_READ (R69). A host-set slot is copied to EXT_DATA0 and EXT_DATA1. -/
  | hsetRead (set : BitVec 12) (slot : BitVec 4)
  /-- HSET_WRITE (R74). A host-set slot is written, with a restriction drain when a VALID slot is narrowed. -/
  | hsetWrite (set : BitVec 12) (slot : BitVec 4)
  /-- REGION_CREATE (R79). A publication region is created and its record line written as zeros. -/
  | regionCreate (region : BitVec 12)
  /-- REGION_DESTROY (R69). A region is destroyed and its PUBLISHes complete CANCELLED. -/
  | regionDestroy (region : BitVec 12)
  /-- HOST_NOP (R155). The host NOP command does nothing. -/
  | hostNop
  /-- HOST_READ (R155). The state of a host is reported in COH.HOST_STS.STATE. -/
  | hostRead (node : NodeId)
  /-- CLEAR_DEAD (R155). A dead host whose sweep has ended returns to normal. -/
  | clearDead (node : NodeId)
  /-- DECLARE_DEAD (R155). A host is declared dead at once with every effect of R152. -/
  | declareDead (node : NodeId)
  /-- LOAD_SHARED (R130). A read request is checked at the home and served from DRAM or by forward, and may be cached
  in S. -/
  | loadShared (h : ReqHdr) (nc : Bool)
  /-- LOAD_OWN (R130). A request for ownership snoops other holders and grants M with a grant wait. -/
  | loadOwn (h : ReqHdr)
  /-- STORE (R130). A writeback from the recorded owner is written to DRAM and frees the entry. -/
  | store (h : ReqHdr) (data : Line)
  /-- WRITE_INVAL (R130). A full-line write invalidates every copy and writes DRAM. -/
  | writeInval (h : ReqHdr) (data : Line) (poison : Bool)
  /-- WRITE_PARTIAL (R139). The masked bytes are merged into the current line at the home. -/
  | writePartial (h : ReqHdr) (data : Line) (mask : Word64)
  /-- ATOMIC (R123). An atomic update is applied at the home and returns the old value. -/
  | atomic (h : ReqHdr) (aop : BitVec 4) (wide : Bool) (operand : List Byte)
  /-- SNOOP_RESPONSE (R134). A holder's answer to a snoop arrives at the home and advances the line's transaction. -/
  | snoopResponse (via : Via) (node : NodeId) (tag : Tag) (status : BitVec 8) (data : Option Line) (wbPending poison : Bool) (fkey : Option (BitVec 13))
  /-- GRANT_ACKNOWLEDGEMENT (R137). The new owner's acknowledgement arrives and the line becomes stable. -/
  | grantAcknowledgement (node : NodeId) (tag : Tag)
  /-- ANSWER_POINT (R141). At 3.5 µs after arrival, an unfinished request receives NACK_RETRY while its work
  continues. -/
  | answerPoint (line : LineNo)
  /-- SNOOP_DEADLINE (R149). A snoop attempt passes its 2 µs deadline; the next attempt is sent, or after the third
  the line is poisoned and the host becomes suspect. -/
  | snoopDeadline (line : LineNo) (node : NodeId)
  /-- STORE_WAIT_EXPIRY (R135). A STORE awaited after WB_PENDING has not arrived by 6 µs; the line is poisoned and the
  owner suspect. -/
  | storeWaitExpiry (line : LineNo)
  /-- GRANT_WAIT_EXPIRY (R137). No grant acknowledgement within 6 µs; the requester is handled as a failed snoop. -/
  | grantWaitExpiry (line : LineNo)
  /-- RESERVATION_LAPSE (R147). A holder has not retried within RES_WIN; the reservation lapses and is counted. -/
  | reservationLapse (line : LineNo) (node : NodeId) (tag : Tag)
  /-- PROBE_INTERVAL (R151). Every 100 µs a fresh liveness probe is sent to a suspect host. -/
  | probeInterval (node : NodeId)
  /-- PROBE_ANSWER (R151). An answer carrying a current NONCE within 1 ms returns the host to normal; a stray answer
  is counted. -/
  | probeAnswer (node : NodeId) (nonce : Word64)
  /-- SUSPICION_EXPIRY (R152). With no probe answer by 1 ms, the host is declared dead and its lines and reservations
  are handled. -/
  | suspicionExpiry (node : NodeId)
  /-- PROBE (R458). A PROBE addressed to this device is answered with a PROBE_ANSWER carrying the same NONCE. -/
  | probe (via : Via) (node : NodeId) (tag : Tag) (nonce : Word64)
  /-- REPLY_CACHE_EXPIRY (R455). A reply-cache entry is released 160 µs after it was stored. -/
  | replyCacheExpiry (half : Half) (src : NodeId) (tag : Tag)
  /-- DEVICE_TRANSACTION_ANSWER (R454). An ACK, NACK or POLICED notice answers a device-issued transaction, which
  completes or is resent after the hint. -/
  | deviceTransactionAnswer (via : Via) (node : NodeId) (tag : Tag) (ans : DevAnswer)
  /-- DTO_EXPIRY (R454). A device-issued transaction's deadline passes unanswered; it is reissued once with RISS, then
  fails TIMEOUT. -/
  | dtoExpiry (node : NodeId) (tag : Tag)
  /-- ENGINE_RETRY (R169). An engine access refused with NACK_RETRY or TIER_FILL is retried after the hint. -/
  | engineRetry (access : Nat)
  /-- ENGINE_ACCESS (R98). An engine looks up its translation in the micro-TLB or shared cache and issues the access
  or starts a walk. -/
  | engineAccess (who : Engine) (part : PartId) (va : Word64) (kind : EngKind)
  /-- PAGE_TABLE_WALK (R99). A walker starts a demand walk, joining all misses on the same 64 KiB page. -/
  | pageTableWalk (half : Half)
  /-- WALK_TABLE_READ (R91). A table line read returns and the walk descends, faults or returns a leaf. -/
  | walkTableRead (walk : Nat)
  /-- WALK_TIMEOUT (R100). A walk exceeds 20 µs and ends with cause WALK_TIMEOUT for every joined request. -/
  | walkTimeout (walk : Nat)
  /-- PREFETCH_WALK (R102). The unit starts a prefetch walk for a declared stream tile while enough walkers are idle. -/
  | prefetchWalk (op : Nat) (stream : Fin 32) (half : Half)
  /-- FAULT_HOLD_EXPIRY (R108). A fault record reaches its hold limit and is handled as FAULT_ABORT. -/
  | faultHoldExpiry (record : BitVec 9)
  /-- XLT_NOP (R95). The XLT NOP command does nothing. -/
  | xltNop
  /-- CTX_READ (R95). A partition's translation context is copied to DATA. -/
  | ctxRead (part : PartId)
  /-- CTX_WRITE (R95). The context is written and INV_PART runs for the partition. -/
  | ctxWrite (part : PartId)
  /-- INV_PAGE (R113). Translations covering a virtual address are invalidated. -/
  | invPage (part : PartId)
  /-- INV_RANGE (R113). Translations overlapping a range are invalidated. -/
  | invRange (part : PartId)
  /-- INV_PART (R113). Every translation of a partition is invalidated. -/
  | invPart (part : PartId)
  /-- INVALIDATION_DRAIN_END (R113). Earlier engine accesses of the partition have drained on both halves and the
  invalidation completes. -/
  | invalidationDrainEnd
  /-- FAULT_READ (R95). A fault record's image is copied to DATA. -/
  | faultRead (record : BitVec 9)
  /-- FAULT_RESUME (R108). A record's waiters retry with a fresh lookup and the record is freed and logged. -/
  | faultResume (record : BitVec 9)
  /-- FAULT_ABORT (R108). A record's waiters end with TRANSLATION_FAULT and the record is freed and logged. -/
  | faultAbort (record : BitVec 9)
  /-- TIER_NOP (R198). The TIER NOP command does nothing. -/
  | tierNop
  /-- AREA_SET (R198). PIN_ROWS is set and the cache area is reorganised. -/
  | areaSet
  /-- THATCH_INIT (R198). The 16 drives are brought up, BLOCKS is set, the map is zeroed and the block cache emptied. -/
  | thatchInit
  /-- FLUSH (R198). Every block dirty at acceptance is written back. -/
  | flush
  /-- DRIVE_FAIL (R198). A drive is counted as failed. -/
  | driveFail (drive : DriveNo)
  /-- DRIVE_REBUILD (R195). A rebuild of a failed port's drive starts. -/
  | driveRebuild (drive : DriveNo)
  /-- REBUILD_STRIPE (R195). One stripe's member is rebuilt and written; after the last stripe the drive leaves the
  failed set. -/
  | rebuildStripe (old : List Granule)
  /-- FILL_FRAME_READY (R170). A waiting fill obtains a frame and writes its tag FILLING. -/
  | fillFrameReady (block : Nat)
  /-- DRIVE_READ_COMPLETE (R170). The block's granules are read, checked and written into the frame, which becomes
  IDLE and valid. -/
  | driveReadComplete (block : Nat) (granules : List Granule)
  /-- EVICTION_RECALL_DONE (R174). The recall ends and the frame is written back if dirty or freed. -/
  | evictionRecallDone (block : Nat)
  /-- WRITEBACK (R175). A writeback recalls M lines, snapshots dirty granules and writes them with P and Q. -/
  | writeback (block : Nat) (old : List Granule)
  /-- WRITEBACK_COMPLETE (R175). All writes of a writeback complete; DATA is set and covered dirty bits cleared. -/
  | writebackComplete (block : Nat)
  /-- CLEANER_START (R178). The dirty fraction exceeds HIGH and the cleaner starts writing back blocks. -/
  | cleanerStart
  /-- AGE_STEP (R173). Every 100 µs the ages in each tag-cache set increase by 1, saturating at 15. -/
  | ageStep
  /-- DRIVE_COMMAND_TIMEOUT (R192). An NVMe command reaches TIMEOUT and is aborted; three in 1 s fail the drive. -/
  | driveCommandTimeout (drive : DriveNo) (block : Nat)
  /-- DRIVE_LINK_DOWN (R192). A drive link stays down for 100 ms or the drive is removed, and the drive fails. -/
  | driveLinkDown (drive : DriveNo) (removed : Bool)
  /-- DRIVE_FATAL_STATUS (R192). A drive reports CSTS.CFS and fails. -/
  | driveFatalStatus (drive : DriveNo)
  /-- DDR_NOP (R232). The training NOP command does nothing. -/
  | ddrNop (ch : ChanNo)
  /-- TRAIN_SAVE (R233). The channel's training results are written to the calibration store. -/
  | trainSave (ch : ChanNo)
  /-- TRAIN_CHECK (R233). A margin test starts on each rank of the channel. -/
  | trainCheck (ch : ChanNo)
  /-- TRAIN_CHECK_DONE (R233). The margin test ends and CHECK completes OK or UNCORRECTABLE. -/
  | trainCheckDone (ch : ChanNo) (pass : Bool)
  /-- REFRESH_DUE (R212). A rank's refresh interval falls due and its refresh is issued or postponed. -/
  | refreshDue (ch : ChanNo) (rank : Fin 4)
  /-- MR4_POLL (R212). Mode register 4 of every rank is read every 4 ms and the refresh rate updated. -/
  | mr4Poll (ch : ChanNo) (hot : List Mr4)
  /-- DRAM_READ_ISSUE (R208). The scheduler issues a read or write batch from its ports under round robin, age and
  panic rules. -/
  | dramReadIssue (ch : ChanNo)
  /-- NEIGHBOUR_REFRESH (R218). A queued neighbour refresh activates and precharges the neighbouring rows. -/
  | neighbourRefresh (ch : ChanNo) (bank : Nat)
  /-- REFRESH_WINDOW_CLEAR (R217). At each refresh window every activation table of the rank is cleared. -/
  | refreshWindowClear (ch : ChanNo) (rank : Fin 4)
  /-- PARITY_ALERT (R221). A command-address parity alert stops the channel and marks the window's commands as not
  executed. -/
  | parityAlert (ch : ChanNo)
  /-- PARITY_REPLAY (R221). After recovery the channel reopens rows and replays the window's commands in order. -/
  | parityReplay (ch : ChanNo)
  /-- CA_RETRAIN (R224). After 3 alerts in one recovery the channel retrains its command bus and replays, failing on a
  further alert. -/
  | caRetrain (ch : ChanNo) (alertAgain : Bool)
  /-- PERIODIC_CALIBRATION (R229). Impedance calibration every 128 ms and oscillator tracking every 16 ms take their
  rank briefly. -/
  | periodicCalibration (ch : ChanNo) (rank : Fin 4) (tracking : Bool)
  /-- DRAM_READ_DATA (R242). Read data arrives and is decoded as clean, corrected, poisoned or uncorrectable. -/
  | dramReadData (site : ReadSite)
  /-- SCRUB_READ (R247). The scrubber reads the next line when the subchannel is idle and acts on the finding. -/
  | scrubRead (ch : ChanNo) (sub : Bool) (flips : BitVec 640)
  /-- RAS_NOP (R265). The RAS NOP command does nothing. -/
  | rasNop (half : Half)
  /-- RAS_LOG_READ (R265). An error-log record is copied to DATA0 to DATA15. -/
  | rasLogRead (half : Half)
  /-- MARK_DEVICE (R265). A DRAM device of a rank and subchannel is marked at once. -/
  | markDevice (half : Half)
  /-- RETIRE_ROW (R258). A granule row is retired, evicting a resident block first. -/
  | retireRow (half : Half)
  /-- RETIRE_BANK (R258). A rank's physical bank is retired, evicting resident blocks first. -/
  | retireBank (half : Half)
  /-- CLEAR_LOST_SET (R265). The lost-set table of the half is emptied. -/
  | clearLostSet (half : Half)
  /-- OPQ_NOP (R303). The OPQ NOP command does nothing. -/
  | opqNop
  /-- Q_CREATE (R303). A queue is created ACTIVE with its indices at 0. -/
  | qCreate (queue : QueueId) (part : PartId)
  /-- Q_READ (R303). A queue context image is copied to DATA. -/
  | qRead (queue : QueueId)
  /-- Q_DRAIN (R296). The drain mark is set to SQ_TAIL and the queue becomes DRAINING. -/
  | qDrain (queue : QueueId)
  /-- Q_ENABLE (R303). A STOPPED queue becomes ACTIVE and DROPPED is cleared. -/
  | qEnable (queue : QueueId)
  /-- Q_RESET (R297). A queue reset cancels in-flight work and completes pending descriptors CANCELLED. -/
  | qReset (queue : QueueId)
  /-- Q_DESTROY (R303). A STOPPED or LOST queue becomes FREE. -/
  | qDestroy (queue : QueueId)
  /-- PART_SET (R303). A partition's spill extent and queue quota are set. -/
  | partSet (part : PartId)
  /-- PART_READ (R303). A partition's operation resources are copied to DATA. -/
  | partRead (part : PartId)
  /-- CORE_ASSIGN (R303). Logical cores join a partition after refill. -/
  | coreAssign (part : PartId)
  /-- CORE_RELEASE (R303). Cores leave a partition at once, their compute-phase units run again, and their SRAM is
  refilled. -/
  | coreRelease (part : PartId)
  /-- PART_RESET (R299). Every queue of the partition is reset, its fault records freed and its cores' SRAM refilled. -/
  | partReset (part : PartId)
  /-- DOORBELL_WRITE (R544). A doorbell packet or WRITE_PARTIAL to a doorbell area is admitted or refused whole. -/
  | doorbellWrite (h : ReqHdr) (form : DoorbellForm)
  /-- CONTEXT_RELOAD (R275). A spilled queue context is loaded and another spilled, or the queue becomes LOST on a
  failed check. -/
  | contextReload (queue : QueueId)
  /-- DESCRIPTOR_FETCH (R281). A fetched descriptor and its stream table are checked in order and armed or completed. -/
  | descriptorFetch (queue : QueueId)
  /-- OPERATION_START (R283). An operation starts once its queue order, MAX_INFLIGHT, LAUNCH and FENCE conditions
  hold. -/
  | operationStart (op : Nat)
  /-- LAUNCH_COUNT_REACHED (R383). The count equals LAUNCH of an armed operation and it starts. -/
  | launchCountReached (op : Nat)
  /-- UNIT_TAKE (R286). A core with a free slot and enough SRAM takes the lowest untaken unit. -/
  | unitTake (op : Nat) (core : Fin 512)
  /-- UNIT_WRITE_PHASE (R288). A unit ends its compute phase and the bulk mover issues its writes. -/
  | unitWritePhase (op : Nat) (unit : Nat)
  /-- UNIT_DONE (R288). Every write of a unit is answered; the unit is done and the operation may complete or start
  its next pass. -/
  | unitDone (op : Nat) (unit : Nat)
  /-- TIME_BUDGET_EXPIRY (R285). An operation's budget expires; it completes TIMEOUT and its units are abandoned. -/
  | timeBudgetExpiry (op : Nat)
  /-- COMPLETION_RECORD_WRITE (R293). A completion record is written when the CQ has room, or the queue is STOPPED if
  the write fails. -/
  | completionRecordWrite (queue : QueueId)
  /-- HEAD_LINE_POLL (R294). While the CQ is full the head line is read every 1 µs for CQ_HEAD. -/
  | headLinePoll (queue : QueueId)
  /-- RESET_RECORD_TIMEOUT (R297). Reset records that do not fit within 1 ms are counted in DROPPED and the queue
  becomes STOPPED. -/
  | resetRecordTimeout (queue : QueueId)
  /-- QUEUE_STALL (R298). A record held 50 ms for a full CQ resets the queue and logs a POLICY_EVENT. -/
  | queueStall (queue : QueueId)
  /-- GATHER_REDUCE (R314). Bags of rows are gathered and pooled exactly, then rounded once. -/
  | gatherReduce (op : Nat) (unit : Nat)
  /-- SCATTER_UPDATE (R316). Gradients are combined per row and an update rule applied once per row. -/
  | scatterUpdate (op : Nat) (unit : Nat)
  /-- ATTEND (R319). Attention over a paged KV cache is computed in three passes. -/
  | attend (op : Nat) (unit : Nat)
  /-- SCAN_SCORE_TOPK (R321). Vectors are scored exactly and the top K per query are kept. -/
  | scanScoreTopk (op : Nat) (unit : Nat)
  /-- HASH_PROBE (R323). Keys are looked up in, or inserted by CAS into, an open-addressed table. -/
  | hashProbe (op : Nat) (unit : Nat)
  /-- FILTER (R325). Records satisfying mask and clauses are written compacted in two passes. -/
  | filter (op : Nat) (unit : Nat)
  /-- MAP (R327). A microprogram runs on each element index. -/
  | map (op : Nat) (unit : Nat)
  /-- COPY (R330). Bytes are copied from source to destination, propagating poison. -/
  | copy (op : Nat) (unit : Nat)
  /-- MOVE (R331). A range is copied, then the source is zeroed in a second pass. -/
  | move (op : Nat) (unit : Nat)
  /-- FILL (R332). A destination range is written with a repeated pattern. -/
  | fill (op : Nat) (unit : Nat)
  /-- ATOMIC_BATCH (R333). A list of atomic updates is applied at their homes. -/
  | atomicBatch (op : Nat) (unit : Nat)
  /-- PUBLISH (R81). A new version is compared and set, the snapshot extent frozen and drained. -/
  | publish (op : Nat)
  /-- PUBLISH_DRAIN_END (R81). The freeze drain ends, the record line is written with the new version and the PUBLISH
  completes OK. -/
  | publishDrainEnd (region : BitVec 12)
  /-- ADVISE (R335). A residency hint is applied to each block of a translated range. -/
  | advise (op : Nat)
  /-- FENCE (R336). Later descriptors wait until every earlier record is written; with ABORT, failures cancel up to
  the next FENCE. -/
  | fence (op : Nat)
  /-- SIGNAL (R337). A write, add, doorbell or interrupt is issued, optionally after earlier records. -/
  | signal (op : Nat)
  /-- WAIT_COUNT (R338). The queue holds later descriptors until the global count reaches COUNT. -/
  | waitCount (op : Nat)
  /-- WAIT_COUNT_REACHED (R385). The count reaches COUNT; WAIT_COUNT completes and the next descriptor may start. -/
  | waitCountReached (op : Nat)
  /-- SAVE_STATE (R340). A running operation is paused and its partial state written to an image. -/
  | saveState (op : Nat)
  /-- RESTORE_STATE (R342). A saved image is checked, consumed by CAS and its remaining units run. -/
  | restoreState (op : Nat)
  /-- MICRO_NOP (R328). The NOP micro-op leaves D unchanged. -/
  | microNop
  /-- ADD (R328). D receives A plus B. -/
  | add (t : MicroType) (d a b : Fin 16)
  /-- SUB (R328). D receives A minus B. -/
  | sub (t : MicroType) (d a b : Fin 16)
  /-- MUL (R328). D receives A times B. -/
  | mul (t : MicroType) (d a b : Fin 16)
  /-- FMA (R328). D receives A times B plus C, rounded once. -/
  | fma (d a b c : Fin 16)
  /-- MIN (R328). D receives the minimum of A and B. -/
  | min (t : OrdType) (d a b : Fin 16)
  /-- MAX (R328). D receives the maximum of A and B. -/
  | max (t : OrdType) (d a b : Fin 16)
  /-- ABS (R328). D receives the absolute value of A. -/
  | abs (t : MicroType) (d a : Fin 16)
  /-- NEG (R328). D receives the negation of A. -/
  | neg (t : MicroType) (d a : Fin 16)
  /-- CMP (R328). D receives 1 or 0 for the comparison of A and B. -/
  | cmp (t : OrdType) (cond : MicroCond) (d a b : Fin 16)
  /-- SEL (R328). D receives B if A is non-zero, else C. -/
  | sel (d a b c : Fin 16)
  /-- CVT (R328). D receives A converted as IMM selects. -/
  | cvt (mode : CvtMode) (d a : Fin 16)
  /-- FLOOR (R328). D receives the greatest integral FP32 not above A. -/
  | floor (d a : Fin 16)
  /-- BKT (R328). D receives the count of AUX boundaries not above A. -/
  | bkt (d a : Fin 16)
  /-- HASH (R328). D receives half of the keyed hash of A and B. -/
  | hash (high : Bool) (d a b : Fin 16)
  /-- EXP (R362). D receives exp32 of A. -/
  | exp (d a : Fin 16)
  /-- LOG1P (R363). D receives log(1 + A), correctly rounded. -/
  | log1p (d a : Fin 16)
  /-- RSQRT (R363). D receives 1/√A, correctly rounded. -/
  | rsqrt (d a : Fin 16)
  /-- LDC (R328). D receives an AUX constant. -/
  | ldc (d : Fin 16) (index : Fin 16)
  /-- MOV (R328). D receives A. -/
  | mov (d a : Fin 16)
  /-- DATA_FRAME (R408). A good DATA frame is accepted in order, held, or discarded as a duplicate, updating ACK and
  credits. -/
  | dataFrame (port : PortNo) (frame : LinkFrame)
  /-- STATUS (R421). A STATUS frame gives CRET_TOTAL from which leaked credits and the window are computed. -/
  | status (port : PortNo) (frame : LinkFrame)
  /-- SREQ (R415). The sender retransmits each named frame alone ahead of new DATA. -/
  | sreq (port : PortNo) (frame : LinkFrame)
  /-- LINK_RESET (R433). A peer LINK_RESET starts or joins a link reset. -/
  | linkReset (port : PortNo) (frame : LinkFrame)
  /-- TS (R428). A training set is taken for width, speed, leader, epochs and credits in NEGOTIATE. -/
  | ts (port : PortNo) (frame : LinkFrame)
  /-- LINK_DOWN (R434). A peer LINK_DOWN stops new DATA frames, and the port enters DARK when the light ends. -/
  | linkDown (port : PortNo) (frame : LinkFrame)
  /-- TEST_FRAME (R435). A TEST frame is checked and its errors counted. -/
  | testFrame (port : PortNo) (frame : LinkFrame)
  /-- ACK_TIMER_EXPIRY (R416). The oldest frame's acknowledgement timer expires; all unacknowledged frames are
  replayed, resetting after REPLAY_MAX. -/
  | ackTimerExpiry (port : PortNo)
  /-- SREQ_REPEAT (R414). A gap still open after a round trip plus 500 ns is requested again, at most 3 times. -/
  | sreqRepeat (port : PortNo) (seq : BitVec 16)
  /-- COALESCE_TIMER (R412). COAL_T passes after the first unacknowledged frame and an acknowledgement falls due. -/
  | coalesceTimer (port : PortNo)
  /-- STATUS_TIMER (R418). Every 10 µs in RESUME and ACTIVE a STATUS frame falls due. -/
  | statusTimer (port : PortNo)
  /-- LEAK_RESET (R422). A scheduled LEAK reset starts after 1 µs without new DATA or 1 ms after the window fell. -/
  | leakReset (port : PortNo)
  /-- LOSS_OF_LOCK (R424). Loss of light or codeword lock on a wavelength in use starts a link reset with cause LOCK. -/
  | lossOfLock (port : PortNo)
  /-- QUIESCE_END (R426). QUIESCE ends on the peer's LINK_RESET or at its limit, discarding held frames, and TUNE
  starts. -/
  | quiesceEnd (port : PortNo)
  /-- TUNE_END (R426). Ring tuning ends with each wavelength good or not good. -/
  | tuneEnd (port : PortNo) (rxGood : BitVec 8)
  /-- ALIGN_END (R426). Codeword lock is reached on at least 4 wavelengths and NEGOTIATE starts. -/
  | alignEnd (port : PortNo) (locked : BitVec 8)
  /-- NEGOTIATE_END (R428). Three identical peer TS settle width, speed, leader, epochs and credits, and VERIFY
  starts. -/
  | negotiateEnd (port : PortNo)
  /-- VERIFY_END (R426). The PRBS test ends with both verdicts; pass starts RESUME, fail starts another attempt. -/
  | verifyEnd (port : PortNo) (bad : BitVec 8)
  /-- RESUME_END (R432). Every earlier frame is acknowledged and a STATUS received; the port enters ACTIVE. -/
  | resumeEnd (port : PortNo)
  /-- STEP_LIMIT_EXPIRY (R426). A link reset step passes its limit and the attempt fails, entering DOWN after three
  failures. -/
  | stepLimitExpiry (port : PortNo)
  /-- DARK_CHECK (R423). Every 1 ms a DARK port checks for light and starts a reset with cause RETRY when found. -/
  | darkCheck (port : PortNo) (light : Bool)
  /-- DOWN_RETRY (R426). Every RETRY_INT a DOWN port starts a new attempt. -/
  | downRetry (port : PortNo)
  /-- FAB_NOP (R438). The port NOP command does nothing. -/
  | fabNop (port : PortNo)
  /-- RETRAIN (R438). A link reset with cause COMMAND starts or is joined with the requested width and speed. -/
  | retrain (port : PortNo) (width : BitVec 2) (halfSpeed : Bool)
  /-- TEST_START (R435). An ACTIVE port drains and enters TEST. -/
  | testStart (port : PortNo)
  /-- TEST_STOP (R438). The port leaves TEST through RESUME to ACTIVE. -/
  | testStop (port : PortNo)
  /-- CLEAR_HELD (R438). A HELD port starts an attempt with cause RETRY. -/
  | clearHeld (port : PortNo)
  /-- FABRIC_PACKET (R449). A packet passed by the link layer is delivered locally, forwarded or dropped under the
  route table. -/
  | fabricPacket (port : PortNo)
  /-- TRANSIT_LIFETIME_EXPIRY (R452). A transit packet waiting longer than LIFE is dropped and counted. -/
  | transitLifetimeExpiry (packet : Nat)
  /-- MCAST (R469). A tree packet is copied down unpruned branches and delivered locally as data or control. -/
  | mcast (via : Via) (pkt : Packet)
  /-- NOTICE (R471). An UNREACHED notice at the root adds COUNT to the tree counter and sets UNREACHED. -/
  | notice (via : Via) (pkt : Packet)
  /-- BRANCH_PRUNE (R470). A branch without VC5 credit for TREE_STALL is pruned. -/
  | branchPrune (tree : BitVec 10) (port : PortNo)
  /-- CKT_SETUP (R461). A setup allocates an entry and reservations and passes on, or is rejected. -/
  | cktSetup (port : PortNo) (pkt : Packet)
  /-- CKT_CONFIRM (R461). A confirm opens the entry and passes upstream; at the source CKT_OPEN completes OK. -/
  | cktConfirm (port : PortNo) (pkt : Packet)
  /-- CKT_REJECT (R462). A reject releases entries upstream and completes CKT_OPEN with its status. -/
  | cktReject (port : PortNo) (pkt : Packet)
  /-- CKT_TEAR (R466). A tear releases the entry and reservations and passes on. -/
  | cktTear (port : PortNo) (pkt : Packet)
  /-- CKT_SETUP_TIMEOUT (R462). No confirm or reject within 1 ms; the source tears down and CKT_OPEN completes
  TIMEOUT. -/
  | cktSetupTimeout (label : BitVec 10)
  /-- BATTEN_CIRCUIT_FRAME (R464). A circuit frame is relabelled and forwarded, or applied at the destination with a
  CKT_ACK. -/
  | battenCircuitFrame (port : PortNo) (frame : CktFrame)
  /-- CKT_ACK (R465). A frame's acknowledgement frees the window and gives its status to the operation. -/
  | cktAck (pkt : Packet)
  /-- CIRCUIT_FRAME_TIMEOUT (R466). A frame without CKT_ACK within DTO tears the circuit down with cause TIMEOUT. -/
  | circuitFrameTimeout (label : BitVec 10) (ftag : BitVec 10)
  /-- RTE_NOP (R477). The RTE NOP command does nothing. -/
  | rteNop
  /-- RT_READ (R477). A route entry is copied to DATA1. -/
  | rtRead
  /-- RT_WRITE (R477). A route entry is written on both halves. -/
  | rtWrite
  /-- TREE_READ (R477). A tree entry is copied to DATA. -/
  | treeRead
  /-- TREE_WRITE (R477). A tree entry is written. -/
  | treeWrite
  /-- CKT_OPEN (R461). A batten circuit setup starts from the source. -/
  | cktOpen
  /-- CKT_CLOSE (R466). The source stops new frames and tears the circuit down after its acknowledgements. -/
  | cktClose
  /-- CKT_READ (R477). A circuit entry is copied to DATA. -/
  | cktRead
  /-- SHP_NOP (R479). The SHP NOP command does nothing. -/
  | shpNop
  /-- MTR_READ (R481). A meter image is copied to DATA. -/
  | mtrRead (part : PartId) (cls : Fin 4)
  /-- MTR_WRITE (R481). A meter is written, its buckets filled and RED cleared. -/
  | mtrWrite (part : PartId) (cls : Fin 4)
  /-- SEC_NOP (R521). The SEC NOP command does nothing. -/
  | secNop
  /-- SLOT_READ (R521). A key slot's state is copied to DATA0. -/
  | slotRead (part : PartId)
  /-- SEC_LOG_READ (R521). A security-log record is copied to DATA. -/
  | secLogRead
  /-- QUIET_SET (R514). Quiet mode of a partition is set when its queues are FREE or STOPPED. -/
  | quietSet (part : PartId)
  /-- FKEY_FLUSH (R521). Every fabric key entry of a partition is erased and its tenant session ended. -/
  | fkeyFlush (part : PartId)
  /-- SVN_COMMIT (R490). Fuses are blown until SVN equals the running image's FW_SVN. -/
  | svnCommit
  /-- MAILBOX_REQUEST (R497). A header write with STATE 1 in IDLE or RESPONSE makes the mailbox BUSY. -/
  | mailboxRequest (h : ReqHdr) (line : Line)
  /-- MAILBOX_RESPONSE (R497). The response is written into PAYLOAD and STATE becomes RESPONSE. -/
  | mailboxResponse (part : PartId) (payload : List Byte)
  /-- SPDM_REQUEST (R492). An SPDM request in the supported subset is answered, others receive ERROR. -/
  | spdmRequest (via : SpdmVia) (code : BitVec 8) (body : List Byte)
  /-- KEY_EXCHANGE (R493). A session key exchange starts, or receives ERROR Busy beyond the transport's limit. -/
  | keyExchange (via : SpdmVia) (mutualAuth : Bool)
  /-- FINISH (R494). A session completes authentication and replaces the partition's previous tenant session. -/
  | finish (session : Nat) (leafKeyHash : Digest) (verified : Bool)
  /-- END_SESSION (R495). A session ends at its requester's request. -/
  | endSession (session : Nat)
  /-- MEASUREMENTS (R517). A signed MEASUREMENTS response with the blocks of the report is returned. -/
  | measurements (session : Option Nat) (nonce : BitVec 256)
  /-- HEARTBEAT_MISSED (R495). Three heartbeat periods pass without a heartbeat and the session ends. -/
  | heartbeatMissed (session : Nat)
  /-- FKEY_INSTALL (R502). A fabric key entry is installed and its index returned. -/
  | fkeyInstall (session : Nat) (args : List Byte)
  /-- FKEY_DESTROY (R498). A fabric key entry is erased. -/
  | fkeyDestroy (session : Nat) (index : BitVec 13)
  /-- XLT_COMMAND (R498). An XLT command runs for the session's partition. -/
  | xltCommand (session : Nat) (cmd : Word32) (image : BitVec 256)
  /-- OPQ_COMMAND (R498). An allowed OPQ command runs for the session's partition. -/
  | opqCommand (session : Nat) (cmd : Word32) (image : BitVec 256)
  /-- EXT_ACCEPT (R500). An unaccepted extent with matching GEN becomes accepted. -/
  | extAccept (session : Nat) (index : ExtIdx) (gen : BitVec 16)
  /-- QUIET_SET_MESSAGE (R498). The tenant sets quiet mode of its partition. -/
  | quietSetMessage (session : Nat) (data : Word32)
  /-- TENANT_LOG_READ (R498). The oldest record of the partition at or after SEQ is returned. -/
  | tenantLogRead (session : Nat) (seq : Word32)
  /-- DEBUG_CHALLENGE (R498). A fresh 16-byte nonce is returned. -/
  | debugChallenge (session : Nat)
  /-- DEBUG_UNLOCK (R491). The debug port unlocks on a valid owner signature over the nonce. -/
  | debugUnlock (session : Nat) (signature : BitVec 1056)
  /-- OWNER_SET (R498). OWNER_HASH is programmed from an owner public key. -/
  | ownerSet (session : Nat) (key : BitVec 1064)
  /-- DEBUG_DISABLE (R498). DBG_OFF is blown on a valid owner signature. -/
  | debugDisable (session : Nat) (signature : BitVec 1056)
  /-- QUIET_ISSUE_SLOT (R513). At each multiple of PERIOD every quiet core issues one access or a filler read. -/
  | quietIssueSlot (part : PartId)
  /-- QUIET_RELEASE (R513). A quiet result or answer is released LAT after issue or arrival, counting overruns. -/
  | quietRelease (part : PartId) (item : Nat)
  /-- GLB_NOP (R675). The GLB NOP command does nothing. -/
  | glbNop
  /-- PART_CREATE (R676). A partition is created with its key slot, hash key and defaults. -/
  | partCreate (part : PartId) (conf : Bool)
  /-- PART_DESTROY (R511). A partition with no remaining objects is torn down and its keys destroyed. -/
  | partDestroy (part : PartId)
  /-- PART_QUERY (R675). A partition's existence and flags are reported. -/
  | partQuery (part : PartId)
  /-- CAL_NOP (R596). The calibration NOP command does nothing. -/
  | calNop
  /-- OPT_RECAL (R596). An optical engine's bias and ring tuning are recalibrated from scratch. -/
  | optRecal (engine : Fin 4)
  /-- OPT_SAVE (R596). Current optical values are written to the calibration store. -/
  | optSave
  /-- CTL_NOP (R560). The CTL NOP command does nothing. -/
  | ctlNop
  /-- SWITCHOVER (R560). The active complex releases the ridge line and the standby claims it. -/
  | switchover
  /-- STANDBY_RESYNC (R560). An OFFLINE complex enters RESYNC. -/
  | standbyResync
  /-- CONTROL_INPUT (R525). An input to the complexes is numbered by the active complex and processed in order. -/
  | controlInput (input : Nat)
  /-- CONTROL_MESSAGE (R541). A control message reaches its egress filter and is forwarded or discarded by CSN. -/
  | controlMessage (from_ : Half) (csn : Word32) (egress : Fin 25)
  /-- RIDGE_STATUS_SEND (R533). Every 10 µs a half sends a ridge status message to the other. -/
  | ridgeStatusSend (half : Half)
  /-- RIDGE_STATUS (R533). A received ridge status updates roles and checks for a ridge fault. -/
  | ridgeStatus (half : Half) (msg : RidgeMsg)
  /-- RIDGE_FAULT_TAKEOVER (R538). 10 ms into ridge-fault mode the strap half becomes ACTIVE without the line. -/
  | ridgeFaultTakeover
  /-- PEER_LOST (R533). No ridge status for 100 µs; the peer is treated as lost and a standby may claim. -/
  | peerLost (half : Half)
  /-- RIDGE_CLAIM (R531). A complex sensing both latches clear claims the ridge line and becomes ACTIVE. -/
  | ridgeClaim (half : Half)
  /-- CLAIM_WAIT_EXPIRY (R531). The non-strap half claims after 1 ms without a claim from the strap half. -/
  | claimWaitExpiry (half : Half)
  /-- LOCKSTEP_MISMATCH (R534). A lockstep mismatch releases the latch in hardware at once. -/
  | lockstepMismatch (half : Half)
  /-- CONTROL_MEMORY_ERROR (R534). An uncorrectable word in control SRAM releases the line or sends a standby to
  RESYNC. -/
  | controlMemoryError (half : Half)
  /-- WATCHDOG_WARNING (R534). No kick for 0.5 ms raises a priority-0 warning. -/
  | watchdogWarning (half : Half)
  /-- CONTROL_WATCHDOG_EXPIRY (R534). No kick for 1 ms releases the ridge line in hardware. -/
  | controlWatchdogExpiry (half : Half)
  /-- RESYNC_DONE (R535). A resyncing complex has reloaded firmware and copied state and becomes STANDBY. -/
  | resyncDone (half : Half)
  /-- HEARTBEAT (R556). A near-memory core writes its 1 ms heartbeat. -/
  | heartbeat (core : Fin 576)
  /-- HEARTBEAT_TIMEOUT (R556). No heartbeat for 10 ms resets the core, and a third reset in 60 s fences it. -/
  | heartbeatTimeout (core : Fin 576)
  /-- FETCH_TRAP (R252). An uncorrectable instruction fetch traps and resets the core. -/
  | fetchTrap (core : Fin 576)
  /-- INTERRUPT_ARRIVAL (R546). An interrupt event sets its source pending and may be accepted by its control core. -/
  | interruptArrival (half : Half) (source : Fin 1024)
  /-- END_OF_INTERRUPT (R547). An end-of-interrupt pops the named top of stack, or raises IRQ_ORDER otherwise. -/
  | endOfInterrupt (half : Half) (core : Fin 4) (source : Fin 1024)
  /-- VECTOR_ARRIVAL (R552). An arrival on a vector sends a message interrupt or sets it pending. -/
  | vectorArrival (vector : VecNo)
  /-- SIDEBAND_WATCHDOG_EXPIRY (R558). No side-band kick for 2 s restarts the always-on island and ends side-band
  sessions. -/
  | sidebandWatchdogExpiry (half : Half)
  /-- COMPANION_FLIT (R633). A companion link flit is received and passed to its channel or replayed if bad. -/
  | companionFlit (flit : Flit)
  /-- COMPANION_RETRAIN (R633). After 8 replays or loss of lock the companion link retrains and holds snoops and
  probes. -/
  | companionRetrain (lossOfLock : Bool)
  /-- COMPANION_LINK_ACTIVE (R636). The companion link becomes ACTIVE, replays unacknowledged flits, sends held snoops
  and pending vectors. -/
  | companionLinkActive
  /-- COMPANION_TRAIN_RETRY (R633). Every 100 ms a DOWN companion link retries training. -/
  | companionTrainRetry
  /-- HELD_SNOOP_RELEASE (R636). A snoop held during a retrain counts as sent after 2 ms. -/
  | heldSnoopRelease
  /-- MCTP_MESSAGE (R641). An MCTP packet on the MSG channel or side-band is processed by type or discarded. -/
  | mctpMessage (sideband : Bool) (msgType : BitVec 8) (body : List Byte)
  /-- CMP_NOP (R655). The CMP NOP command does nothing. -/
  | cmpNop
  /-- IMG_BEGIN (R653). The image region erase starts and STORE becomes RECEIVING. -/
  | imgBegin
  /-- IMG_ERASE_DONE (R653). The image region erase ends and IMG_BEGIN completes. -/
  | imgEraseDone
  /-- IMG_WRITE (R653). A 4 KiB block from IMG_BUF is programmed into the image region. -/
  | imgWrite
  /-- IMG_END (R653). The image is checked and STORE becomes PENDING or INVALID, restarting Dawn from Dawn hold. -/
  | imgEnd
  /-- IMG_DISTRIBUTE (R587). A staged image is checked and multicast as fragments on a tree. -/
  | imgDistribute
  /-- FW_FRAG (R589). A received fragment starts or continues reception and is written to the image region. -/
  | fwFrag (frag : Fragment)
  /-- FRAGMENT_TIMEOUT (R589). 10 ms without a fragment ends multicast reception and starts the repair fetches. -/
  | fragmentTimeout
  /-- FRAGMENT_FETCH (R589). A repair fetch returns a fragment or fails; when complete the image is checked. -/
  | fragmentFetch (index : Nat) (data : Option (List Byte))
  /-- ENTDAA (R642). The I3C dynamic address assignment gives the port a dynamic address. -/
  | entdaa (addr : BitVec 7)
  /-- SETDASA (R642). A dynamic address is set from the static address. -/
  | setdasa (addr : BitVec 7)
  /-- RSTDAA (R643). The dynamic address is cleared and the port returns to I²C. -/
  | rstdaa
  /-- ENEC (R642). Target events are enabled. -/
  | enec (events : BitVec 8)
  /-- DISEC (R642). Target events are disabled. -/
  | disec (events : BitVec 8)
  /-- GETPID (R642). The provisioned ID is returned. -/
  | getpid
  /-- GETBCR (R642). The BCR is returned. -/
  | getbcr
  /-- GETDCR (R642). The DCR is returned. -/
  | getdcr
  /-- GETSTATUS (R642). The target status is returned. -/
  | getstatus
  /-- GETMRL (R642). The maximum read length is returned. -/
  | getmrl
  /-- GETMWL (R642). The maximum write length is returned. -/
  | getmwl
  /-- SETMRL (R642). The maximum read length is set. -/
  | setmrl (len : BitVec 16)
  /-- SETMWL (R642). The maximum write length is set. -/
  | setmwl (len : BitVec 16)
  /-- SET_ENDPOINT_ID (R644). The bus owner assigns the MCTP endpoint ID. -/
  | setEndpointId (eid : BitVec 8)
  /-- GET_ENDPOINT_ID (R644). The endpoint ID is returned. -/
  | getEndpointId
  /-- GET_ENDPOINT_UUID (R644). The endpoint UUID is returned. -/
  | getEndpointUuid
  /-- GET_MCTP_VERSION_SUPPORT (R644). The supported MCTP versions are returned. -/
  | getMctpVersionSupport
  /-- GET_MESSAGE_TYPE_SUPPORT (R644). The supported message types are returned. -/
  | getMessageTypeSupport
  /-- GET_TID (R645). The PLDM terminus ID is returned. -/
  | getTid
  /-- SET_TID (R645). The PLDM terminus ID is set. -/
  | setTid (tid : BitVec 8)
  /-- GET_PLDM_VERSION (R645). The PLDM versions are returned. -/
  | getPldmVersion
  /-- GET_PLDM_TYPES (R645). The supported PLDM types are returned. -/
  | getPldmTypes
  /-- GET_PLDM_COMMANDS (R645). The supported PLDM commands are returned. -/
  | getPldmCommands (pldmType : BitVec 6)
  /-- GET_PDR_REPOSITORY_INFO (R645). PDR repository information is returned. -/
  | getPdrRepositoryInfo
  /-- GET_PDR (R646). A PDR record is returned. -/
  | getPdr (record : BitVec 32)
  /-- GET_SENSOR_READING (R646). A numeric sensor reading is returned, or unavailable when its domain is off. -/
  | getSensorReading (id : BitVec 16)
  /-- GET_STATE_SENSOR_READINGS (R646). State sensor readings are returned. -/
  | getStateSensorReadings (id : BitVec 16)
  /-- SET_STATE_EFFECTER_STATES (R646). The FABMGR vote on an optical port is cast or withdrawn. -/
  | setStateEffecterStates (id : BitVec 16) (state : BitVec 8)
  /-- GET_STATE_EFFECTER_STATES (R646). Effecter states are returned. -/
  | getStateEffecterStates (id : BitVec 16)
  /-- QUERY_DEVICE_IDENTIFIERS (R645). Device identifiers are returned. -/
  | queryDeviceIdentifiers
  /-- GET_FIRMWARE_PARAMETERS (R645). Firmware parameters are returned. -/
  | getFirmwareParameters
  /-- REQUEST_UPDATE (R647). A PLDM firmware update takes the store unless another path holds it. -/
  | requestUpdate
  /-- PASS_COMPONENT_TABLE (R645). The component table is accepted. -/
  | passComponentTable
  /-- UPDATE_COMPONENT (R647). The update of the image component starts. -/
  | updateComponent
  /-- REQUEST_FIRMWARE_DATA (R647). A 1,024-byte transfer of image data returns and is written to the store. -/
  | requestFirmwareData (data : List Byte)
  /-- TRANSFER_COMPLETE (R647). The transfer ends and the store is released. -/
  | transferComplete
  /-- VERIFY_COMPLETE (R647). The image is checked under R489. -/
  | verifyComplete
  /-- APPLY_COMPLETE (R645). The apply phase is reported complete. -/
  | applyComplete
  /-- ACTIVATE_FIRMWARE (R647). STORE becomes PENDING for activation at next reset; in Dawn hold Dawn restarts. -/
  | activateFirmware
  /-- GET_STATUS (R645). The update status is returned. -/
  | getStatus
  /-- CANCEL_UPDATE_COMPONENT (R645). The component update is cancelled. -/
  | cancelUpdateComponent
  /-- CANCEL_UPDATE (R647). The update is cancelled and the store released. -/
  | cancelUpdate
  /-- PLDM_REG_READ (R648). One 4-byte register is read over the side-band. -/
  | pldmRegRead (addr : Word32)
  /-- PLDM_REG_WRITE (R648). One register is written over the side-band where it holds the page. -/
  | pldmRegWrite (addr value : Word32)
  /-- PLDM_LOG_READ (R648). A log record is read from the island copy or the RAS log. -/
  | pldmLogRead (seq : Word32)
  /-- SCRUB_LAP_ALARM (R247). A scrub pass that has run longer than LAP_ALARM sets RAS.INT_CAUSE.SCRUB_SLOW once for
  that pass. -/
  | scrubLapAlarm (ch : ChanNo)
  /-- AER_ERROR (R189). A root port reports a correctable or uncorrectable AER error, which is counted in DTP and
  logged as DRIVE_EVENT event 7. -/
  | aerError (drive : DriveNo) (correctable : Bool)
  /-- COMPANION_LINK_DOWN (R633). Companion link training or retraining fails, the link becomes DOWN and every flit
  held for either direction is discarded. -/
  | companionLinkDown
  /-- DRIVE_BRING_UP_DONE (R190). Bring-up of NVMe drives under R190 ends, so THATCH_INIT sets BLOCKS and the thatch
  state or fails, and DRIVE_REBUILD proceeds to stripes or completes FENCED. -/
  | driveBringUpDone (drives : List DriveInfo)
  /-- CORE_REFILL_DONE (R303). The refill of a core's SRAM and accumulators under R246 ends, so CORE_ASSIGN cores join
  their partition or CORE_RELEASE completes. -/
  | coreRefillDone (core : Fin 576)
  /-- CORE_RELOAD_DONE (R556). A core reset after a heartbeat timeout or fetch trap finishes reloading its firmware
  and can take units again. -/
  | coreReloadDone (core : Fin 576)
  /-- OPT_RECAL_DONE (R596). Recalibration of an optical engine ends after about 600 ms and OPT_RECAL completes with
  CAL_DONE. -/
  | optRecalDone
  /-- SVN_COMMIT_DONE (R490). The fuses blown by SVN_COMMIT have reached FW_SVN after about 20 ms and the command
  completes with an SVN_COMMIT record. -/
  | svnCommitDone
  /-- DEBUG_PORT_ACCESS (R517). An access on the unlocked debug port sets the flag that attestation block 0x05 reports
  as the port used since unlock. -/
  | debugPortAccess
  /-- CIRCUIT_FRAME_RESEND (R474). After a CKT_ACK with POLICED, the source sends the circuit frame again once HINT
  has passed. -/
  | circuitFrameResend (label : BitVec 10) (ftag : BitVec 10)
deriving DecidableEq, Repr

end Sys2Proof
end

