-- ==== Sys2Proof/WellFormed.lean ====
section
/-! DEFINITION. Well-formed commands: the bounds that the manual puts on operands whose type does not hold them, lengths above all. exec is
total and gives an ill-formed command a meaning too; no statement needs the bound unless it says so. -/

namespace Sys2Proof

/-- A request names an offset that is a multiple of 4: the Request word holds no lower bits (R443). -/
def ReqHdr.wf (h : ReqHdr) : Bool := h.offset.toNat % 4 == 0

/-- A packet carries at most 4,096 bytes of payload (R441). -/
def Packet.wf (p : Packet) : Bool := decide (p.payload.length ≤ 4096)

/-- The packet that a flit completes is a packet (R634). -/
def Flit.wf (f : Flit) : Bool := f.coh.all fun x => x.2.wf

/-- A link frame has at most 244 payload bytes (R401). -/
def LinkFrame.wf (f : LinkFrame) : Bool := decide (f.payload.length ≤ 244)

/-- A batten circuit frame carries 64 to 8,192 bytes of whole lines (R447). -/
def CktFrame.wf (f : CktFrame) : Bool :=
  decide (64 ≤ f.payload.length ∧ f.payload.length ≤ 8192) && f.payload.length % 64 == 0

/-- A granule as the 16 drives of its stripe hold it: 4,096 data bytes and 32 metadata bytes on each (R185, R186). -/
def Granule.wf (g : Granule) : Bool :=
  (g.members.isEmpty || g.members.length == 16) &&
  g.members.all fun m => match m with | some b => b.length == 4128 | none => true

/-- A fragment carries 1 to 4,064 image bytes of an image of 1 to 3,871 fragments (R588). -/
def Fragment.wf (f : Fragment) : Bool :=
  decide (1 ≤ f.data.length ∧ f.data.length ≤ 4064) && decide (1 ≤ f.count.toNat ∧ f.count.toNat ≤ 3871)
    && decide (f.index.toNat < f.count.toNat)

/-- The operand of an update of an engine has the bytes of its operation: twice the width for CAS, AOP 2 (R123). -/
def EngKind.wf (k : EngKind) : Bool :=
  match k with
  | .update aop wide operand => operand.length == (if wide then 8 else 4) * (if aop = 2 then 2 else 1)
  | .read | .write _ _ | .merge _ _ => true

/-- A DRAM read names a line of a channel; on the mesh a line has eight words (R235, R241); a core has the words of its SRAM and accumulators (R237). -/
def ReadSite.wf (x : ReadSite) : Bool :=
  match x with
  | .dram _ addr _ _ => decide (addr < 2 ^ 38) && addr % 64 == 0
  | .readData _ flips | .writeData _ flips => decide (flips.length ≤ 8)
  | .core _ word _ => decide (word < 2 ^ 20)
  | .micro _ _ _ | .shared _ _ _ _ | .tags _ _ _ | .dir _ _ _ _ _ => true

/-- Data of an answer is a line, the old value of an atomic operation, or nothing (R444). -/
def DevAnswer.wf (a : DevAnswer) : Bool :=
  match a with
  | .home _ data _ _ _ | .forwarded data _ => decide (data.length ≤ 64)
  | .policed _ => true

/-- A well-formed command. -/
def Instr.wf (i : Instr) : Bool :=
  match i with
  | .ddrTraining results => decide (results.length ≤ 24)
  | .temperatureSample raw => raw.length == 44
  | .loadShared h _ => h.wf
  | .loadOwn h => h.wf
  | .store h _ => h.wf
  | .writeInval h _ _ => h.wf
  | .writePartial h _ _ => h.wf
  | .atomic h aop wide operand => h.wf && operand.length == (if wide then 8 else 4) * (if aop = 2 then 2 else 1)
  | .deviceTransactionAnswer _ _ _ ans => ans.wf
  | .engineAccess _ _ _ kind => kind.wf
  | .rebuildStripe old => decide (old.length ≤ 16) && old.all Granule.wf
  | .driveReadComplete _ granules => decide (granules.length ≤ 16) && granules.all Granule.wf
  | .writeback _ old => decide (old.length ≤ 16) && old.all Granule.wf
  | .mr4Poll _ hot => decide (hot.length ≤ 4)
  | .dramReadData site => site.wf
  | .doorbellWrite h _ => h.wf
  | .dataFrame _ frame => frame.wf
  | .status _ frame => frame.wf
  | .sreq _ frame => frame.wf
  | .linkReset _ frame => frame.wf
  | .ts _ frame => frame.wf
  | .linkDown _ frame => frame.wf
  | .testFrame _ frame => frame.wf
  | .mcast _ pkt => pkt.wf
  | .notice _ pkt => pkt.wf
  | .cktSetup _ pkt => pkt.wf
  | .cktConfirm _ pkt => pkt.wf
  | .cktReject _ pkt => pkt.wf
  | .cktTear _ pkt => pkt.wf
  | .battenCircuitFrame _ frame => frame.wf
  | .cktAck pkt => pkt.wf
  | .mailboxRequest h _ => h.wf
  | .mailboxResponse _ payload => decide (payload.length ≤ 4096)
  | .companionFlit flit => flit.wf
  | .fwFrag frag => frag.wf
  | .driveBringUpDone drives => decide (drives.length ≤ 16)
  | .perstNAssert | .perstNRelease .. | .auxRailGood .. | .auxRailLoss | .mainInputGood | .mainInputLoss
  | .converterFault | .referenceStable | .deviceResetCommand .. | .warmReset | .activationCountReached
  | .dawnSequenceStart | .romStep .. | .imageVerify | .powerStep .. | .arraysStep .. | .selftestWave .. | .fillStep
  | .repairRoundEnd .. | .handover | .handoverTimeout | .thermalTrip .. | .powerSample .. | .decisionPoint ..
  | .paceNoticeReceive .. | .pwrNop | .vote | .partPolicy .. | .thermPoint | .thermSave | .psensePoint
  | .psensePointDone .. | .psenseSave | .duskEntry .. | .midnightEntry .. | .entryStepDone .. | .duskSamplerWake ..
  | .clusterResume .. | .domainReturn .. | .domainUsable .. | .plannedShutdown .. | .shutdownDrainEnd ..
  | .syncSend | .syncReceive .. | .echoReceive .. | .freezeEnd | .holdoverEntry | .exchangeTimeout | .setHiWrite ..
  | .syncRoleWrite .. | .pairLowWordRead .. | .pairHighWordWrite .. | .registerWrite .. | .ownerWrite ..
  | .blkReset .. | .clrCnt .. | .errInj .. | .nodeIdWrite .. | .compNodeWrite .. | .portEnableWrite ..
  | .deliverWrite .. | .vectorUnmask .. | .companionRegRead .. | .companionRegWrite .. | .regReadTimeout | .cohNop
  | .extRead .. | .extAssign .. | .extInitDone .. | .extGrant .. | .extRestrict .. | .extRevoke .. | .changeEnd ..
  | .sweepPassStart .. | .sweepPassEnd .. | .extScrub .. | .scrubDone .. | .hsetRead .. | .hsetWrite ..
  | .regionCreate .. | .regionDestroy .. | .hostNop | .hostRead .. | .clearDead .. | .declareDead ..
  | .snoopResponse .. | .grantAcknowledgement .. | .answerPoint .. | .snoopDeadline .. | .storeWaitExpiry ..
  | .grantWaitExpiry .. | .reservationLapse .. | .probeInterval .. | .probeAnswer .. | .suspicionExpiry ..
  | .probe .. | .replyCacheExpiry .. | .dtoExpiry .. | .engineRetry .. | .pageTableWalk .. | .walkTableRead ..
  | .walkTimeout .. | .prefetchWalk .. | .faultHoldExpiry .. | .xltNop | .ctxRead .. | .ctxWrite .. | .invPage ..
  | .invRange .. | .invPart .. | .invalidationDrainEnd | .faultRead .. | .faultResume .. | .faultAbort ..
  | .tierNop | .areaSet | .thatchInit | .flush | .driveFail .. | .driveRebuild .. | .fillFrameReady ..
  | .evictionRecallDone .. | .writebackComplete .. | .cleanerStart | .ageStep | .driveCommandTimeout ..
  | .driveLinkDown .. | .driveFatalStatus .. | .ddrNop .. | .trainSave .. | .trainCheck .. | .trainCheckDone ..
  | .refreshDue .. | .dramReadIssue .. | .neighbourRefresh .. | .refreshWindowClear .. | .parityAlert ..
  | .parityReplay .. | .caRetrain .. | .periodicCalibration .. | .scrubRead .. | .rasNop .. | .rasLogRead ..
  | .markDevice .. | .retireRow .. | .retireBank .. | .clearLostSet .. | .opqNop | .qCreate .. | .qRead ..
  | .qDrain .. | .qEnable .. | .qReset .. | .qDestroy .. | .partSet .. | .partRead .. | .coreAssign ..
  | .coreRelease .. | .partReset .. | .contextReload .. | .descriptorFetch .. | .operationStart ..
  | .launchCountReached .. | .unitTake .. | .unitWritePhase .. | .unitDone .. | .timeBudgetExpiry ..
  | .completionRecordWrite .. | .headLinePoll .. | .resetRecordTimeout .. | .queueStall .. | .gatherReduce ..
  | .scatterUpdate .. | .attend .. | .scanScoreTopk .. | .hashProbe .. | .filter .. | .map .. | .copy .. | .move ..
  | .fill .. | .atomicBatch .. | .publish .. | .publishDrainEnd .. | .advise .. | .fence .. | .signal ..
  | .waitCount .. | .waitCountReached .. | .saveState .. | .restoreState .. | .microNop | .add .. | .sub ..
  | .mul .. | .fma .. | .min .. | .max .. | .abs .. | .neg .. | .cmp .. | .sel .. | .cvt .. | .floor .. | .bkt ..
  | .hash .. | .exp .. | .log1p .. | .rsqrt .. | .ldc .. | .mov .. | .ackTimerExpiry .. | .sreqRepeat ..
  | .coalesceTimer .. | .statusTimer .. | .leakReset .. | .lossOfLock .. | .quiesceEnd .. | .tuneEnd ..
  | .alignEnd .. | .negotiateEnd .. | .verifyEnd .. | .resumeEnd .. | .stepLimitExpiry .. | .darkCheck ..
  | .downRetry .. | .fabNop .. | .retrain .. | .testStart .. | .testStop .. | .clearHeld .. | .fabricPacket ..
  | .transitLifetimeExpiry .. | .branchPrune .. | .cktSetupTimeout .. | .circuitFrameTimeout .. | .rteNop | .rtRead
  | .rtWrite | .treeRead | .treeWrite | .cktOpen | .cktClose | .cktRead | .shpNop | .mtrRead .. | .mtrWrite ..
  | .secNop | .slotRead .. | .secLogRead | .quietSet .. | .fkeyFlush .. | .svnCommit | .spdmRequest ..
  | .keyExchange .. | .finish .. | .endSession .. | .measurements .. | .heartbeatMissed .. | .fkeyInstall ..
  | .fkeyDestroy .. | .xltCommand .. | .opqCommand .. | .extAccept .. | .quietSetMessage .. | .tenantLogRead ..
  | .debugChallenge .. | .debugUnlock .. | .ownerSet .. | .debugDisable .. | .quietIssueSlot .. | .quietRelease ..
  | .glbNop | .partCreate .. | .partDestroy .. | .partQuery .. | .calNop | .optRecal .. | .optSave | .ctlNop
  | .switchover | .standbyResync | .controlInput .. | .controlMessage .. | .ridgeStatusSend .. | .ridgeStatus ..
  | .ridgeFaultTakeover | .peerLost .. | .ridgeClaim .. | .claimWaitExpiry .. | .lockstepMismatch ..
  | .controlMemoryError .. | .watchdogWarning .. | .controlWatchdogExpiry .. | .resyncDone .. | .heartbeat ..
  | .heartbeatTimeout .. | .fetchTrap .. | .interruptArrival .. | .endOfInterrupt .. | .vectorArrival ..
  | .sidebandWatchdogExpiry .. | .companionRetrain .. | .companionLinkActive | .companionTrainRetry
  | .heldSnoopRelease | .mctpMessage .. | .cmpNop | .imgBegin | .imgEraseDone | .imgWrite | .imgEnd
  | .imgDistribute | .fragmentTimeout | .fragmentFetch .. | .entdaa .. | .setdasa .. | .rstdaa | .enec ..
  | .disec .. | .getpid | .getbcr | .getdcr | .getstatus | .getmrl | .getmwl | .setmrl .. | .setmwl ..
  | .setEndpointId .. | .getEndpointId | .getEndpointUuid | .getMctpVersionSupport | .getMessageTypeSupport
  | .getTid | .setTid .. | .getPldmVersion | .getPldmTypes | .getPldmCommands .. | .getPdrRepositoryInfo
  | .getPdr .. | .getSensorReading .. | .getStateSensorReadings .. | .setStateEffecterStates ..
  | .getStateEffecterStates .. | .queryDeviceIdentifiers | .getFirmwareParameters | .requestUpdate
  | .passComponentTable | .updateComponent | .requestFirmwareData .. | .transferComplete | .verifyComplete
  | .applyComplete | .activateFirmware | .getStatus | .cancelUpdateComponent | .cancelUpdate | .pldmRegRead ..
  | .pldmRegWrite .. | .pldmLogRead .. | .scrubLapAlarm .. | .aerError .. | .companionLinkDown | .coreRefillDone ..
  | .coreReloadDone .. | .optRecalDone | .svnCommitDone | .debugPortAccess | .circuitFrameResend .. => true

end Sys2Proof
end

