-- ==== Sys2Proof/Decode.lean ====
section
/-! DEFINITION. The command that a word spells by the bits of the table of operations and events. No row of the table gives bits: every row
names its operands by the rule it cites, so a word spells no command. -/

namespace Sys2Proof

/-- The command that the word `w` of `nbits` bits spells. The table gives no row any bits, so there is none. -/
def decodeTableWord (_nbits _w : Nat) : Option Instr := none

end Sys2Proof
end

