-- ==== Sys2Proof/Config.lean ====
section
/-! DEFINITION. What the manual leaves open or gives to another standard, as constants without a body: nothing in Lean can
evaluate one, so a claim about the model holds whatever their values are. The assumption log names each. -/

namespace Sys2Proof.Config

/-- The set of a line in its directory slice: a hash that the manual does not give (R125). -/
opaque dirSet : LineNo → BitVec 17
/-- A 64-bit value that the device draws: probe nonces (R458). -/
opaque drawNonce : Nat → Word64
/-- A 128-bit value that the device draws: a partition's hash key (R364), a debug nonce (R498). -/
opaque drawKey : Nat → BitVec 128
/-- A port's EPOCH, drawn when a link state is made anew (R430). -/
opaque drawEpoch : Nat → BitVec 32
/-- A PRBS seed drawn by the leader of a NEGOTIATE (R427). -/
opaque drawSeed : Nat → BitVec 32
/-- The round trip that a port measures in NEGOTIATE, in ns (R414, R426). -/
opaque roundTrip : Nat → Nat
/-- The module serial number (R672). -/
opaque serial : Word64
/-- The silicon stepping (R672). -/
opaque stepping : BitVec 8
/-- The entry that the fuses give for a half's core rail at a performance level (R611). -/
opaque voltageFuse : Nat → Bool → Fin 71
/-- The fused voltage of a performance level and half, in mV: 600 to 950 in steps of 5 (R611). R611 has it never rise from a slower level to a faster
one, R613 has it rise; the model orders no two levels (log 77). -/
def voltage (level : Nat) (east : Bool) : Nat := 600 + 5 * voltageFuse level east
/-- The fixed internal latency of a port in ns, from the optical section of the calibration store (R375, R592). -/
opaque portLatency : Nat → Nat
/-- The bad cores and array repairs of the fuses (R576, R578). -/
opaque fuseBadCore : Fin 576 → Bool

/-- The standard's lowest management thresholds (R219). -/
opaque rfmLowest : Nat × Nat
/-- By how much an RFM or a refresh lowers a bank's accumulated count (R219). -/
opaque rfmStep : Bool → Nat
/-- The line key at which the 512 bytes of a set's tags begin in the tag region (R163, R164). -/
opaque tagPlace : Nat → Nat
/-- Which set leaves a full tag cache (R164): a draw. -/
opaque tagVictim : Nat → Nat
/-- The frame pair, as phase and even frame number, whose tags a line of the tag region holds (R163). -/
opaque tagPair : Nat → Nat × Nat
/-- The first of the 16 thatch blocks whose entries a line of the thatch map holds (R157, R257). -/
opaque mapLine : Nat → Nat

/-- The set of the shared translation cache for a partition and a virtual address (R97). -/
opaque xltSet : PartId → Nat → BitVec 10
/-- Which entry a full translation cache replaces (R97): a draw. -/
opaque xltVictim : Nat → Nat

/-- Where CKT_READ places what it names in its 16-byte image (R477). -/
opaque cktImage : List Nat → BitVec 128

/-- What CMP answers for a NaN operand (R328, R360), by its condition and operands. -/
opaque cmpNan : Nat → Word32 → Word32 → Bool

/-- AES-256-GCM open (R503): key, nonce, additional data, ciphertext and tag; none when the tag does not verify. -/
opaque gcmOpen : BitVec 256 → BitVec 96 → List Byte → List Byte → Option (List Byte)
/-- AES-256-GCM seal (R503): key, nonce, additional data and plaintext; ciphertext and tag. -/
opaque gcmSeal : BitVec 256 → BitVec 96 → List Byte → List Byte → List Byte
/-- AES-XTS-256 on a line and on a granule (R32, R186, R508): the key and the tweak give a permutation. -/
opaque xtsLine : BitVec 512 → BitVec 128 → Equiv.Perm Line
@[inherit_doc xtsLine] opaque xtsGranule : BitVec 512 → BitVec 128 → Equiv.Perm (BitVec 32768)
/-- AES-256-GMAC (R186, R508): key, nonce and text. -/
opaque gmac : BitVec 256 → BitVec 96 → List Byte → BitVec 128
/-- A slot secret that the random generator draws (R507). -/
opaque slotSecret : Nat → BitVec 256
/-- SHA-512 (R485). -/
opaque sha512 : List Byte → Digest
/-- The digest of the identity certificate chain in the fuses (R486). -/
opaque chainDigest : Digest
/-- The answer of the SPDM responder to a request of the supported subset (R492), by its code and body; SPDM's own standard gives it. -/
opaque spdmAnswer : BitVec 8 → List Byte → List Byte
/-- UDS of the fuse array (R486). -/
opaque uds : BitVec 512
/-- The nonce that signs an attestation report (R487, R517), by the draw. -/
opaque signNonce : Nat → Nat
/-- What the firmware image in the store holds (R489): FW_SVN; the digests that its manifest claims and those of its code, for the control and
the core firmware; whether Volirazen's signature verifies; the hash of the owner's key, and whether the owner's signature verifies. -/
structure Manifest where
  svn         : Nat
  control     : Digest
  core        : Digest
  controlCode : Digest
  coreCode    : Digest
  signed      : Bool
  ownerKey    : Digest
  ownerSigned : Bool
deriving DecidableEq, Repr

/-- The manifest of an image (R489), whose layout the manual does not give: whether the region has been erased since the factory, and the bytes
written since; none where there is no manifest. -/
opaque manifest : Bool → List (Nat × Byte) → Option Manifest
/-- The factory's sensor offsets in 0.01 °C (R592). -/
opaque factoryThermal : List Int
/-- Verification of an ECDSA P-521 signature (R489, R491): key hash, message digest, signature. -/
opaque p521Verify : Digest → List Byte → BitVec 1056 → Bool

/-- The priority of an interrupt source (R546), where R548 does not make it 0; the map of sources is fixed by firmware and not visible. -/
opaque irqPriority : Nat → Nat
/-- The control core that an interrupt source targets (R546). -/
opaque irqTarget : Nat → Nat
/-- The IRQ_ORDER source of each control core (R549). -/
opaque irqOrder : Nat → Nat
/-- The source of the watchdog warning, of a ridge line change and of an uncorrectable word in control memory (R548). -/
opaque irqNamed : Nat → Nat
/-- What an IRQ_ORDER record shows as the top of a stack that is empty (R549). -/
opaque irqNoTop : BitVec 16

/-- Volirazen's MIPI manufacturer ID (R642). -/
opaque mipiId : BitVec 15
/-- The BCR and the DCR that the MCTP binding over I3C requires (R642). -/
opaque i3cBcr : Byte
@[inherit_doc i3cBcr] opaque i3cDcr : Byte
/-- The target status that GETSTATUS returns (R642). -/
opaque i3cStatus : Nat → BitVec 16
/-- The MCTP endpoint UUID, and the versions that the endpoint supports (R644). -/
opaque mctpUuid : BitVec 128
@[inherit_doc mctpUuid] opaque mctpVersions : List Byte
/-- The versions of PLDM, the record of a PDR, the device identifiers (R645, R646). -/
opaque pldmVersion : List Byte
@[inherit_doc pldmVersion] opaque pdr : Nat → List Byte
@[inherit_doc pldmVersion] opaque pldmIdentifiers : List Byte
/-- The firmware parameters by the security versions of the running and the stored image (R645). -/
opaque firmwareParameters : Nat → Nat → List Byte
/-- The voltage of the 40 V input in units of 10 mV (R646): a measurement. -/
opaque inputVoltage : Nat → Nat

end Sys2Proof.Config
end

