-- ==== Sys2Proof/Machine/StateBase.lean ====
section
/-! DEFINITION. The parts of the state that every block shares: memory, registers, outputs, the interrupt controller and the
error log; then the records of the address space, the home agents and the memory tiers. -/

namespace Sys2Proof.Machine

/-- One value for each half (R26). -/
structure Halves (α : Type) where
  west : α
  east : α
deriving DecidableEq, Repr

/-- Pool memory in DRAM. A byte's key is channel × 2^38 + channel-local address (R48, R205); an unlisted byte reads 0, as the
mandatory fill leaves it (R246). A line's key is its byte key divided by 64; `poison` lists the lines that hold the
poison pattern (R249), rising; `unc` lists those whose uncorrectable error no reader has been told of yet (R250), rising. By pool line: `rdBad`
lists those whose next read data arrives uncorrectable and `wrBad` those whose next write data does (R250), and `owed` those whose poison write
waits for the transaction on the line to end (R251), each rising. -/
structure Mem where
  cells  : List Host.Cell
  poison : List Nat
  unc    : List Nat
  rdBad  : List Nat
  wrBad  : List Nat
  owed   : List Nat
deriving DecidableEq, Repr

/-- The register file (R662 to R680). `words` holds the stored word of a register by window address; an unlisted register
holds its reset value. `ctrs` holds the 64-bit counters by the address of their low word (R662). `latch` and `held` are the
high-word latch and the held low word of each access path (R13, R667). -/
structure Regs where
  words : Tbl Word32
  ctrs  : Tbl Word64
  latch : Tbl Word32
  held  : Tbl Word32
deriving DecidableEq, Repr

/-- A command that the NVMe host gives to a drive (R190): of the admin queue, or on one of the I/O queue pairs the Read and Write of 16 LBAs, with
each LBA's 4,096 data bytes and the first 32 bytes of its metadata. -/
inductive Nvme where
  | identify (cns : BitVec 8)
  | setQueues (pairs : Nat)
  | createCq (queue entries : Nat)
  | createSq (queue entries : Nat)
  | abort (lba : Nat) (write : Bool)
  | read (lba : Nat)
  | write (lba : Nat) (data : List (List Byte))
deriving DecidableEq, Repr

/-- What the block sends to the world outside it. -/
inductive Out where
  /-- A packet on the companion link (R637). -/
  | companion (vc : BitVec 3) (p : Packet)
  /-- A frame on a fabric port (R400). -/
  | frame (port : PortNo) (f : LinkFrame)
  /-- A batten circuit frame given to a port (R447). -/
  | circuit (port : PortNo) (f : CktFrame)
  /-- A message interrupt (R551). -/
  | msi (addr : Word64) (data : Word32)
  /-- The completion of a register read or write on a path (R637, R639, R648). -/
  | reg (path : Path) (status : Status) (value : Word32)
  /-- A management answer on the side-band port or the MSG channel (R641 to R649). -/
  | answer (code : BitVec 8) (body : List Byte)
  /-- A control output of the active complex (R539). -/
  | control (egress : Nat) (csn : Word32)
  /-- A command given to an NVMe drive (R190). -/
  | drive (port : Nat) (cmd : Nvme)
deriving DecidableEq, Repr

/-- A vector of the vector table (R551). -/
structure MsgVector where
  addr : Word64
  data : Word32
  mask : Bool
  pend : Bool
  cnt  : BitVec 16
deriving DecidableEq, Repr

/-- A source of the interrupt controller (R546): its pending bit and count. Priority and target are fixed by firmware (Config). -/
structure IrqSource where
  pend : Bool
  cnt  : BitVec 16
deriving DecidableEq, Repr

/-- The priority stack of a control core (R547), its top first, and the reserved ninth position (R548). -/
structure IrqStack where
  entries : List Nat
  ninth   : Option Nat
deriving DecidableEq, Repr

/-- The interrupt controller: sources and stacks of each half, the vector table and the block routes (R546 to R553). -/
structure Irq where
  sources : Halves (Tbl IrqSource)
  prio    : Halves (Tbl IrqStack)
  vectors : Tbl MsgVector
  routes  : Tbl Word32
deriving DecidableEq, Repr

/-- A record of the error log with its sequence number, whether LOG_READ has read it (R259, R260, R266), and whether its virtual address is
shown to nobody but the tenant (R499). -/
structure LogRec where
  seq  : Word32
  img  : Line
  read : Bool
  hide : Bool
deriving DecidableEq, Repr

/-- One half's error log, lost-set table and disabled ways (R254, R256, R259), the places in device arrays that an error was corrected in, with the
time (R254), the lines that are reread for a correction write (R251), and the retirement whose evictions run: channel, row or bank number, and
whether it is a bank (R258). The newest record stands first. -/
structure RasHalf where
  log     : List LogRec
  nextSeq : Word32
  lost    : List Nat
  lostAll : Bool
  waysOff : List (Nat × Nat)
  fixed   : List (Nat × Nat)
  rereads : List Nat
  retire  : Option (Nat × Nat × Bool)
deriving DecidableEq, Repr

/-- The state of an extent (R54). -/
inductive ExtState where
  | free | init | active | revoking | revoked | scrubbing
deriving DecidableEq, Repr

/-- An entry of the extent table (R51), with the acceptance of a confidential partition's extent (R500). `secret` is the draw of the slot secret
under which INIT filled it (R71, R507): what DRAM holds of its lines is given as the plain text under that secret. -/
structure Ext where
  base    : BitVec 27
  len     : BitVec 27
  place   : BitVec 2
  tier    : BitVec 2
  state   : ExtState
  part    : PartId
  keySlot : BitVec 12
  hset    : BitVec 12
  gen     : BitVec 16
  perm    : BitVec 8
  backing : BitVec 40
  accepted : Bool
  secret  : Nat
deriving DecidableEq, Repr

/-- A PUBLISH in progress or waiting in a region (R81); `revoked` says that its snapshot extent has been revoked since step 5 (R83). -/
structure Publish where
  op      : Nat
  version : Word32
  base    : Offset
  ext     : Option ExtIdx
  change  : Nat
  revoked : Bool
deriving DecidableEq, Repr

/-- A publication region (R79). -/
structure Region where
  owner   : PartId
  line    : LineNo
  version : Word32
  running : Option Publish
  waiting : List Publish
deriving DecidableEq, Repr

/-- Why a change runs its drain (R72 to R74, R81). -/
inductive ChangeWhy where
  | restrict
  | revoke
  | hset
  | publish (region : BitVec 12)
deriving DecidableEq, Repr

/-- A restriction or revocation that runs (R72): the extents with the generation they had before the change point, the slots
of the old host set (R128), the half-sweeps that have ended and those that a running pass serves (R75), whether the
command register waits for it, and the lines with a coarse entry that its sweep has visited, which keep their entry (R127). -/
structure Change where
  id       : Nat
  why      : ChangeWhy
  exts     : List (ExtIdx × BitVec 16)
  oldSlots : List Word64
  swept    : Halves Bool
  serving  : Halves Bool
  command  : Bool
  visited  : List Nat
deriving DecidableEq, Repr

/-- An entry of the directory (R126): stable part. -/
structure DirEnt where
  modified : Bool
  coarse   : Bool
  sharers  : List NodeId
  groups   : Word64
  alloc    : Nat
deriving DecidableEq, Repr

/-- What a request asks of the home (R120). -/
inductive ReqKind where
  | loadShared (nc : Bool)
  | loadOwn
  | store (data : Line)
  | writeInval (data : Line) (poison : Bool)
  | writePartial (data : Line) (mask : Word64)
  | atomic (aop : BitVec 4) (wide : Bool) (operand : List Byte)
deriving DecidableEq, Repr

/-- Which of this device's engines made a request to a home of this node (R29, R60): an engine access, a page-table walk, or the front end
for a queue: its descriptor lines, records, head line and context, numbered 0 to 4. -/
inductive EngBy where
  | acc (id : Nat)
  | walk (id : Nat)
  | front (queue : Nat) (use : Nat)
deriving DecidableEq, Repr

/-- A request held by the home tracker: its extent, the generation at admission (R61) and its arrival time (R141); `eng` is none for a host's
request. -/
structure HomeReq where
  hdr     : ReqHdr
  eng     : Option EngBy
  kind    : ReqKind
  ext     : ExtIdx
  gen     : BitVec 16
  arrived : Nat
deriving DecidableEq, Repr

/-- What a snoop asks of a holder (R120, R121). -/
inductive SnoopAsk where
  | inv
  | toShared
  | toInvalid
deriving DecidableEq, Repr

/-- A snoop of the snoop tracker: the holder, the tag, the attempt that runs (0 while the snoop waits under R703), the time of
the first attempt and of the last, the answer, and a wait for the holder's STORE (R135). `held` marks an attempt that the
companion link holds back (R636). -/
structure Snoop where
  node     : NodeId
  tag      : Tag
  retry    : BitVec 4
  reqNode  : NodeId
  ask      : SnoopAsk
  attempt  : Nat
  firstAt  : Nat
  sentAt   : Nat
  held     : Bool
  answered : Bool
  storeWait : Bool
deriving DecidableEq, Repr

/-- A grant wait (R137); `since` is none while it waits for another item of the node and tag to end (R703). -/
structure Grant where
  node  : NodeId
  tag   : Tag
  since : Option Nat
deriving DecidableEq, Repr

/-- What a line's transaction serves (R130, R148, R174, R175, R72, R608). -/
inductive TxWhy where
  | demand
  | sweep (change : Nat) (revoke : Bool)
  | backInval
  | evict (block : Nat)
  | writeback (block : Nat)
  | drop (block : Nat)
  | recall
deriving DecidableEq, Repr

/-- A line in transition (R126 TRANS and PEND, R133, R141). `req` is the request that waits; none once it was refused at its
answer point. `data` is the Modified data that came back, by a STORE when `stored`; `owed` says that DRAM does not hold it yet. `keep` are
the groups of a coarse entry in which a holder that no snoop went to may remain (R127, R132). -/
structure LineTx where
  why    : TxWhy
  req    : Option HomeReq
  snoops : List Snoop
  data   : Option Line
  stored : Bool
  owed   : Bool
  badData : Bool
  keep   : Word64
  grant  : Option Grant
deriving DecidableEq, Repr

/-- A reservation (R145 to R147); reservations stand in the order of their grants. -/
structure Resv where
  node  : NodeId
  tag   : Tag
  line  : LineNo
  half  : Half
  since : Nat
deriving DecidableEq, Repr

/-- The state of a host (R150 to R153). -/
inductive HostState where
  | normal | suspect | dead
deriving DecidableEq, Repr

/-- The home agents' record of a host: state, time of suspicion, the nonces of the probes sent, the time of the last probe,
and, after death, the half-sweeps that have ended (R155). -/
structure HostRec where
  state  : HostState
  since  : Nat
  nonces : List Word64
  probed : Nat
  swept  : Halves Bool
  serving : Halves Bool
deriving DecidableEq, Repr

/-- A snoop of a line that has failed, kept so that an answer that comes later is logged (R76, R150); `due` is the third deadline of one
whose attempts were still running when another holder's failed. -/
structure LateSnoop where
  node : NodeId
  tag  : Tag
  line : LineNo
  due  : Option Nat
deriving DecidableEq, Repr

/-- An entry of the reply cache (R455). -/
structure Reply where
  half   : Half
  src    : NodeId
  tag    : Tag
  offset : Offset
  answer : List Byte
  time   : Nat
deriving DecidableEq, Repr

/-- Line writes that the home makes for a circuit frame or for tree data (R465, R469): the source, its partition and key entry, the
lines that are left, the first status other than OK, and, for a circuit frame, its FTAG and source circuit number. -/
structure Posted where
  src    : NodeId
  part   : Option PartId
  fkey   : Option (BitVec 13)
  left   : List (LineNo × Option Line)
  status : Status
  ack    : Option (BitVec 10 × BitVec 10)
deriving DecidableEq, Repr

/-- The coherence block: extents, host sets, regions, changes, directory, line transactions, reservations and hosts. `engDone` holds what the
home has answered to walks and to the front end and they have not taken yet. -/
structure Coh where
  exts     : Tbl Ext
  hsets    : Tbl Word64
  regions  : Tbl Region
  changes  : List Change
  nextChange : Nat
  sweeping : Halves (Option Nat)
  dir      : Tbl DirEnt
  nextAlloc : Nat
  tx       : Tbl LineTx
  resv     : List Resv
  hosts    : Tbl HostRec
  late     : List LateSnoop
  replies  : List Reply
  regionWait : Option Nat
  pubEnds  : List (Nat × Status)
  engDone  : List (EngBy × Offset × Status × List Byte)
  posted   : List Posted
deriving DecidableEq, Repr

/-- The state of a frame (R163). -/
inductive FrameState where
  | idle | filling | evicting | writeback
deriving DecidableEq, Repr

/-- The tag of a block-cache frame (R163). -/
structure Frame where
  block : Nat
  ext   : ExtIdx
  valid : Bool
  state : FrameState
  dirty : BitVec 16
  pin   : Bool
  cold  : Bool
  age   : BitVec 4
deriving DecidableEq, Repr

/-- A fill that runs or waits for a frame (R170): the frame once it has one. -/
structure BlockFill where
  block : Nat
  ext   : ExtIdx
  frame : Option Nat
deriving DecidableEq, Repr

/-- A writeback (R175): its number, which gives the arrival order on a stripe (R176); the granules that the snapshot covers, none until the recall
has ended; the granules written again since; whether it is part of an eviction; the staging buffer, which holds the block's 16 sealed granules; and
whether its writes are out. `lead` is the writeback with which this block is written as part of a whole stripe. -/
structure BlockWb where
  id     : Nat
  block  : Nat
  frame  : Nat
  evict  : Bool
  lead   : Option Nat
  snap   : Option (BitVec 16)
  again  : BitVec 16
  staged : List (List Byte)
  sent   : Bool
deriving DecidableEq, Repr

/-- The state of the thatch (R193). -/
inductive ThatchState where
  | uninit | healthy | degraded | failed
deriving DecidableEq, Repr

/-- What a drive's command serves: a fill, a writeback, or a rebuild step (R170, R175, R195). -/
inductive DriveUse where
  | fill (block : Nat)
  | writeback (id : Nat)
  | rebuild
deriving DecidableEq, Repr

/-- A command on the I/O queue pairs of a drive (R190): what it serves, the command, and when it was issued; none while every place of the
queues is taken. -/
structure DriveIo where
  use    : DriveUse
  cmd    : Nvme
  issued : Option Nat
deriving DecidableEq, Repr

/-- A drive and its root port (R189, R190, R678): identity, link state, whether the port's reset output is released (R586), the commands that are
not completed, and the times of the drive's last command timeouts (R192). -/
structure Drive where
  present   : Bool
  supported : Bool
  lbas      : Word64
  serial    : List Byte
  link      : BitVec 3
  width     : BitVec 3
  rate      : BitVec 3
  released : Bool
  io        : List DriveIo
  timeouts  : List Nat
deriving DecidableEq, Repr

/-- A rebuild (R195): the port, the first stripe that no step has taken, the step that runs: its stripe, its place in the arrival order of R176 and
whether its reads are out; and the time of the last rebuild write. -/
structure Rebuild where
  port   : Nat
  next   : Nat
  step   : Option (Nat × Nat × Bool)
  lastAt : Option Nat
deriving DecidableEq, Repr

/-- A block that FLUSH waits for (R198): the granules that were dirty at acceptance and are not written back, and, when a writeback of the block
had taken its snapshot by then, its number with the granules that were dirty again. -/
structure FlushEnt where
  block : Nat
  left  : BitVec 16
  early : Option (Nat × BitVec 16)
deriving DecidableEq, Repr

/-- The dense tier and the block cache (R157 to R199). `tags` lists the sets, as keys of their first frame over 16, whose tags a half's tag cache holds
(R164); `flush` what FLUSH waits for; `refills` the frames whose block is refilled in place once its lines are recalled (R172); `initCap` and `rebuildAsk` the bring-up that THATCH_INIT or DRIVE_REBUILD waits for; `nsid` the namespace
of THATCH_INIT (R190). -/
structure Tier where
  rows     : Nat
  pinRows  : Nat
  blocks   : Nat
  frames   : Tbl Frame
  map      : Tbl Word32
  fills    : List BlockFill
  wbs      : List BlockWb
  nextWb   : Nat
  tags     : Halves (List Nat)
  cleaning : Bool
  ageAt    : Nat
  state    : ThatchState
  failed   : BitVec 16
  rebuild  : Option Rebuild
  drives   : Tbl Drive
  flush    : List FlushEnt
  refills  : List Nat
  initCap  : Option Nat
  rebuildAsk : Option Nat
  nsid     : Word32
deriving DecidableEq, Repr

end Sys2Proof.Machine
end

