-- ==== Sys2Proof/Machine/StateFab.lean ====
section
/-! DEFINITION. The records of the fabric: ports and links, the router, circuits, trees and meters, device-issued transactions;
and of security: partitions, fabric keys, sessions and mailboxes. -/

namespace Sys2Proof.Machine

/-- The state of a port (R423). -/
inductive LinkState where
  | off | dark | quiesce | tune | align | negotiate | verify | resume | active | test | down | held
deriving DecidableEq, Repr

/-- A packet or circuit frame that waits to be sent on a port, with its virtual channel (R403, R418); `fast` marks a circuit frame within
its reserved rate (R463); `transit` gives a transit packet's number and the time of its acceptance (R452); `sent` is the number of its
frames that have gone (R407, R419). -/
structure TxItem where
  vc    : BitVec 3
  bytes : List Byte
  fast  : Bool
  transit : Option (Nat × Nat)
  sent  : Nat
deriving DecidableEq, Repr

/-- A received packet that the router has still to handle: its virtual channel, the receive slots it occupies, and the time of its
acceptance. -/
structure RxItem where
  vc    : BitVec 3
  bytes : List Byte
  slots : Nat
  time  : Nat
deriving DecidableEq, Repr

/-- A frame in the replay buffer with the time it was last sent (R407, R415, R416). -/
structure Sent where
  frame : LinkFrame
  time  : Nat
deriving DecidableEq, Repr

/-- A missing sequence number that SREQ has asked for, how often it was named and the last time (R414). -/
structure Gap where
  seq   : BitVec 16
  times : Nat
  last  : Nat
deriving DecidableEq, Repr

/-- One virtual channel of a port (R406, R417, R419 to R422, R431): credits held for sending, the total of returns received, the
total returned by this end (CRET_TOTAL), slots freed and not yet returned, slots occupied, leaked credits, the far end's INIT, the
FREE value fixed for NEGOTIATE, the bytes and frames of the packet that is open, the time at which the last credit went (R470), and the
INIT in force since the last link reset began (R437). -/
structure VcState where
  credits  : Nat
  cretSeen : BitVec 16
  cretOwn  : BitVec 16
  unreported : Nat
  slots    : Nat
  leaked   : Nat
  initFar  : Nat
  free     : Nat
  openPkt  : Option (List Byte × Nat)
  dryAt    : Nat
  init     : Nat
deriving DecidableEq, Repr

/-- The last training set taken from the peer and how many times it came unchanged (R426, R428). -/
structure PeerTs where
  bytes : List Byte
  times : Nat
deriving DecidableEq, Repr

/-- A trigger that waits for the end of an attempt (R433): its cause and what it asks for. -/
structure Trigger where
  cause : BitVec 4
  width : Option (BitVec 2)
  half  : Bool
deriving DecidableEq, Repr

/-- A fabric port and its link (R396 to R440). `cause`, `attempts`, `width` and `half` are PORT_STS fields; `goodRx` and `goodTx`
the good masks of the receive and transmit fibre, `badRx` the wavelengths that failed VERIFY; `askWidth` and `askHalf` what commands
and LINK_RESETs joined; `peerReset` says that the peer's LINK_RESET came in this attempt; `mark` is the first sequence number sent
after the reset; `epochSeen` says that this NEGOTIATE has discarded the sequence state; `verdict` is this end's VERIFY verdict; `drainAt`
is the start of a drain for a shutdown, or for TEST when `toTest`; `leakAt` the time a window fell; `rr`, `wrr`, `wrrLeft` and
`tier2` are the positions of the transmit scheduler; `retVc` is the channel whose credits were returned last (R420); `maxWidth` and
`halfCfg` are MAX_WIDTH and HALF as in force since the last link reset began (R437). -/
structure Port where
  state     : LinkState
  stepAt    : Nat
  cause     : BitVec 4
  attempts  : BitVec 4
  width     : BitVec 2
  half      : Bool
  leader    : Bool
  goodRx    : BitVec 8
  goodTx    : BitVec 8
  badRx     : BitVec 8
  used      : BitVec 8
  askWidth  : Option (BitVec 2)
  askHalf   : Bool
  trigger   : Option Trigger
  peerReset : Bool
  nextSeq   : BitVec 16
  expected  : BitVec 16
  replay    : List Sent
  reorder   : List LinkFrame
  gaps      : List Gap
  replays   : Nat
  replayE   : Option (BitVec 16)
  sinceAck  : Nat
  ackSince  : Option Nat
  ackDue    : Bool
  statusAt  : Nat
  dataAt    : Nat
  mark      : BitVec 16
  statusSeen : Bool
  vcs       : Tbl VcState
  txq       : List TxItem
  rxq       : List RxItem
  epoch     : BitVec 32
  epochSeen : Bool
  peerEpoch : Option (BitVec 32)
  peerNode  : NodeId
  peerPort  : BitVec 5
  peerKnown : Bool
  peerTs    : Option PeerTs
  verdict   : BitVec 2
  seed      : BitVec 32
  rtt       : Nat
  drainAt   : Option Nat
  toTest    : Bool
  peerDown  : Bool
  leakAt    : Option Nat
  leakVc    : Nat
  cmdWaits  : Bool
  rr        : Nat
  wrr       : Nat
  wrrLeft   : Nat
  tier2     : Nat
  retVc     : Nat
  maxWidth  : BitVec 2
  halfCfg   : Bool
  testBad   : Bool
deriving DecidableEq, Repr

/-- The state of a circuit entry (R460). -/
inductive CktState where
  | free | setup | opened
deriving DecidableEq, Repr

/-- The role of a circuit entry (R460). -/
inductive CktRole where
  | source | transit | dest
deriving DecidableEq, Repr

/-- A frame that the source of a circuit has sent and that has no CKT_ACK yet (R464, R467): FTAG, the engine access, the first line,
the data, the poison form, and the deadline or the time at which it is to be sent again after POLICED. -/
structure CktSent where
  ftag   : BitVec 10
  acc    : Nat
  line   : LineNo
  data   : List Byte
  poison : Bool
  due    : Nat
  again  : Option Nat
deriving DecidableEq, Repr

/-- A circuit entry (R460). `rateAt` is the time until which frames already sent use up the reserved rate (R463). -/
structure Circuit where
  state   : CktState
  role    : CktRole
  inPort  : Option PortNo
  prevLabel : BitVec 10
  outPort : Option PortNo
  outLabel : BitVec 10
  srcNode : NodeId
  dstNode : NodeId
  srcCkt  : BitVec 10
  part    : PartId
  rate    : BitVec 10
  bufs    : BitVec 7
  setupAt : Nat
  command : Bool
  closing : Bool
  nextFtag : BitVec 10
  sent    : List CktSent
  waiting : List CktSent
  rateAt  : Nat
deriving DecidableEq, Repr

/-- A tree entry (R468), the copies dropped in all and since the last report, the time of that report, and the counter that a root keeps
of what it was told (R470, R471). -/
structure Tree where
  root    : NodeId
  up      : BitVec 5
  local_  : Bool
  valid   : Bool
  part    : PartId
  down    : BitVec 24
  dropped : Nat
  report  : Nat
  noticeAt : Option Nat
  counter : Nat
deriving DecidableEq, Repr

/-- A meter (R473, R480). Tokens are in units of 2^-16 byte; the carried parts are the numerators over 1000 of a unit. -/
structure Meter where
  cir : BitVec 24
  pir : BitVec 24
  overhead : BitVec 8
  en  : Bool
  cbs : Word32
  pbs : Word32
  tc  : Nat
  tp  : Nat
  tcPart : Nat
  tpPart : Nat
  time : Word64
  red : Word64
deriving DecidableEq, Repr

/-- What a device-issued transaction carries (R118, R454). -/
inductive DevKind where
  | read
  | write (data : Line) (poison : Bool)
  | merge (data : Line) (mask : Word64)
  | update (aop : BitVec 4) (wide : Bool) (operand : List Byte)
  | doorbell (payload : List Byte)
deriving DecidableEq, Repr

/-- A device-issued transaction (R454): the node and TAG, the address, the partition, the engine access it serves, the issue (RISS),
RETRY, the deadline or the time at which it is sent again, the two parts of a forwarded answer, the fabric-key entry, and the half whose
share of R36 it takes. -/
structure DevTx where
  node   : NodeId
  tag    : Tag
  offset : Offset
  part   : PartId
  acc    : Nat
  kind   : DevKind
  riss   : Bool
  retry  : BitVec 4
  due    : Nat
  again  : Option Nat
  fwdAck : Bool
  fwdData : Option (List Byte)
  sendAs : Option (BitVec 13)
  half   : Half
deriving DecidableEq, Repr

/-- The router and the shaper (R441 to R482). -/
structure Fabric where
  ports    : Tbl Port
  routes   : Tbl (BitVec 16)
  nextTransit : Nat
  circuits : Tbl Circuit
  trees    : Tbl Tree
  meters   : Tbl Meter
  policed  : Halves (Tbl Nat)
  dev      : List DevTx
  tagsUsed : List (NodeId × Tag × Nat)
  nextTag  : Nat
  openWait : Option (BitVec 10)
deriving DecidableEq, Repr

/-- Quiet mode of a partition (R513, R514). -/
structure Quiet where
  on       : Bool
  period   : BitVec 8
  lat      : BitVec 6
  overruns : Word64
  lastSlot : Nat
deriving DecidableEq, Repr

/-- The mailbox of a partition (R496, R497); the bytes of its area as last written or answered. -/
structure Mailbox where
  len     : BitVec 16
  state   : BitVec 8
  seq     : BitVec 16
  node    : NodeId
  payload : Tbl Byte
deriving DecidableEq, Repr

/-- The translation context of a partition (R92). -/
structure XltCtx where
  enable  : Bool
  park    : Bool
  rootLog : BitVec 5
  root    : Word64
  fqLog   : BitVec 4
  fqEn    : Bool
  fqBase  : Word64
  faultVec : VecNo
  vecEn   : Bool
  fqIndex : Nat
  fqPhase : Bool
deriving DecidableEq, Repr

/-- A partition (R59, R300, R507, R676). `spillIx` is the extent that PART_SET named, valid or not (R303); `rrQueue` and `rrLeft` are the round-robin
position among its queues (R284). -/
structure Part where
  conf      : Bool
  tenant    : Digest
  slotLive  : Bool
  secret    : Nat
  hashKey   : BitVec 128
  keep      : Bool
  quiet     : Quiet
  ctx       : XltCtx
  spill     : Option ExtIdx
  spillIx   : ExtIdx
  quota     : BitVec 16
  cores     : List (Fin 512)
  mailbox   : Mailbox
  rrQueue   : Nat
  rrLeft    : Nat
deriving DecidableEq, Repr

/-- An entry of the fabric key store (R501, R504, R505). `seen` lists the accepted SEQ values inside the window. -/
structure FKey where
  part   : PartId
  tree   : Option (BitVec 10)
  peer   : NodeId
  remote : BitVec 16
  txKey  : BitVec 256
  txSalt : BitVec 32
  txSeq  : BitVec 48
  rxKey  : BitVec 256
  rxSalt : BitVec 32
  top    : Nat
  seen   : List Nat
deriving DecidableEq, Repr

/-- An SPDM session (R492 to R495). -/
structure Session where
  via    : SpdmVia
  mutualAuth : Bool
  secured : Bool
  lastBeat : Nat
  missed : Nat
deriving DecidableEq, Repr

/-- An answer that quiet mode holds back (R513). -/
structure QuietHeld where
  id    : Nat
  part  : PartId
  due   : Nat
  via   : Via
  vc    : BitVec 3
  pkt   : Packet
deriving DecidableEq, Repr

/-- A block command that a control message runs (R670): the message's code, and the block's DATA words to be restored. -/
structure Borrow where
  code : BitVec 8
  base : Nat
  data : Nat
deriving DecidableEq, Repr

/-- A control message that waits until the BUSY of its block is 0 (R670): XLT_COMMAND or OPQ_COMMAND with its command and DATA image, or QUIET_SET with
its argument. -/
inductive WaitMsg where
  | xlt (part : PartId) (cmd : Word32) (image : Nat)
  | opq (part : PartId) (cmd : Word32) (image : Nat)
  | quiet (part : PartId) (arg : Word32)
deriving DecidableEq, Repr

/-- The security engine (R483 to R522). `idScalar` and `idPublic` are the identity key pair, 0 until step ROM derives it (R487); `borrow` lists, by
the address of its command status, each block command that runs for a control message, and `msgs` the messages that wait, the oldest first. -/
structure Sec where
  fkeys    : Tbl FKey
  fkeyLog  : Tbl Nat
  sessions : Tbl Session
  nextSession : Nat
  tg       : Word32
  log      : List LogRec
  nextSeq  : Word32
  dbgLive  : Bool
  dbgNonce : Option (BitVec 128)
  dbgUsed  : Bool
  chainOk  : Bool
  idScalar : Nat
  idPublic : Nat × Nat
  reports  : Word64
  measure  : Tbl Digest
  svnBusy  : Bool
  held     : List QuietHeld
  nextHeld : Nat
  borrow   : Tbl Borrow
  msgs     : List WaitMsg
deriving DecidableEq, Repr

end Sys2Proof.Machine
end

