-- ==== Sys2Proof/Machine/StateEng.lean ====
section
/-! DEFINITION. The records of the engines: accesses, translation, operation queues, operations and cores. -/

namespace Sys2Proof.Machine

/-- What an engine access names: a virtual address (R86), or a pool offset on this node (R267, R110). -/
inductive Target where
  | va (a : Word64)
  | phys (off : Offset)
deriving DecidableEq, Repr

/-- Why an access runs: for its engine, issued ahead for it, to write an entry of a fault ring (R110), to fill a quiet core's issue slot
(R513), to learn a translation only (R335), or to read an entry of a LIST stream (R102). -/
inductive AccWhy where
  | engine | asked | ring | filler | probe | list
deriving DecidableEq, Repr

/-- Where an engine access stands: waiting for the issue slot of a quiet core (R513), joined to a walk, held back by a full walk queue (R99) or a full transaction table (R36), waiting
to be retried (R114, R169), held by a home of this node (R61), issued to another node, sent or waiting on a circuit, parked on a fault record (R107), with a result
that quiet mode holds back (R513), or ended. -/
inductive AccState where
  | slot
  | walking (walk : Nat)
  | stalled
  | retry (due : Nat)
  | home
  | remote
  | circuit
  | parked (record : Nat)
  | quiet (item due : Nat) (status : Status) (data : List Byte)
  | ended (status : Status) (data : List Byte)
deriving DecidableEq, Repr

/-- An engine access that has been issued: the engine, the partition, the target and what it does; the circuit it may use (R329);
whether its home must be this node (R331, R182); why it runs, and when it was issued. -/
structure EngAcc where
  id      : Nat
  who     : Engine
  part    : PartId
  target  : Target
  kind    : EngKind
  circuit : Option (BitVec 10)
  near    : Bool
  why     : AccWhy
  issued  : Nat
  state   : AccState
deriving DecidableEq, Repr

/-- A cached translation (R97): the partition, the level, the index of the page or table at that level (VA without its offset), and
the table entry: a leaf, or a pointer of level 4 or 3. -/
structure TlbEnt where
  part  : PartId
  level : Nat
  index : Nat
  entry : Word64
deriving DecidableEq, Repr

/-- A core's micro-TLB (R97): its entries by place, and the bits of the replacement tree, of which bit 1 is the root's and bits 2n and 2n + 1
those below bit n. -/
structure MicroTlb where
  ents : Tbl TlbEnt
  tree : Word64
deriving DecidableEq, Repr

/-- A walk (R99, R100): demand, or for a stream of an operation, queued or running, its virtual address and access, the time of its
start, the level and table to be read next, the pointers that it has read (R98), and a restart that an invalidation asks for (R113). -/
structure Walk where
  id      : Nat
  half    : Half
  part    : PartId
  va      : Word64
  write   : Bool
  stream  : Option (Nat × Nat)
  running : Bool
  since   : Nat
  level   : Nat
  table   : Nat
  found   : List TlbEnt
  restart : Bool
deriving DecidableEq, Repr

/-- A fault record (R107, R110): partition, address, cause, level and access, the total number of waiters, the time of its
allocation, the phase of its ring entry, and the count when the fault was raised. -/
structure FaultRec where
  part  : PartId
  va    : Word64
  cause : Nat
  level : Nat
  write : Bool
  phase : Bool
  total : Nat
  since : Nat
  count : Word64
deriving DecidableEq, Repr

/-- An invalidation that drains (R113): the accesses in flight at its invalidation point. -/
structure Inval where
  part : PartId
  accs : List Nat
deriving DecidableEq, Repr

/-- The translation unit (R86 to R116) and the accesses of the engines. -/
structure Xlt where
  micro    : Tbl MicroTlb
  shared   : Halves (List TlbEnt)
  walks    : List Walk
  nextWalk : Nat
  accs     : List EngAcc
  nextAcc  : Nat
  records  : Tbl FaultRec
  inval    : Option Inval
deriving DecidableEq, Repr

/-- The state of a queue (R274); FREE queues are not listed. -/
inductive QueueState where
  | active | draining | stopped | resetting | lost
deriving DecidableEq, Repr

/-- A completion record that is finished and not yet written (R291, R294): what it holds without PHASE and SQ_HEAD, when it was finished,
whether FENCE counts it (R336), whether its descriptor stands at or above the drain mark (R296), and the writes of its operation that no home had
answered then (R293). -/
structure Held where
  tag    : BitVec 16
  status : Status
  flags  : BitVec 8
  index  : BitVec 16
  result : Word64
  count  : Word64
  detail : BitVec 32
  level  : BitVec 8
  cores  : BitVec 16
  since  : Nat
  counts : Bool
  above  : Bool
  writes : List Nat
deriving DecidableEq, Repr

/-- Why a queue reset runs: a command, a stall, or a partition reset (R297 to R299). -/
inductive ResetWhy where
  | command | stall | partition
deriving DecidableEq, Repr

/-- A descriptor that has been fetched: its SQ index, its bytes, its stream table, the PROG and AUX bytes that check 3 read (R326), whether it
stands at or above the drain mark (R296), and the status of the first check of R281 that it failed. -/
structure Member where
  index : BitVec 16
  desc  : List Byte
  table : List Byte
  prog  : List Byte
  aux   : List Byte
  above : Bool
  bad   : Option Status
deriving DecidableEq, Repr

/-- A queue (R269, R272 to R274, R292, R294 to R298). `drainMark` is the mark of DRAINING until SQ_HEAD reaches it; `resetMark` SQ_TAIL at step 1 of a
reset; `failures` the records other than OK since the last FENCE; `aborting` that a FENCE with ABORT cancels what follows; `chain` the
members of a chain fetched so far with what check 3 read for them; `fetched`, `trace` and `fetch` the descriptor being checked, the
results of its further reads and the access that runs. -/
structure Queue where
  state    : QueueState
  part     : PartId
  half     : Half
  sizeLog2 : Nat
  weight   : Nat
  sqBase   : Nat
  maxInflight : Nat
  cqBase   : Nat
  headLine : Nat
  vec      : VecNo
  vecEn    : Bool
  sqHead   : BitVec 16
  sqTail   : BitVec 16
  cqTail   : BitVec 16
  cqHead   : BitVec 16
  lap      : Bool
  dropped  : BitVec 16
  drainMark : Option (BitVec 16)
  resetMark : BitVec 16
  resetAt  : Nat
  resetWhy : Option ResetWhy
  slot     : Nat
  onChip   : Bool
  usedAt   : Nat
  held     : List Held
  fullSince : Option Nat
  polledAt : Nat
  failures : Nat
  aborting : Bool
  chain    : List Member
  fetched  : List Byte
  trace    : List (Status × List Byte)
  fetch    : Option Nat
deriving DecidableEq, Repr

/-- An exact accumulator (R350): V, and the counts of +∞, −∞ and NaN terms. -/
structure Acc where
  v : Int
  p : Nat
  m : Nat
  q : Nat
deriving DecidableEq, Repr

/-- A stream that an operation declares (R101, R280), and the tiles walked ahead (R102): the number of tiles that may be walked, the
tile addresses read from a LIST, the next tile of each half with the number of its pages that are done, where the next page starts and
whether its walk has been started, and the access that reads the list for a half. -/
structure StreamSt where
  base   : Word64
  stride : Int
  count  : Nat
  tileLog2 : Nat
  depth  : Nat
  isList : Bool
  wanted : Nat
  addrs  : Tbl Nat
  tile   : Halves Nat
  page   : Halves (Nat × Nat × Bool)
  reader : Halves (Option Nat)
deriving DecidableEq, Repr

/-- An entry of a merged top-K list (R321): the exact score and the vector's index. -/
structure TopEnt where
  score : Acc
  index : Nat
deriving DecidableEq, Repr

/-- What the mover does for a unit in its write phase (R288): write bytes; write a line with the poison pattern (R330); probe and insert
a key with its value, for the key at a position (R323); apply the atomic update of an entry (R333); make a source range read as zeros
(R331); write survivors after those of every lower unit (R325). -/
inductive WOp where
  | put (va : Nat) (bytes : List Byte)
  | bad (va : Nat)
  | insert (pos : Nat) (key : Word64) (value : List Byte)
  | atomic (pos : Nat) (va : Nat) (operand : List Byte)
  | clear (va len : Nat)
  | tail (bytes : List Byte)
deriving DecidableEq, Repr

/-- A partial result of a unit (R366), with its place among those of its member. -/
inductive Partial where
  | max (k : Nat) (w : Word32)
  | acc (k : Nat) (a : Acc)
  | top (k : Nat) (l : List TopEnt)
  | count (k n : Nat)
deriving DecidableEq, Repr

/-- The phase of a unit that a core has taken (R286, R288). -/
inductive UnitPhase where
  | compute | ready | writing
deriving DecidableEq, Repr

/-- A unit that is taken and not done: its logical core, the member of the chain that runs, the results of its accesses so far, the
access it waits for, its local buffers, what the mover has to do, what it adds to RESULT, and its partial results, each with its member. -/
structure UnitSt where
  core   : Fin 512
  phase  : UnitPhase
  member : Nat
  trace  : List (Status × List Byte)
  acc    : Option Nat
  lbs    : Tbl (List Byte)
  outs   : List (Nat × WOp)
  add    : List (Nat × Nat × Nat)
  parts  : List (Nat × Partial)
  poisoned : Bool
deriving DecidableEq, Repr

/-- The state of an operation: checked and waiting to start, or started (R281, R283). -/
inductive OpState where
  | armed | running | saving
deriving DecidableEq, Repr

/-- An operation in flight (R283 to R290), or a chain. `members` are its descriptors; `units` the units taken and not done, `done` the
units that are done, rising; `failed` the first failure with its member and unit; `cores` the logical cores that have run units; `results`
what each member adds to the low and high part of RESULT; `maxima`, `accs`, `tops` and `counts` the merged partial results of R366, by
member × 2^40 + place; `ckts` the circuit that a member's destination writes use; `trace` and `acc` the accesses that the front end makes
for it; `target` the operation that a SAVE_STATE stops; `restored` what a RESTORE_STATE runs (R342). -/
structure Op where
  id      : Nat
  queue   : QueueId
  part    : PartId
  members : List Member
  state   : OpState
  launch  : Option Word64
  late    : Bool
  paced   : Bool
  startAt : Nat
  budget  : Nat
  units   : Tbl UnitSt
  done    : List Nat
  failed  : Option (Status × Nat × Nat)
  cores   : List (Fin 512)
  results : List (Nat × Nat × Nat)
  poisoned : Bool
  streams : List StreamSt
  maxima  : Tbl Word32
  accs    : Tbl Acc
  tops    : Tbl (List TopEnt)
  counts  : Tbl Nat
  ckts    : List (Nat × BitVec 10)
  trace   : List (Status × List Byte)
  acc     : Option Nat
  target  : Option Nat
  restored : Option Member
deriving DecidableEq, Repr

/-- A doorbell that waits for its queue's context (R270, R275): the queue, the partition of the gutter page, tail and source, the
writer, and, on the last doorbell of a write, the request to be answered (R545). -/
structure Bell where
  queue  : QueueId
  part   : PartId
  tail   : BitVec 16
  source : BitVec 16
  node   : NodeId
  hdr    : Option ReqHdr
deriving DecidableEq, Repr

/-- The operation front end (R267 to R304). `refill` lists the physical cores whose SRAM is being refilled; `joins` what CORE_ASSIGN
waits for, `leaves` what CORE_RELEASE waits for; `waitQueue` and `waitPart` what Q_RESET and PART_RESET wait for; `waitCmd` a command, by
code, queue, partition and the DATA it was given, that waits for a context; `bells` the doorbells that wait for one, `loading` the contexts to be loaded, and `spills`
those whose spill a home still holds. -/
structure Opq where
  queues  : Tbl Queue
  ops     : List Op
  nextOp  : Nat
  refill  : List Nat
  joins   : Option (PartId × List (Fin 512))
  leaves  : Option (List Nat)
  waitQueue : Option QueueId
  waitPart : Option PartId
  waitCmd : Option (Nat × QueueId × PartId × Nat)
  bells   : List Bell
  loading : List QueueId
  spills  : List QueueId
  lastUse : Nat
deriving DecidableEq, Repr

/-- A near-memory core (R556, R577, R581): fenced, reset and reloading, the times of its resets, and its last heartbeat. -/
structure Core where
  fenced  : Bool
  loading : Bool
  resets  : List Nat
  beatAt  : Nat
  found   : Bool
deriving DecidableEq, Repr

end Sys2Proof.Machine
end

