-- ==== Sys2Proof/Machine/StateMisc.lean ====
section
/-! DEFINITION. The records of the remaining blocks: the global count, the store and the fuses. -/

namespace Sys2Proof.Machine

/-- The global count (R369, R370, R379); `freeze` is the time until which it stands. -/
structure Gtc where
  count   : Word64
  running : Bool
  freeze  : Nat
deriving DecidableEq, Repr

/-- An access in a channel's buffer: its address, its arrival, and of a write the data, none for the poison pattern (R206, R209). -/
structure ChanReq where
  line  : Nat
  since : Nat
  data  : Option Line
deriving DecidableEq, Repr

/-- The three buffers of a channel (R206). -/
inductive ChanBuf where
  | latency | bulk | write
deriving DecidableEq, Repr

/-- An access that waits at the home agent for room in a buffer (R206, R209). -/
structure ChanWait where
  buf : ChanBuf
  req : ChanReq
deriving DecidableEq, Repr

/-- The commands that a channel issues to its DIMM: by bank and row an ACT, a PRE of an open row and an ACT of a neighbour refresh; a READ and a
WRITE, with its data (R220), by address; a refresh of a rank and the refresh of one bank index in it; RFM by bank; and by rank a read of mode
register 4 and a periodic calibration. -/
inductive DimmOp where
  | act (bank row : Nat)
  | pre (bank row : Nat)
  | neighbour (bank row : Nat)
  | read (line : Nat)
  | write (line : Nat) (data : Option Line)
  | refab (rank : Nat)
  | refsb (rank index : Nat)
  | rfm (bank : Nat)
  | mr4 (rank : Nat)
  | calibrate (rank : Nat) (tracking : Bool)
deriving DecidableEq, Repr

/-- A command in the retry buffer with its issue time in DDR clocks (R220). -/
structure ChanCmd where
  op   : DimmOp
  time : Nat
deriving DecidableEq, Repr

/-- An activation table entry: a row and its count (R217). -/
structure ActRow where
  row   : Nat
  count : Nat
deriving DecidableEq, Repr

/-- A physical bank of a rank and subchannel (R217 to R219): the activation table, its floor, the neighbour-refresh queue, the
rolling accumulated activation count, and the open row. -/
structure Bank where
  acts  : List ActRow
  floor : Nat
  nbr   : List Nat
  raa   : Nat
  row   : Option Nat
deriving DecidableEq, Repr

/-- The marked device and the candidate of a rank and subchannel (R242, R244). -/
structure Mark where
  marked : Option Nat
  cand   : Nat
  count  : Nat
deriving DecidableEq, Repr

/-- A rank's refresh state: postponed refreshes, the doubled rate, when the next refresh is due, when the activation tables are
cleared next, and the times of the last impedance calibration and of the last tracking (R212 to R214, R217, R229). -/
structure Rank where
  debt : Nat
  fast : Bool
  dueAt : Nat
  windowAt : Nat
  calAt : Nat
  trackAt : Nat
deriving DecidableEq, Repr

/-- A DDR channel (R200 to R258): the DIMM, the request buffers and what waits at the home agent for room in them, the port that the round robin
serves and what is left of its weight, the reads issued since a bulk read in panic, refresh, activation tables, the retry buffer, its recovery, the
window and the rows that were open before it, marks, retirement, the scrubber of each subchannel with the time of its last read, and the next read
of mode register 4. -/
structure DdrChan where
  dimm     : Option Dimm
  lat      : List ChanReq
  bulk     : List ChanReq
  wr       : List ChanReq
  waits    : List ChanWait
  batch    : Bool
  rrBulk   : Bool
  rrLeft   : Nat
  sinceBulk : Nat
  ranks    : Tbl Rank
  banks    : Tbl Bank
  retry    : List ChanCmd
  alerts   : Nat
  recover  : Bool
  window   : List ChanCmd
  reopen   : Tbl Nat
  retrained : Bool
  results  : List Byte
  marks    : Tbl Mark
  retRows  : List Nat
  retBanks : List Nat
  scrubAt  : Halves Nat
  scrubBusy : Halves Nat
  lapStart : Nat
  lapAlarm : Bool
  lapSubs  : Halves Bool
  cmdWaits : Bool
  mr4At    : Nat
deriving DecidableEq, Repr

/-- A register read of the companion that has not completed yet (R557, R638). -/
structure RegRead where
  addr : Word32
  time : Nat
deriving DecidableEq, Repr

/-- The companion link (R632 to R641): packets held while the link retrains, the start of a retrain, when the link was last
ACTIVE, the consecutive replays, the next sequence numbers, and the time of the last training attempt. -/
structure Cmp where
  heldOut   : List (BitVec 3 × Packet)
  retrainAt : Nat
  activeAt  : Nat
  everActive : Bool
  replays   : Nat
  rxSeq     : BitVec 16
  ackSeq    : BitVec 16
  trainAt   : Nat
  reads     : List RegRead
deriving DecidableEq, Repr

/-- The registers r0 to r15 of a MAP microprogram as its last element left them, the constants and boundaries of its AUX, and its partition
(R326 to R328). -/
structure Micro where
  regs   : Tbl Word32
  consts : Tbl Word32
  bounds : List Word32
  part   : PartId
deriving DecidableEq, Repr

/-- The state of a power domain (R605 to R609): on; entering Dusk mode or Midnight, at a step, going on or being undone; in Dusk mode or
Midnight; returning. -/
inductive DomState where
  | on
  | entering (midnight : Bool) (step : Nat) (undo : Bool)
  | dusk
  | midnight
  | returning
deriving DecidableEq, Repr

/-- A power domain (R597 to R609): its state and the time at which its current step or sleep began, the votes of COMP and FABMGR, when its
cores last worked, whether a doorbell was admitted for it since the last sample, and whether it is to return as soon as it is off. -/
structure Domain where
  state  : DomState
  at_    : Nat
  comp   : Bool
  fabmgr : Bool
  idleAt : Nat
  bell   : Bool
  wake   : Bool
deriving DecidableEq, Repr

/-- Power and temperature (R610 to R627): the domains; the last domain whose return started and when; the domain that a VOTE waits for; the
1 ms measurements of the last window, newest first, in 0.1 W; the next decision point; the runs of samples in and out of disagreement; the
raw readings of the last 10 s in 0.01 °C, newest first; whether a THERM_POINT has been accepted; the offsets in effect in 0.01 °C; the
calibration points as external and raw mW, newest first, and the one that runs with its start count; COUNT of the last pace notice received
and the number of notices sent. -/
structure Pwr where
  doms     : Tbl Domain
  returned : Option (Nat × Nat)
  voteWait : Option Nat
  window   : List Nat
  decideAt : Option Nat
  badRun   : Nat
  goodRun  : Nat
  temps    : List (List Int)
  offsets  : List Int
  offsetsOk : Bool
  points   : List (Nat × Nat)
  point    : Option (Nat × Word64)
  paceCount : Word64
  pseq     : Word32
deriving DecidableEq, Repr

/-- The fuses (R486). -/
structure Fuses where
  svn       : Nat
  ownerHash : Digest
  dbgOff    : Bool
deriving DecidableEq, Repr

/-- A section of the calibration store (R592, R593): absent, the factory values, or values saved since. -/
inductive CalSection (α : Type) where
  | absent
  | factory
  | saved (v : α)
deriving DecidableEq, Repr

/-- The image region of the module store (R571): whether it has been erased since the factory, and the bytes written since. -/
structure Image where
  erased : Bool
  cells  : Tbl Byte
deriving DecidableEq, Repr

/-- What no reset changes: the fuses and the module store (R486, R571, R592). `training` holds each channel's stored training results
with the serial number of the DIMM they belong to (R228), none when they are absent or fail their CRC-32 (R592); `psense` the gain as a fraction (R626). -/
structure NonVol where
  fuses : Fuses
  training : Tbl (BitVec 32 × List Byte)
  image : Image
  optical : CalSection Unit
  thermal : CalSection (List Int)
  psense : CalSection (Nat × Nat)
deriving DecidableEq, Repr

end Sys2Proof.Machine
end

