-- ==== Sys2Proof/Machine/StateCtl.lean ====
section
/-! DEFINITION. The records of the control complexes, the Dawn sequence, the module store, the sync tree and the side-band port. -/

namespace Sys2Proof.Machine

/-- The role of a control complex (R523). -/
inductive Role where
  | active | standby | resync | offline
deriving DecidableEq, Repr

/-- A control complex (R523 to R538): its role and hold latch; the last input number it has processed, the times of its entries into RESYNC, the
time from which its watchdog counts, when it last had a ridge status message and whether its peer counts as lost, the run of bad status
exchanges, and when it last sent one. -/
structure Complex where
  role     : Role
  latch    : Bool
  seen     : Nat
  resyncs  : List Nat
  kickAt   : Nat
  heardAt  : Nat
  lost     : Bool
  bad      : Nat
  sentAt   : Nat
deriving DecidableEq, Repr

/-- A control message that waits because no complex is ACTIVE (R536, R537): a message interrupt, a packet, or a packet of a tree. -/
inductive CtlMsg where
  | msi (addr : Word64) (data : Word32)
  | pkt (vc : BitVec 3) (p : Packet)
  | port (egress : PortNo) (vc : BitVec 3) (p : Packet)
  | tree (n : Nat) (p : Packet)
deriving DecidableEq, Repr

/-- The control complexes (R523 to R541): the last input number given, the inputs without one, the input number last journalled, H of each
egress filter (24 is the companion link), the messages that wait, when the line was last released and for which cause, the start of
ridge-fault mode, and whether the strap half has taken over in it (R538). -/
structure Ctl where
  cplx     : Halves Complex
  lastInput : Nat
  unnumbered : List Nat
  journal  : Nat
  filters  : Tbl Word32
  waiting  : List CtlMsg
  released : Nat
  swCause  : Nat
  swCmd    : Bool
  faultAt  : Option Nat
  taken    : Bool
deriving DecidableEq, Repr

/-- A step of the Dawn sequence (R570). -/
inductive DawnStep where
  | rom | verify | hold | power | arrays | selftest | ddr | fill | handover | service | stopped
deriving DecidableEq, Repr

/-- The Dawn sequence, the supplies and the reset inputs (R564 to R586, R650): what is good, whether the crystal works (R689), whether the main input has ever been good, a
converter fault, PERST_N high, whether the sequence runs, its step and when it and the step started; and, in FILL, the repair rounds that
each core has failed (R583); whether the core map of HANDOVER stands. `resetAt` is a warm reset that GLB.RESET has scheduled (R674). -/
structure Dawn where
  auxGood  : Bool
  crystal  : Bool
  mainGood : Bool
  mainSeen : Bool
  refGood  : Bool
  convBad  : Bool
  perstHigh : Bool
  tripped  : Bool
  powered  : Bool
  running  : Bool
  step     : DawnStep
  startAt  : Nat
  stepAt   : Nat
  warm     : Bool
  full     : Bool
  waves    : Nat
  lastMs   : Nat
  failedCh : Bool
  testBad  : List Nat
  rounds   : Tbl Nat
  mapped   : Bool
  resetAt  : Option Nat
deriving DecidableEq, Repr

/-- The state of the image in the module store (R595 STORE). -/
inductive StoreState where
  | running | receiving | pending | invalid
deriving DecidableEq, Repr

/-- The path that holds the module store (R647). -/
inductive StoreHolder where
  | companion | pldm | fabric
deriving DecidableEq, Repr

/-- The reception of a distributed image (R589): tag, count, source address, activation count, the fragments in place, the time of the last
fragment, whether the repair fetches have begun, and the fetches that failed once. -/
structure Reception where
  tag    : BitVec 16
  count  : Nat
  src    : Word64
  act    : Word64
  have_  : List Nat
  lastAt : Nat
  repair : Bool
  failed : List Nat
deriving DecidableEq, Repr

/-- The phase of a PLDM firmware update (R647). -/
inductive PldmPhase where
  | idle | learn | ready | download | verify | apply | activate
deriving DecidableEq, Repr

/-- Firmware update (R587 to R591, R647, R653): STORE, who holds the store, the FW_SVN of the stored and of the running image, the activation
count, whether it passed before the check ended, the erase that runs, the reception, and the PLDM update with its next offset; STORE as a
cancelled PLDM update leaves it. `spread` holds the DATA words of an IMG_DISTRIBUTE that waits for lines of the staged image (R29, R587). -/
structure Fw where
  store    : StoreState
  back     : StoreState
  holder   : Option StoreHolder
  storeSvn : Nat
  runSvn   : Nat
  act      : Word64
  tag      : BitVec 16
  erasing  : Bool
  rx       : Option Reception
  pldm     : PldmPhase
  offset   : Nat
  verified : Bool
  spread   : Option Nat
deriving DecidableEq, Repr

/-- The side-band port (R642 to R645, R648, R558): dynamic address, I3C mode, enabled target events, read and write lengths, endpoint ID,
terminus ID, the islands' last watchdog kicks and restarts, and the island's copy of the log. -/
structure Side where
  dynAddr : BitVec 7
  i3c     : Bool
  events  : BitVec 8
  mrl     : BitVec 16
  mwl     : BitVec 16
  eid     : BitVec 8
  compEid : BitVec 8
  tid     : BitVec 8
  kickAt  : Halves Nat
  restart : Halves (Option Nat)
  island  : List LogRec
deriving DecidableEq, Repr

/-- What an upstream port remembers of a sync link (R374, R376): the SEQ of its next SYNC, and the last ECHO: its SEQ and its receipt. -/
structure SyncPort where
  seq  : BitVec 16
  echo : Option (BitVec 16 × Word64)
deriving DecidableEq, Repr

/-- An exchange that a follower has begun (R376): the SEQ of its SYNC, T1, T2 and T3, and the time of the SYNC. -/
structure Exchange where
  seq : BitVec 16
  t1  : Word64
  t2  : Word64
  t3  : Word64
  at_ : Nat
deriving DecidableEq, Repr

/-- The sync tree (R373 to R381): the ports, when SYNC was last sent, the exchanges that have not ended, the time of the last valid one, the offsets of
the last 8 valid ones in units of 0.5 ns, newest first, how many valid exchanges within ±4 ns came in a row (R378), and ALIGNED of the latest SYNC. -/
structure Sync where
  ports   : Tbl SyncPort
  sentAt  : Nat
  open_   : List Exchange
  validAt : Nat
  offsets : List Int
  run     : Nat
  upAligned : Bool
deriving DecidableEq, Repr

/-- Optical calibration (R375, R592, R596): whether the fixed internal latencies of the ports are known, and the engine that is being recalibrated with
the time of its start. -/
structure Cal where
  latencies : Bool
  recal : Option (Nat × Nat)
deriving DecidableEq, Repr

end Sys2Proof.Machine
end

