-- ==== Sys2Proof/Machine/State.lean ====
section
/-! DEFINITION. The state of the machine, the reasons a command can stop, and the machine right after reset. -/

namespace Sys2Proof.Machine

/-- No command of this block ends in a fault: the manual gives every event an effect or a status. -/
inductive Fault where
deriving DecidableEq, Repr

/-- The reasons a command is refused. -/
inductive Refusal where
  /-- Raised by an arm of exec whose command has no meaning in the model yet. Safe: the machine stops. -/
  | notModelled (mnemonic : String)
deriving DecidableEq, Repr

/-- Everything that a reset reaches. -/
structure Dev where
  now   : Nat
  draws : Nat
  out   : List Out
  straps : Straps
  regs  : Regs
  mem   : Mem
  irq   : Irq
  ras   : Halves RasHalf
  coh   : Coh
  tier  : Tier
  ddr   : Tbl DdrChan
  fab   : Fabric
  parts : Tbl Part
  sec   : Sec
  gtc   : Gtc
  sync  : Sync
  cmp   : Cmp
  side  : Side
  xlt   : Xlt
  opq   : Opq
  micro : Micro
  pwr   : Pwr
  ctl   : Ctl
  dawn  : Dawn
  fw    : Fw
  cal   : Cal
  cores : Tbl Core
  lmap  : Tbl Nat
deriving DecidableEq, Repr

/-- The machine: the commands that wait, what no reset changes, and the rest. -/
structure State where
  pending : List Instr
  nv      : NonVol
  dev     : Dev
deriving DecidableEq, Repr

/-! ### The machine right after reset

The manual gives the reset value of every register with a field; what it gives none is said in the assumption log. -/

/-- A control complex before the claim of R531. -/
def Complex.reset : Complex :=
  { role := .standby, latch := false, seen := 0, resyncs := [], kickAt := 0, heardAt := 0, lost := false, bad := 0, sentAt := 0 }

/-- The control complexes: no line held, no input numbered, CSN and every H at 0 (R530, R540, R541). -/
def Ctl.reset : Ctl :=
  { cplx := ⟨Complex.reset, Complex.reset⟩, lastInput := 0, unnumbered := [], journal := 0, filters := [], waiting := [], released := 0,
    swCause := 0, swCmd := false, faultAt := none, taken := false }

/-- The error log and the disabled ways of a half (R256, R259). -/
def RasHalf.reset : RasHalf := { log := [], nextSeq := 0, lost := [], lostAll := false, waysOff := [], fixed := [], rereads := [], retire := none }

/-- Coherence: every extent FREE, every host set unused (R568). -/
def Coh.reset : Coh :=
  { exts := [], hsets := [], regions := [], changes := [], nextChange := 0, sweeping := ⟨none, none⟩, dir := [], nextAlloc := 0, tx := [],
    resv := [], hosts := [], late := [], replies := [], regionWait := none, pubEnds := [], engDone := [], posted := [] }

/-- The dense tier (R159, R188): nothing initialised; the number of rows is found by DDR training. -/
def Tier.reset : Tier :=
  { rows := 0, pinRows := 0, blocks := 0, frames := [], map := [], fills := [], wbs := [], nextWb := 0, tags := ⟨[], []⟩, cleaning := false, ageAt := 0,
    state := .uninit, failed := 0, rebuild := none, drives := [], flush := [], refills := [], initCap := none, rebuildAsk := none, nsid := 1 }

/-- The fabric: every port OFF, no route, tree, circuit or meter (R424, R568). -/
def Fabric.reset : Fabric :=
  { ports := [], routes := [], nextTransit := 0, circuits := [], trees := [], meters := [], policed := ⟨[], []⟩, dev := [], tagsUsed := [],
    nextTag := 0, openWait := none }

/-- The security engine: no key, no session, the debug port locked (R491, R495, R501). -/
def Sec.reset : Sec :=
  { fkeys := [], fkeyLog := [], sessions := [], nextSession := 0, tg := 0, log := [], nextSeq := 0, dbgLive := false,
    dbgNonce := none, dbgUsed := false, chainOk := false, idScalar := 0, idPublic := (0, 0), reports := 0, measure := [], svnBusy := false, held := [], nextHeld := 0, borrow := [], msgs := [] }

/-- The translation unit (R92, R97). -/
def Xlt.reset : Xlt :=
  { micro := [], shared := ⟨[], []⟩, walks := [], nextWalk := 0, accs := [], nextAcc := 0, records := [], inval := none }

/-- The front end: every queue FREE (R274). -/
def Opq.reset : Opq :=
  { queues := [], ops := [], nextOp := 0, refill := [], joins := none, leaves := none, waitQueue := none, waitPart := none, waitCmd := none,
    bells := [], loading := [], spills := [], lastUse := 0 }

/-- Power and temperature (R601, R610). -/
def Pwr.reset : Pwr :=
  { doms := [], returned := none, voteWait := none, window := [], decideAt := none, badRun := 0, goodRun := 0, temps := [], offsets := [],
    offsetsOk := false, points := [], point := none, paceCount := 0, pseq := 0 }

/-- The sync tree (R378, R393). -/
def Sync.reset : Sync := { ports := [], sentAt := 0, open_ := [], validAt := 0, offsets := [], run := 0, upAligned := false }

/-- The companion link (R633): OFF. -/
def Cmp.reset : Cmp :=
  { heldOut := [], retrainAt := 0, activeAt := 0, everActive := false, replays := 0, rxSeq := 0, ackSeq := 0, trainAt := 0, reads := [] }

/-- The side-band port (R643): an I²C target without addresses. -/
def Side.reset : Side :=
  { dynAddr := 0, i3c := false, events := 0, mrl := 0, mwl := 0, eid := 0, compEid := 0, tid := 0, kickAt := ⟨0, 0⟩, restart := ⟨none, none⟩,
    island := [] }

/-- The Dawn sequence at a cold reset, with the supplies and the reference good and PERST_N high: it is about to start (R565). -/
def Dawn.reset : Dawn :=
  { auxGood := true, crystal := true, mainGood := true, mainSeen := true, refGood := true, convBad := false, perstHigh := true, tripped := false,
    powered := false, running := false, step := .rom, startAt := 0, stepAt := 0, warm := false, full := false, waves := 0, lastMs := 0,
    failedCh := false, testBad := [], rounds := [], mapped := false, resetAt := none }

/-- Firmware update (R595): STORE is RUNNING. -/
def Fw.reset : Fw :=
  { store := .running, back := .running, holder := none, storeSvn := 0, runSvn := 0, act := 0, tag := 0, erasing := false, rx := none, pldm := .idle, offset := 0,
    verified := false, spread := none }

/-- Everything that a cold reset reaches, right after it. -/
def Dev.reset : Dev :=
  { now := 0, draws := 0, out := [], straps := ⟨false, 0⟩, regs := ⟨[], [], [], []⟩, mem := ⟨[], [], [], [], [], []⟩,
    irq := ⟨⟨[], []⟩, ⟨[], []⟩, [], []⟩, ras := ⟨RasHalf.reset, RasHalf.reset⟩, coh := Coh.reset, tier := Tier.reset, ddr := [],
    fab := Fabric.reset, parts := [], sec := Sec.reset, gtc := ⟨0, true, 0⟩, sync := Sync.reset, cmp := Cmp.reset, side := Side.reset,
    xlt := Xlt.reset, opq := Opq.reset, micro := ⟨[], [], [], 0⟩, pwr := Pwr.reset, ctl := Ctl.reset, dawn := Dawn.reset, fw := Fw.reset,
    cal := ⟨false, none⟩, cores := [], lmap := [] }

/-- The fuses as a JX7400 ships (R486). -/
def Fuses.shipped : Fuses := { svn := 0, ownerHash := 0, dbgOff := false }

/-- What no reset changes, as a JX7400 ships: the factory's image and calibration sections (R571, R592). -/
def NonVol.shipped : NonVol :=
  { fuses := Fuses.shipped, training := [], image := ⟨false, []⟩, optical := .factory, thermal := .factory, psense := .factory }

/-- The machine right after reset. -/
def State.reset : State := { pending := [], nv := NonVol.shipped, dev := Dev.reset }

end Sys2Proof.Machine
end

