-- ==== Sys2Proof/Machine/Ops.lean ====
section
/-! DEFINITION. The named operations that every block shares: sparse tables, bit fields and byte order, pool memory in DRAM,
registers, counters, interrupts and message vectors, and the error log. -/

namespace Sys2Proof.Machine

/-- Whether the always-on islands run: they need the auxiliary rail and the crystal (R564, R689). -/
def Dawn.islandsRun (w : Dawn) : Bool := w.auxGood && w.crystal

/-! ### Sparse tables -/

/-- The value at a key, or the table's default. -/
def Tbl.get {α : Type} (dflt : α) : Tbl α → Nat → α
  | [], _ => dflt
  | (k, v) :: t, i => if k = i then v else Tbl.get dflt t i

/-- The entry at a key, if one is listed. -/
def Tbl.find {α : Type} : Tbl α → Nat → Option α
  | [], _ => none
  | (k, v) :: t, i => if k = i then some v else Tbl.find t i

/-- List an entry at a key, replacing the one that stands there; keys keep rising. -/
def Tbl.put {α : Type} (i : Nat) (x : α) : Tbl α → Tbl α
  | [] => [(i, x)]
  | (k, v) :: t => if k < i then (k, v) :: Tbl.put i x t else if k = i then (i, x) :: t else (i, x) :: (k, v) :: t

/-- Unlist a key. -/
def Tbl.drop {α : Type} (i : Nat) : Tbl α → Tbl α
  | [] => []
  | (k, v) :: t => if k = i then Tbl.drop i t else (k, v) :: Tbl.drop i t

/-- Store a value in a table whose unlisted keys hold a default: the default itself is never listed. -/
def Tbl.set {α : Type} [DecidableEq α] (dflt : α) (i : Nat) (x : α) (t : Tbl α) : Tbl α :=
  if x = dflt then Tbl.drop i t else Tbl.put i x t

/-- Change a listed entry. -/
def Tbl.upd {α : Type} (i : Nat) (f : α → α) : Tbl α → Tbl α
  | [] => []
  | (k, v) :: t => if k = i then (k, f v) :: t else (k, v) :: Tbl.upd i f t

/-- The keys of a table rise strictly, starting above a bound. -/
def Tbl.risingFrom {α : Type} : Option Nat → Tbl α → Bool
  | _, [] => true
  | none, (k, _) :: t => Tbl.risingFrom (some k) t
  | some b, (k, _) :: t => decide (b < k) && Tbl.risingFrom (some k) t

/-- Insert into a rising list of numbers. -/
def NSet.insert (i : Nat) : List Nat → List Nat
  | [] => [i]
  | k :: t => if k < i then k :: NSet.insert i t else if k = i then k :: t else i :: k :: t

/-- Remove from a rising list of numbers. -/
def NSet.erase (i : Nat) : List Nat → List Nat
  | [] => []
  | k :: t => if k < i then k :: NSet.erase i t else if k = i then t else k :: t

/-- Fold a state through the numbers below n, in rising order. -/
def foldN {σ : Type} (n : Nat) (f : Nat → σ → σ) (s : σ) : σ := (List.range n).foldl (fun s i => f i s) s

/-! ### Halves -/

/-- The value of a half. -/
def Halves.at {α : Type} (x : Halves α) : Half → α
  | .west => x.west
  | .east => x.east

/-- Replace the value of a half. -/
def Halves.set {α : Type} (x : Halves α) (h : Half) (v : α) : Halves α :=
  match h with
  | .west => { x with west := v }
  | .east => { x with east := v }

/-- Change the value of a half. -/
def Halves.mod {α : Type} (x : Halves α) (h : Half) (f : α → α) : Halves α := x.set h (f (x.at h))

/-- The other half. -/
def otherHalf : Half → Half
  | .west => .east
  | .east => .west

/-- Instance number of a half (R263: 0 West, 1 East). -/
def halfIx : Half → Nat
  | .west => 0
  | .east => 1

/-- The half of a channel (R26). -/
def halfOfChan (c : Nat) : Half := if c < 12 then .west else .east
/-- The half of a fabric port (R26). -/
def halfOfPort (p : PortNo) : Half := if p.val < 12 then .west else .east
/-- The half of a physical core (R26). -/
def halfOfCore (c : Nat) : Half := if c < 288 then .west else .east

/-! ### Bit fields and bytes -/

/-- Bits [hi:lo] of a number. -/
def bits (n hi lo : Nat) : Nat := n / 2 ^ lo % 2 ^ (hi - lo + 1)

/-- Bits [hi:lo] of a word. -/
def fieldOf (w : Word32) (hi lo : Nat) : Nat := bits w.toNat hi lo

/-- Replace bits [hi:lo] of a word. -/
def insField (w : Word32) (hi lo v : Nat) : Word32 :=
  let m : Word32 := BitVec.ofNat 32 ((2 ^ (hi - lo + 1) - 1) * 2 ^ lo)
  (w &&& ~~~m) ||| (BitVec.ofNat 32 (v * 2 ^ lo) &&& m)

/-- The number that bytes spell, least significant first (R10). -/
def leNat : List Byte → Nat
  | [] => 0
  | b :: t => b.toNat + 256 * leNat t

/-- The n low bytes of a number, least significant first (R10). -/
def leBytes : Nat → Nat → List Byte
  | 0, _ => []
  | n + 1, v => BitVec.ofNat 8 v :: leBytes n (v / 256)

/-- The number that bytes spell, most significant first (R11). -/
def beNat (l : List Byte) : Nat := leNat l.reverse

/-- n bytes from position i. -/
def sub {α : Type} (l : List α) (i n : Nat) : List α := (l.drop i).take n

/-- A little-endian field of n bytes at position i. -/
def leAt (l : List Byte) (i n : Nat) : Nat := leNat (sub l i n)

/-- The 64 bytes of a line. -/
def lineBytes (x : Line) : List Byte := leBytes 64 x.toNat

/-- The line that bytes spell. -/
def lineOf (l : List Byte) : Line := BitVec.ofNat 512 (leNat (l.take 64))

/-- Byte i of a line. -/
def lineByte (x : Line) (i : Nat) : Byte := x.extractLsb' (8 * i) 8

/-- The 512-bit mask of the bytes that a 64-bit mask selects. -/
def byteMask (m : Word64) : Line :=
  foldN 64 (fun i a => if m.getLsbD i then a ||| ((255#512) <<< (8 * i)) else a) 0

/-- Replace the bytes that the mask selects (R139). -/
def lineMerge (old new : Line) (m : Word64) : Line := (old &&& ~~~byteMask m) ||| (new &&& byteMask m)

/-- Round up to a whole number of units. -/
def ceilDiv (a b : Nat) : Nat := (a + b - 1) / b

/-- Saturating addition in w bits. -/
def satAdd {w : Nat} (a : BitVec w) (n : Nat) : BitVec w :=
  if a.toNat + n < 2 ^ w then BitVec.ofNat w (a.toNat + n) else BitVec.allOnes w

/-- A value whose 0 acts as 1. -/
def min1 (n : Nat) : Nat := if n = 0 then 1 else n

/-! ### Pool memory (R48, R246, R249) -/

/-- Read one byte; an unlisted byte reads 0. -/
def Mem.byte (m : Mem) (a : Nat) : Byte := Tbl.get 0 m.cells a

/-- Write one byte, keeping the canonical form. -/
def Mem.setByte (m : Mem) (a : Nat) (b : Byte) : Mem := { m with cells := Tbl.set 0 a b m.cells }

/-- n bytes from an address. -/
def Mem.bytes (m : Mem) (a n : Nat) : List Byte := (List.range n).map fun i => m.byte (a + i)

/-- Write bytes from an address. -/
def Mem.setBytes (m : Mem) : Nat → List Byte → Mem
  | _, [] => m
  | a, b :: t => Mem.setBytes (m.setByte a b) (a + 1) t

/-- The line at a line key. -/
def Mem.line (m : Mem) (k : Nat) : Line := lineOf (m.bytes (k * 64) 64)

/-- Whether the line at a line key holds the poison pattern (R249). -/
def Mem.bad (m : Mem) (k : Nat) : Bool := m.poison.contains k

/-- Write a full line; it replaces the poison pattern (R140, R253). -/
def Mem.setLine (m : Mem) (k : Nat) (x : Line) : Mem :=
  let m := Mem.setBytes m (k * 64) (lineBytes x)
  { m with poison := NSet.erase k m.poison, unc := NSet.erase k m.unc }

/-- Write the poison pattern into a line: zero data with every syndrome 0xFF (R249). -/
def Mem.setBad (m : Mem) (k : Nat) : Mem :=
  let m := Mem.setBytes m (k * 64) (List.replicate 64 0)
  { m with poison := NSet.insert k m.poison }

/-- The canonical form of the memory: addresses rise strictly and no listed byte is 0. -/
def Mem.wf (m : Mem) : Bool := Tbl.risingFrom none m.cells && m.cells.all fun c => decide (c.2 ≠ 0)

/-! ### Register addresses (R658, R662) -/

namespace Reg

/-- The common header at 0x000 to 0x0FF of a page (R662). -/
def errSts (page : Nat) : Nat := page * 4096 + 0x018
@[inherit_doc errSts] def errMask (page : Nat) : Nat := page * 4096 + 0x01C
@[inherit_doc errSts] def errSev (page : Nat) : Nat := page * 4096 + 0x020
@[inherit_doc errSts] def intCause (page : Nat) : Nat := page * 4096 + 0x028
@[inherit_doc errSts] def intEn (page : Nat) : Nat := page * 4096 + 0x02C
@[inherit_doc errSts] def owner (page : Nat) : Nat := page * 4096 + 0x030

/-- First pages of the blocks (R658). -/
def glb : Nat := 0x000
@[inherit_doc glb] def sbm : Nat := 0x001
@[inherit_doc glb] def pwr : Nat := 0x002
@[inherit_doc glb] def gtc : Nat := 0x003
@[inherit_doc glb] def ctl : Nat := 0x004
@[inherit_doc glb] def irq : Nat := 0x005
@[inherit_doc glb] def sec : Nat := 0x006
@[inherit_doc glb] def opq : Nat := 0x007
@[inherit_doc glb] def xlt : Nat := 0x008
@[inherit_doc glb] def coh : Nat := 0x009
@[inherit_doc glb] def tier : Nat := 0x00A
@[inherit_doc glb] def rte : Nat := 0x00B
@[inherit_doc glb] def shp : Nat := 0x00C
@[inherit_doc glb] def cmp : Nat := 0x00D
@[inherit_doc glb] def ras (h : Half) : Nat := 0x010 + halfIx h
@[inherit_doc glb] def nmc (n : Nat) : Nat := 0x100 + n
@[inherit_doc glb] def ddr (n : Nat) : Nat := 0x200 + n
@[inherit_doc glb] def dtp (n : Nat) : Nat := 0x300 + n
@[inherit_doc glb] def fab (n : Nat) : Nat := 0x400 + n

end Reg

/-- The type code and instance of a page as BLK_ID shows them (R658, R663): none when the page belongs to no block. The
second CMP page has no header (R660). -/
def blkId (page : Nat) : Option (Nat × Nat) :=
  if page = 0x000 then some (0x01, 0) else if page = 0x001 then some (0x12, 0) else if page = 0x002 then some (0x02, 0)
  else if page = 0x003 then some (0x03, 0) else if page = 0x004 then some (0x04, 0) else if page = 0x005 then some (0x05, 0)
  else if page = 0x006 then some (0x06, 0) else if page = 0x007 then some (0x07, 0) else if page = 0x008 then some (0x09, 0)
  else if page = 0x009 then some (0x0A, 0) else if page = 0x00A then some (0x0B, 0) else if page = 0x00B then some (0x0F, 0)
  else if page = 0x00C then some (0x10, 0) else if page = 0x00D then some (0x11, 0)
  else if 0x010 ≤ page ∧ page < 0x012 then some (0x13, page - 0x010)
  else if 0x100 ≤ page ∧ page < 0x124 then some (0x08, page - 0x100)
  else if 0x200 ≤ page ∧ page < 0x218 then some (0x0C, page - 0x200)
  else if 0x300 ≤ page ∧ page < 0x310 then some (0x0D, page - 0x300)
  else if 0x400 ≤ page ∧ page < 0x418 then some (0x0E, page - 0x400)
  else none

/-- A group of registers of one kind inside a page: offset, number of words, the bits that software writes and the reset
value. Fields that the device writes and no party may write have their bits outside `rw`. -/
structure RegRow where
  off   : Nat
  n     : Nat
  rw    : Word32
  reset : Word32
deriving DecidableEq, Repr

/-- The block-specific registers of a block type that hold stored words (R65, R94, R154, R196, R231, R263, R301, R393, R436,
R476, R479, R520, R559, R562, R594, R628, R654, R656, R672, R678). -/
def regRows (ty : Nat) : List RegRow :=
  match ty with
  | 0x01 => [⟨0x100, 1, 0, 0xFFFF⟩, ⟨0x104, 1, 0, 0⟩, ⟨0x118, 1, 0, 0⟩, ⟨0x120, 16, 0xFFFFFFFF, 0⟩, ⟨0x18C, 1, 0, 0⟩]
  | 0x02 => [⟨0x104, 1, 0, 0⟩, ⟨0x108, 1, 0x7, 0⟩, ⟨0x10C, 1, 0, 0⟩, ⟨0x110, 1, 0x01FF001F, 0x015E0008⟩, ⟨0x114, 1, 0, 0⟩,
      ⟨0x118, 1, 0, 0⟩, ⟨0x11C, 1, 0x01FFFFFF, 0x01010A04⟩, ⟨0x120, 1, 0xFFFFFFFF, 0⟩, ⟨0x124, 1, 0xF, 0⟩,
      ⟨0x128, 1, 0x7FF, 0⟩, ⟨0x12C, 1, 0, 0⟩, ⟨0x130, 1, 0xFFFFFF, 0x55645F⟩, ⟨0x134, 1, 0, 0⟩, ⟨0x138, 1, 0xFF, 0⟩,
      ⟨0x140, 8, 0xFFFFFFFF, 0⟩]
  | 0x03 => [⟨0x108, 1, 0xFF7F, 0x0800⟩, ⟨0x10C, 1, 0xFFFFFF, 0⟩, ⟨0x110, 1, 0, 0xFF0⟩, ⟨0x114, 1, 0, 0xFFFF⟩,
      ⟨0x118, 2, 0, 0⟩, ⟨0x120, 2, 0xFFFFFFFF, 0⟩]
  | 0x04 => [⟨0x108, 1, 0, 0⟩, ⟨0x10C, 1, 0, 0⟩, ⟨0x110, 1, 0, 0⟩]
  | 0x05 => [⟨0x100, 1, 1, 1⟩, ⟨0x104, 1, 0x7FF, 0⟩, ⟨0x118, 1, 0xFFFF, 0⟩]
  | 0x06 => [⟨0x104, 1, 0, 0⟩, ⟨0x120, 16, 0xFFFFFFFF, 0⟩]
  | 0x07 => [⟨0x104, 1, 0, 0⟩, ⟨0x110, 8, 0xFFFFFFFF, 0⟩]
  | 0x09 => [⟨0x104, 1, 0, 0⟩, ⟨0x108, 1, 0xFFFF, 0x64⟩, ⟨0x110, 8, 0xFFFFFFFF, 0⟩]
  | 0x0A => [⟨0x104, 1, 0, 0⟩, ⟨0x110, 8, 0xFFFFFFFF, 0⟩, ⟨0x130, 1, 0xFFFF, 0x320A⟩, ⟨0x144, 1, 0, 0⟩]
  | 0x0B => [⟨0x104, 1, 0, 0⟩, ⟨0x108, 1, 0xFFFFFFFF, 0x001400C8⟩, ⟨0x10C, 1, 0xFFFF, 0x0C19⟩, ⟨0x110, 1, 0xFFFF, 0x280A⟩,
      ⟨0x120, 8, 0xFFFFFFFF, 0⟩]
  | 0x0C => [⟨0x100, 1, 0, 0⟩, ⟨0x104, 1, 0xFFFF7F, 0x144430⟩, ⟨0x108, 1, 0xF, 0x8⟩, ⟨0x10C, 1, 0x7FFFF, 0x20800⟩, ⟨0x110, 1, 0, 0⟩,
      ⟨0x118, 1, 0, 0⟩]
  | 0x0E => [⟨0x100, 1, 0xFF07FF, 0x6404B1⟩, ⟨0x104, 1, 0xFF3F1FFF, 0x0A201028⟩, ⟨0x10C, 1, 0, 0⟩,
      ⟨0x120, 8, 0xF07FF, 0⟩]
  | 0x0F => [⟨0x104, 1, 0, 0⟩, ⟨0x108, 1, 0xFF07FF7F, 0x0A032408⟩, ⟨0x10C, 1, 0, 0⟩, ⟨0x120, 8, 0xFFFFFFFF, 0⟩]
  | 0x10 => [⟨0x104, 1, 0, 0⟩, ⟨0x110, 8, 0xFFFFFFFF, 0⟩]
  | 0x11 => [⟨0x100, 1, 0, 0⟩, ⟨0x104, 1, 0, 0xFFFF⟩, ⟨0x10C, 1, 0, 0⟩, ⟨0x120, 8, 0xFFFFFFFF, 0⟩]
  | 0x12 => [⟨0x100, 1, 0, 0⟩, ⟨0x104, 1, 0x1F, 0x1F⟩]
  | 0x13 => [⟨0x104, 1, 0, 0⟩, ⟨0x108, 1, 0xFFFFFF01, 0x00180401⟩, ⟨0x10C, 1, 0x1F, 0x14⟩, ⟨0x120, 16, 0xFFFFFFFF, 0⟩,
      ⟨0x200, 12, 0, 0⟩, ⟨0x240, 12, 0, 0xFFFFFFFF⟩]
  | _ => []

/-- The receive-slot registers FAB.VC_CFG0 to VC_CFG7 at reset: INIT and WEIGHT of R417. -/
def vcCfgReset (i : Nat) : Word32 :=
  match i with
  | 0 => 0x400A0 | 1 => 0x000E0 | 2 => 0x00040 | 3 => 0x00060 | 4 => 0x40100 | 5 => 0x20040 | 6 => 0x00020 | _ => 0x40080

/-- The row that holds a window offset of a block type. -/
def regRow (ty off : Nat) : Option RegRow :=
  (regRows ty).find? fun r => decide (r.off ≤ off ∧ off < r.off + 4 * r.n)

/-- The reset value of the stored word at a window address (R663 and the tables of the blocks). -/
def regReset (a : Nat) : Word32 :=
  let page := a / 4096
  let off := a % 4096
  match blkId page with
  | none => 0
  | some (ty, _) =>
    if off = 0x030 then (if ty = 0x12 then 2 else 0)
    else if ty = 0x0E ∧ 0x120 ≤ off ∧ off < 0x140 then vcCfgReset ((off - 0x120) / 4)
    else match regRow ty off with
      | some r => r.reset
      | none => 0

namespace Dev

/-! ### Registers, counters and interrupts -/

/-- The stored word of a register. -/
def reg (d : Dev) (a : Nat) : Word32 := (Tbl.find d.regs.words a).getD (regReset a)

/-- Store a register word; a word equal to its reset value is not listed. -/
def setReg (a : Nat) (v : Word32) (d : Dev) : Dev :=
  { d with regs := { d.regs with words := Tbl.set (regReset a) a v d.regs.words } }

/-- Bits [hi:lo] of a register. -/
def fld (d : Dev) (a hi lo : Nat) : Nat := fieldOf (d.reg a) hi lo

/-- Set bits [hi:lo] of a register. -/
def setFld (a hi lo v : Nat) (d : Dev) : Dev := d.setReg a (insField (d.reg a) hi lo v)

/-- A 64-bit counter (R662). -/
def ctr (d : Dev) (page off : Nat) : Word64 := Tbl.get 0 d.regs.ctrs (page * 4096 + off)

/-- Add to a counter, which saturates (R156, R680 and the counter tables). -/
def bump (page off n : Nat) (d : Dev) : Dev :=
  let a := page * 4096 + off
  { d with regs := { d.regs with ctrs := Tbl.set 0 a (satAdd (Tbl.get 0 d.regs.ctrs a) n) d.regs.ctrs } }

/-- GLB.NODE_ID (R672). -/
def nodeId (d : Dev) : NodeId := (d.reg 0x100).setWidth 16

/-- Emit an output. -/
def emit (o : Out) (d : Dev) : Dev := { d with out := d.out ++ [o] }

/-- The vector of the vector table (R551). -/
def vec (d : Dev) (v : Nat) : MsgVector :=
  Tbl.get ⟨0, 0, true, false, 0⟩ d.irq.vectors v

/-- Store a vector. -/
def setVec (v : Nat) (x : MsgVector) (d : Dev) : Dev :=
  { d with irq := { d.irq with vectors := Tbl.set ⟨0, 0, true, false, 0⟩ v x d.irq.vectors } }

/-- Whether message interrupts may leave: IRQ.GLB_CTL.DELIVER is 1 (R550) and the companion link is ACTIVE (R640). -/
def msiMayLeave (d : Dev) : Bool := d.fld 0x5100 0 0 = 1 && d.fld 0xD100 2 0 = 2

/-! ### Control messages (R539 to R541) -/

/-- Whether a complex is ACTIVE and orders inputs; while none is, control messages wait (R525, R536, R537). -/
def orders (d : Dev) : Bool := d.ctl.cplx.west.role == .active || d.ctl.cplx.east.role == .active

/-- The next control message gets its CSN (R540). -/
def nextCsn (d : Dev) : Dev := d.setReg 0x410C (d.reg 0x410C + 1)

/-- The first copy of the message with the last CSN passes the filter of its egress, 0 to 23 for the ports and 24 for the companion link
(R541). -/
def passCsn (egress : Nat) (d : Dev) : Dev := { d with ctl := { d.ctl with filters := Tbl.set 0 egress (d.reg 0x410C) d.ctl.filters } }

/-- Number a control message and let its first copy pass its filter. -/
def stampCsn (egress : Nat) (d : Dev) : Dev := d.nextCsn.passCsn egress

/-- Keep a control message until a complex is ACTIVE (R537). -/
def holdCtl (m : CtlMsg) (d : Dev) : Dev := { d with ctl := { d.ctl with waiting := d.ctl.waiting ++ [m] } }

/-- Send a message interrupt (R551). -/
def sendMsi (addr : Word64) (data : Word32) (d : Dev) : Dev :=
  if d.orders then (d.emit (.msi addr data)).stampCsn 24 else d.holdCtl (.msi addr data)

/-- Send the message of a vector: its pending bit and count clear (R552). -/
def sendVec (v : Nat) (d : Dev) : Dev :=
  let x := d.vec v
  ((d.sendMsi x.addr x.data).bump Reg.irq 0x050 1).setVec v { x with pend := false, cnt := 0 }

/-- An arrival on a vector (R552, R640). -/
def arriveVec (v : Nat) (d : Dev) : Dev :=
  let x := d.vec v
  if x.mask = false ∧ d.msiMayLeave then d.sendVec v
  else (d.bump Reg.irq 0x058 1).setVec v { x with pend := true, cnt := satAdd x.cnt 1 }

/-- Whether a block's INT_CAUSE AND INT_EN is not 0 (R553). -/
def blkLive (page : Nat) (d : Dev) : Bool := (d.reg (Reg.intCause page) &&& d.reg (Reg.intEn page)) != 0

/-- The vector of a block instance is raised by a 0-to-1 change of INT_CAUSE AND INT_EN (R553). -/
def blkEdge (page : Nat) (before : Bool) (d : Dev) : Dev :=
  if before = false ∧ d.blkLive page then
    let r := Tbl.get (0 : Word32) d.irq.routes page
    if fieldOf r 11 11 = 1 then d.arriveVec (fieldOf r 10 0) else d
  else d

/-- Set a bit of a block's INT_CAUSE (R664). -/
def cause (page bit : Nat) (d : Dev) : Dev :=
  let before := d.blkLive page
  (d.setReg (Reg.intCause page) (d.reg (Reg.intCause page) ||| (1#32 <<< bit))).blkEdge page before

/-- An ERR_STS event of a block (R663): the bit is set; unless masked it sets INT_CAUSE.ERR, and with its ERR_SEV bit also
GLB.INT_CAUSE.BLK_FATAL. -/
def errEvent (page bit : Nat) (d : Dev) : Dev :=
  let d := d.setReg (Reg.errSts page) (d.reg (Reg.errSts page) ||| (1#32 <<< bit))
  if (d.reg (Reg.errMask page)).getLsbD bit then d
  else
    let d := d.cause page 0
    if (d.reg (Reg.errSev page)).getLsbD bit then d.cause Reg.glb 3 else d

/-- ILLEGAL_WRITE of a block (R17, R68, R663). -/
def illegal (page : Nat) (d : Dev) : Dev := d.errEvent page 0

/-! ### Alerts (R650, R651) -/

/-- Set an alert cause: the bit of SBM.ALERT_STS. -/
def alert (bit : Nat) (d : Dev) : Dev := d.setReg 0x1100 (d.reg 0x1100 ||| (1#32 <<< bit))

/-- Clear an alert cause. -/
def unalert (bit : Nat) (d : Dev) : Dev := d.setReg 0x1100 (d.reg 0x1100 &&& ~~~(1#32 <<< bit))

/-! ### Command status (R67, R68) -/

/-- Whether the command status register at an address shows BUSY. -/
def busy (sts : Nat) (d : Dev) : Bool := (d.reg sts).getLsbD 0

/-- Start a command: BUSY becomes 1. -/
def cmdBegin (sts : Nat) (d : Dev) : Dev := d.setFld sts 0 0 1

/-- Read n DATA words of a block as one number, DATA0 lowest. -/
def data (d : Dev) (a n : Nat) : Nat :=
  (List.range n).foldr (fun i acc => (d.reg (a + 4 * i)).toNat + 2 ^ 32 * acc) 0

/-- Write n DATA words of a block from one number. -/
def setData (a n v : Nat) (d : Dev) : Dev :=
  foldN n (fun i d => d.setReg (a + 4 * i) (BitVec.ofNat 32 (v / 2 ^ (32 * i)))) d

/-- The response to a control message (R498): 0x80, the code, the status, 0, and data. -/
def answerMsg (code : BitVec 8) (st : Status) (body : List Byte) (d : Dev) : Dev :=
  d.emit (.answer code ([0x80, code, st.code, 0] ++ body))

/-- End a command (R68): BUSY clears, STATUS is set and the block's completion cause is set. A command that a control message runs leaves DATA,
STATUS and the cause as they were, and its message is answered (R670). -/
def cmdEnd (page sts bit : Nat) (st : Status) (d : Dev) : Dev :=
  match Tbl.find d.sec.borrow sts with
  | some b =>
    let res := d.data b.base 8
    let d := ({ d with sec := { d.sec with borrow := Tbl.drop sts d.sec.borrow } }).setData b.base 8 b.data
    (d.setFld sts 0 0 0).answerMsg b.code st (leBytes 32 res)
  | none => ((d.setFld sts 0 0 0).setFld sts 15 8 st.code.toNat).cause page bit

end Dev

/-! ### The error log (R259 to R262, R704, R705) -/

/-- The fields of a log record (R260). `detail` holds (byte position, number of bytes, value) for bytes 40 to 63. -/
structure LogF where
  type   : Nat
  sev    : Nat
  block  : Nat
  part   : Option PartId := none
  node   : Option NodeId := none
  status : Nat := 0
  flags  : Nat := 0
  addr   : Nat := 0
  loc    : Nat := 0
  detail : List (Nat × Nat × Nat) := []

/-- The value of BLOCK for a page: the instance in byte 2 and the type code in byte 3 (R260). -/
def blockOf (page : Nat) : Nat := match blkId page with
  | some (ty, i) => i + 256 * ty
  | none => 0

/-- The 64 bytes of a record (R260). -/
def LogF.image (f : LogF) (seq : Word32) (count : Word64) : Line :=
  let put (pos n v : Nat) : Nat := v % 256 ^ n * 256 ^ pos
  let base := put 0 1 f.type + put 1 1 f.sev + put 2 2 f.block + put 4 4 seq.toNat + put 8 8 count.toNat
    + put 16 2 (match f.part with | some p => p.toNat + 0x8000 | none => 0)
    + put 18 2 (match f.node with | some n => n.toNat | none => 0)
    + put 20 1 f.status + put 21 1 (f.flags + (if f.node.isSome then 1 else 0))
    + put 24 8 f.addr + put 32 8 f.loc
  BitVec.ofNat 512 (f.detail.foldl (fun a x => a + put x.1 x.2.1 x.2.2) base)

namespace Dev

/-- The half that the strap EAST_PRIMARY selects (R529, R704). -/
def strapHalf (d : Dev) : Half := if d.straps.eastPrimary then .east else .west

/-- Write a record into a half's log (R259): it overwrites the oldest record of a full log, which is counted, and sets
LOG_LOST when that record was never read (R266). -/
def log (h : Half) (f : LogF) (d : Dev) : Dev :=
  let r := d.ras.at h
  let conf := match f.part with
    | some p => (match Tbl.find d.parts p.toNat with | some x => x.conf | none => false)
    | none => false
  let e : LogRec := ⟨r.nextSeq, f.image r.nextSeq d.gtc.count, false, f.type == 0x0B && conf⟩
  let d1 := { d with ras := d.ras.set h { r with log := e :: r.log.take 4095, nextSeq := r.nextSeq + 1 } }
  -- the always-on island keeps a copy of what is written outside SERVICE (R648)
  let d1 := if d.dawn.step = .service then d1 else { d1 with side := { d1.side with island := e :: d1.side.island.take 255 } }
  if r.log.length < 4096 then d1
  else
    let d2 := d1.bump (Reg.ras h) 0x078 1
    match r.log.getLast? with
    | some old => if old.read then d2 else d2.cause (Reg.ras h) 6
    | none => d2

/-- The fabric address of a pool offset of this node (R43). -/
def fabAddr (d : Dev) (offset : Nat) : Nat := d.nodeId.toNat * 2 ^ 48 + offset

/-- Write a record into the security log, and its copy into the log of the strap half (R512, R704). -/
def secLog (event sev : Nat) (f : LogF) (d : Dev) : Dev :=
  let f := { f with type := 0x1C, sev := sev, block := blockOf Reg.sec, detail := (40, 1, event) :: f.detail }
  let e : LogRec := ⟨d.sec.nextSeq, f.image d.sec.nextSeq d.gtc.count, false, false⟩
  let d := { d with sec := { d.sec with log := e :: d.sec.log.take 1023, nextSeq := d.sec.nextSeq + 1 } }
  d.log d.strapHalf f

/-- Draw from the random generator: the next index of the device's draws. -/
def draw (d : Dev) : Nat × Dev := (d.draws, { d with draws := d.draws + 1 })

end Dev

/-- A record as anyone but its tenant sees it (R499): a hidden virtual address reads as 0. -/
def LogRec.view (e : LogRec) : Line :=
  if e.hide then lineMerge e.img 0 0xFF000000#64 else e.img

/-- Apply a function to everything that a reset reaches. -/
def State.onDev (f : Dev → Dev) (s : State) : State := { s with dev := f s.dev }

/-- The answer of a command: the next state. -/
def next (s : State) : Host.Outcome State Fault Refusal := .next s

end Sys2Proof.Machine
end

