-- ==== Sys2Proof/Machine/Arith.lean ====
section
/-! DEFINITION. Number formats and exact arithmetic (R343 to R367): element values, rows, the exact accumulator, rounding, the keyed hash,
the reference algorithms, and the micro-operations of MAP (R327, R328). -/

namespace Sys2Proof.Machine

/-! ### Exact values -/

/-- An exact value: NaN, an infinity, or (−1)^neg × m × 2^e. -/
inductive XV where
  | nan
  | inf (neg : Bool)
  | fin (neg : Bool) (m : Nat) (e : Int)
deriving DecidableEq, Repr

namespace XV

/-- The value of an integer. -/
def ofInt (i : Int) : XV := .fin (decide (i < 0)) i.natAbs 0

/-- Whether a value is zero. -/
def isZero : XV → Bool
  | .fin _ m _ => m == 0
  | _ => false

/-- Whether a value is NaN. -/
def isNan : XV → Bool
  | .nan => true
  | _ => false

/-- The sign of a value. -/
def neg? : XV → Bool
  | .nan => false
  | .inf s => s
  | .fin s _ _ => s

/-- The value with the opposite sign. -/
def negate : XV → XV
  | .nan => .nan
  | .inf s => .inf (!s)
  | .fin s m e => .fin (!s) m e

/-- The exact product (R351): an infinity times 0 is NaN. -/
def mul (a b : XV) : XV :=
  match a, b with
  | .nan, _ => .nan
  | _, .nan => .nan
  | .inf s, .inf t => .inf (s != t)
  | .inf s, .fin t m _ => if m = 0 then .nan else .inf (s != t)
  | .fin s m _, .inf t => if m = 0 then .nan else .inf (s != t)
  | .fin s m e, .fin t n f => .fin (s != t) (m * n) (e + f)

/-- A finite value as an integer at scale 2^e. -/
def scaled (neg : Bool) (m : Nat) (e at_ : Int) : Int :=
  let n : Int := ((m * 2 ^ (e - at_).toNat : Nat) : Int)
  if neg then -n else n

/-- Where a value stands in the order of R360, −0 below +0; NaN below everything. -/
def lt (a b : XV) : Bool :=
  match a, b with
  | .nan, .nan => false
  | .nan, _ => true
  | _, .nan => false
  | .inf s, .inf t => s && !t
  | .inf s, .fin _ _ _ => s
  | .fin _ _ _, .inf t => !t
  | .fin s m e, .fin t n f =>
    if m = 0 ∧ n = 0 then s && !t
    else decide (scaled s m e (min e f) < scaled t n f (min e f))

/-- The exact sum of two values; an exact zero is +0 (R355). -/
def plus (a b : XV) : XV :=
  match a, b with
  | .nan, _ => .nan
  | _, .nan => .nan
  | .inf s, .inf t => if s = t then .inf s else .nan
  | .inf s, .fin _ _ _ => .inf s
  | .fin _ _ _, .inf t => .inf t
  | .fin s m e, .fin t n f =>
    let x := scaled s m e (min e f) + scaled t n f (min e f)
    .fin (decide (x < 0)) x.natAbs (if x = 0 then 0 else min e f)

/-- The greater of two values, NaN when either is (R314, R360). -/
def maxOf (a b : XV) : XV := if a.isNan || b.isNan then .nan else if a.lt b then b else a

/-- The value of a ROWQ element (R349). -/
def rowq (s b : XV) (q : Int) : XV :=
  match s, b with
  | .nan, _ => .nan
  | _, .nan => .nan
  | .inf n, b =>
    if q = 0 then .nan
    else
      let p : Bool := n != decide (q < 0)
      (match b with | .inf t => if t != p then .nan else .inf p | _ => .inf p)
  | .fin _ _ _, .inf t => .inf t
  | .fin n m e, .fin t k f =>
    let pneg : Bool := n != decide (q < 0)
    let lo := min e f
    let sum := scaled pneg (m * q.natAbs) e lo + scaled t k f lo
    if sum = 0 then .fin (decide (m * q.natAbs = 0) && pneg && decide (k = 0) && t) 0 0
    else .fin (decide (sum < 0)) sum.natAbs lo

end XV

/-! ### Floating-point formats (R343 to R345) -/

/-- A floating-point format: exponent bits, fraction bits, bias, and whether it has infinities and a family of NaNs (IEEE), one NaN only (E4M3), or
neither. -/
inductive FfKind where
  | ieee | one | none
deriving DecidableEq, Repr

@[inherit_doc FfKind] structure Ff where
  eb   : Nat
  fb   : Nat
  bias : Nat
  kind : FfKind
deriving DecidableEq, Repr

namespace Ff

/-- FP32 (R343). -/
def fp32 : Ff := ⟨8, 23, 127, .ieee⟩
@[inherit_doc fp32] def fp16 : Ff := ⟨5, 10, 15, .ieee⟩
@[inherit_doc fp32] def bf16 : Ff := ⟨8, 7, 127, .ieee⟩
@[inherit_doc fp32] def e4m3 : Ff := ⟨4, 3, 7, .one⟩
@[inherit_doc fp32] def e5m2 : Ff := ⟨5, 2, 15, .ieee⟩
@[inherit_doc fp32] def e3m2 : Ff := ⟨3, 2, 3, .none⟩
@[inherit_doc fp32] def e2m3 : Ff := ⟨2, 3, 1, .none⟩
@[inherit_doc fp32] def e2m1 : Ff := ⟨2, 1, 1, .none⟩

/-- The sign bit's weight. -/
def signBit (f : Ff) : Nat := 2 ^ (f.eb + f.fb)

/-- The code of the largest finite magnitude (R343). -/
def maxCode (f : Ff) : Nat := match f.kind with
  | .ieee => (2 ^ f.eb - 1) * 2 ^ f.fb - 1
  | .one => 2 ^ (f.eb + f.fb) - 2
  | .none => 2 ^ (f.eb + f.fb) - 1

/-- The canonical NaN (R345). -/
def nanCode (f : Ff) : Nat := match f.kind with
  | .ieee => (2 ^ f.eb - 1) * 2 ^ f.fb + 2 ^ (f.fb - 1)
  | _ => 2 ^ (f.eb + f.fb) - 1

/-- The code of an infinity, or of the largest finite magnitude where the format has none (R355). -/
def infCode (f : Ff) (neg : Bool) : Nat :=
  (match f.kind with | .ieee => (2 ^ f.eb - 1) * 2 ^ f.fb | _ => f.maxCode) + (if neg then f.signBit else 0)

/-- The magnitude that a finite code stands for, as m × 2^e (R344). -/
def mag (f : Ff) (c : Nat) : Nat × Int :=
  let e := c / 2 ^ f.fb
  let m := c % 2 ^ f.fb
  if e = 0 then (m, 1 - (f.bias : Int) - f.fb) else (2 ^ f.fb + m, (e : Int) - f.bias - f.fb)

/-- The value of an element (R344, R345). -/
def value (f : Ff) (w : Nat) : XV :=
  let c := w % f.signBit
  let neg : Bool := w / f.signBit % 2 == 1
  if c ≤ f.maxCode then .fin neg (f.mag c).1 (f.mag c).2
  else if f.kind = .ieee ∧ c = f.maxCode + 1 then .inf neg
  else .nan

end Ff

/-! ### SipHash-2-4 (R365) -/

/-- One SipRound on (v0, v1, v2, v3). -/
def sipRound (v : Word64 × Word64 × Word64 × Word64) : Word64 × Word64 × Word64 × Word64 :=
  let (v0, v1, v2, v3) := v
  let v0 := v0 + v1
  let v1 := v1.rotateLeft 13 ^^^ v0
  let v0 := v0.rotateLeft 32
  let v2 := v2 + v3
  let v3 := v3.rotateLeft 16 ^^^ v2
  let v0 := v0 + v3
  let v3 := v3.rotateLeft 21 ^^^ v0
  let v2 := v2 + v1
  let v1 := v1.rotateLeft 17 ^^^ v2
  let v2 := v2.rotateLeft 32
  (v0, v1, v2, v3)

/-- Take in one 64-bit word of the message. -/
def sipWord (v : Word64 × Word64 × Word64 × Word64) (m : Word64) : Word64 × Word64 × Word64 × Word64 :=
  let (v0, v1, v2, v3) := v
  let (v0, v1, v2, v3) := sipRound (sipRound (v0, v1, v2, v3 ^^^ m))
  (v0 ^^^ m, v1, v2, v3)

/-- The keyed hash of a message under a 16-byte key. -/
def sipHash (key : BitVec 128) (msg : List Byte) : Word64 :=
  let k0 : Word64 := key.extractLsb' 0 64
  let k1 : Word64 := key.extractLsb' 64 64
  let v := (k0 ^^^ 0x736f6d6570736575, k1 ^^^ 0x646f72616e646f6d, k0 ^^^ 0x6c7967656e657261, k1 ^^^ 0x7465646279746573)
  let n := msg.length
  let last : Word64 := BitVec.ofNat 64 (leNat (msg.drop (n / 8 * 8)) + n % 256 * 2 ^ 56)
  let v := (List.range (n / 8)).foldl (fun v i => sipWord v (BitVec.ofNat 64 (leAt msg (8 * i) 8))) v
  let (v0, v1, v2, v3) := sipWord v last
  let (v0, v1, v2, v3) := sipRound (sipRound (sipRound (sipRound (v0, v1, v2 ^^^ 0xFF, v3))))
  v0 ^^^ v1 ^^^ v2 ^^^ v3

/-- u(p) of stochastic rounding (R357). -/
def stochastic (seed p : Nat) : Nat :=
  let k1 : Word64 := BitVec.ofNat 64 seed ^^^ 0x53544F4348415354
  (sipHash (BitVec.ofNat 128 (seed % 2 ^ 64 + k1.toNat * 2 ^ 64)) (leBytes 8 p)).toNat % 2 ^ 32

/-! ### Rounding (R355, R356) -/

/-- A rounding mode with its seed (R355, R356). -/
structure Rnd where
  mode : Nat
  seed : Nat
deriving DecidableEq, Repr

/-- Round to nearest even: the mode of rn() (R359). -/
def Rnd.nearest : Rnd := ⟨0, 0⟩

/-- num / den × 2^k, rounded down, with its remainder and divisor. -/
def scaleDiv (num den : Nat) (k : Int) : Nat × Nat × Nat :=
  let n := num * 2 ^ k.toNat
  let dd := den * 2 ^ (-k).toNat
  (n / dd, n % dd, dd)

/-- The greatest k with 2^k at most num / den. -/
def floorLog2 (num den : Nat) : Int :=
  let k : Int := (num.log2 : Int) - (den.log2 : Int)
  if (scaleDiv num den (-k)).1 = 0 then k - 1 else k

/-- round() of R356 on a non-zero rational num / den with a sign, at an output position. -/
def Ff.round (f : Ff) (r : Rnd) (p : Nat) (neg : Bool) (num den : Nat) : Nat :=
  let emin : Int := 1 - (f.bias : Int)
  let ex := floorLog2 num den
  let sub := decide (ex < emin)
  let sh : Int := (if sub then emin else ex) - f.fb
  let (q, rem, dd) := scaleDiv num den (-sh)
  let lo := if sub then q else (ex - emin + 1).toNat * 2 ^ f.fb + (q - 2 ^ f.fb)
  let s := if neg then f.signBit else 0
  let (mm, me) := f.mag f.maxCode
  -- twice num / den in units of ulpmax, against 2 × maxf + ulpmax
  let tooBig := decide ((scaleDiv (2 * num) den (-me)).1 ≥ 2 * mm + 1)
  if lo ≥ f.maxCode then
    (if r.mode = 1 ∨ f.kind ≠ .ieee ∨ !tooBig then f.maxCode + s else f.infCode neg)
  else if rem = 0 then lo + s
  else if r.mode = 0 then
    (if 2 * rem > dd ∨ (2 * rem = dd ∧ lo % 2 = 1) then lo + 1 + s else lo + s)
  else if r.mode = 1 then lo + s
  else if stochastic r.seed p < rem * 2 ^ 32 / dd then lo + 1 + s
  else lo + s

/-- Round an exact value into a format; a zero keeps its sign. -/
def Ff.ofXV (f : Ff) (r : Rnd) (p : Nat) : XV → Nat
  | .nan => f.nanCode
  | .inf n => f.infCode n
  | .fin n m e => if m = 0 then (if n then f.signBit else 0) else f.round r p n (m * 2 ^ e.toNat) (2 ^ (-e).toNat)

/-- Round an exact value to FP32, nearest even. -/
def rn32 (x : XV) : Nat := Ff.fp32.ofXV .nearest 0 x

/-- The value of an FP32 code. -/
def f32 (w : Nat) : XV := Ff.fp32.value w

/-! ### The exact accumulator (R350 to R355) -/

namespace Acc

/-- The empty accumulator. -/
def zero : Acc := ⟨0, 0, 0, 0⟩

/-- A 40-bit saturating count (R350). -/
def sat (n : Nat) : Nat := min n (2 ^ 40 - 1)

/-- Enter a term (R351). -/
def add (a : Acc) (t : XV) : Acc :=
  match t with
  | .nan => { a with q := sat (a.q + 1) }
  | .inf s => if s then { a with m := sat (a.m + 1) } else { a with p := sat (a.p + 1) }
  | .fin s m e =>
    if m ≠ 0 ∧ (m.log2 : Int) + e ≥ 256 then (if s then { a with m := sat (a.m + 1) } else { a with p := sat (a.p + 1) })
    else { a with v := a.v + XV.scaled s m e (-320) }

/-- Merge two accumulators (R352). -/
def merge (a b : Acc) : Acc := ⟨a.v + b.v, sat (a.p + b.p), sat (a.m + b.m), sat (a.q + b.q)⟩

/-- The accumulator of a list of terms. -/
def ofTerms (l : List XV) : Acc := l.foldl add zero

/-- Steps 1 to 3 of R355: NaN or an infinity; none for a finite value. -/
def special (a : Acc) : Option XV :=
  if a.q > 0 ∨ (a.p > 0 ∧ a.m > 0) then some .nan
  else if a.p > 0 then some (.inf false)
  else if a.m > 0 then some (.inf true)
  else none

/-- The exact value that an accumulator holds. -/
def value (a : Acc) : XV := match a.special with | some x => x | none => .fin (decide (a.v < 0)) a.v.natAbs (-320)

/-- The quotient of an accumulator and num / den, rounded once (R355 with 1 / 1, R361). -/
def quot (a : Acc) (f : Ff) (r : Rnd) (p num den : Nat) : Nat :=
  match a.special with
  | some x => f.ofXV r p x
  | none => if a.v = 0 then 0 else f.round r p (decide (a.v < 0)) (a.v.natAbs * den) (2 ^ 320 * num)

/-- Readout (R355). -/
def readout (a : Acc) (f : Ff) (r : Rnd) (p : Nat) : Nat := a.quot f r p 1 1

/-- The image of an accumulator (R354). -/
def image (a : Acc) : List Byte :=
  leBytes 80 (a.v % (2 ^ 640 : Int)).toNat ++ leBytes 5 a.p ++ leBytes 5 a.m ++ leBytes 5 a.q ++ [0]

/-- The accumulator that an image holds. -/
def ofImage (l : List Byte) : Acc :=
  let v := leAt l 0 80
  ⟨if v < 2 ^ 639 then (v : Int) else (v : Int) - 2 ^ 640, leAt l 80 5, leAt l 85 5, leAt l 90 5⟩

/-- Whether one exact score is below another; a NaN score compares with nothing (R321, R360). -/
def below (a b : Acc) : Bool :=
  match a.special, b.special with
  | none, none => decide (a.v < b.v)
  | none, some (.inf s) => !s
  | some (.inf s), none => s
  | some (.inf s), some (.inf t) => s && !t
  | _, _ => false

/-- Whether the value is NaN. -/
def isNan (a : Acc) : Bool := match a.special with | some .nan => true | _ => false

end Acc

/-- rn() of a sum of terms (R359). -/
def rnSum (l : List XV) : Nat := (Acc.ofTerms l).readout .fp32 .nearest 0

/-! ### Rows (R346 to R349) -/

/-- Bytes of the elements of a row (R348). -/
def rowEB (fmt dim : Nat) : Nat :=
  match fmt with
  | 0x00 => 4 * dim | 0x01 => 2 * dim | 0x02 => 2 * dim | 0x03 => dim | 0x04 => dim | 0x05 => dim | 0x06 => dim
  | 0x07 => 3 * dim / 4 | 0x08 => 3 * dim / 4 | 0x09 => dim / 2 | 0x0A => dim | 0x0B => dim / 2 | 0x0C => dim
  | 0x0D => 4 * dim | 0x0E => 8 * dim | 0x0F => dim | _ => dim / 2

/-- Whether a code names an MX format (R306). -/
def isMx (fmt : Nat) : Bool := decide (0x05 ≤ fmt ∧ fmt ≤ 0x0A)

/-- ROWBYTES (R348). -/
def rowBytes (fmt dim : Nat) : Nat :=
  rowEB fmt dim + (if isMx fmt then dim / 32 else if fmt ≥ 0x0F then 4 else 0)

/-- Whether a row of a format may have a number of elements (R306). -/
def rowDimOk (fmt dim : Nat) : Bool := (!isMx fmt || dim % 32 == 0) && (!(fmt == 0x0B || fmt == 0x10) || dim % 2 == 0)

/-- A two's complement integer of n bits. -/
def sInt (n w : Nat) : Int := if w < 2 ^ (n - 1) then (w : Int) else (w : Int) - (2 ^ n : Nat)

/-- An unsigned bit field of a byte string, bit 0 of byte 0 first. -/
def bitsAt (l : List Byte) (pos n : Nat) : Nat := leAt l (pos / 8) 3 / 2 ^ (pos % 8) % 2 ^ n

/-- The floating-point format of a code whose elements are floating-point (R306, R347). -/
def ffOf (fmt : Nat) : Ff :=
  match fmt with
  | 0x00 => .fp32 | 0x01 => .fp16 | 0x02 => .bf16 | 0x03 => .e4m3 | 0x04 => .e5m2 | 0x05 => .e4m3 | 0x06 => .e5m2
  | 0x07 => .e3m2 | 0x08 => .e2m3 | _ => .e2m1

/-- An element of an MX block under its scale (R347). -/
def mxScale (x : Nat) (v : XV) : XV :=
  if x = 255 then .nan
  else match v with
    | .fin s m e => .fin s m (e + (x : Int) - 127)
    | y => y

/-- Element j of a row of dim elements (R344 to R349). -/
def rowElem (fmt dim : Nat) (row : List Byte) (j : Nat) : XV :=
  let eb := rowEB fmt dim
  let scale := leAt row (eb + j / 32) 1
  let q8 : Int := sInt 8 (leAt row j 1)
  let q4 : Int := sInt 4 (bitsAt row (4 * j) 4)
  let s16 := Ff.fp16.value (leAt row eb 2)
  let b16 := Ff.fp16.value (leAt row (eb + 2) 2)
  match fmt with
  | 0x00 => Ff.fp32.value (leAt row (4 * j) 4)
  | 0x01 => Ff.fp16.value (leAt row (2 * j) 2)
  | 0x02 => Ff.bf16.value (leAt row (2 * j) 2)
  | 0x03 => Ff.e4m3.value (leAt row j 1)
  | 0x04 => Ff.e5m2.value (leAt row j 1)
  | 0x05 => mxScale scale (Ff.e4m3.value (leAt row j 1))
  | 0x06 => mxScale scale (Ff.e5m2.value (leAt row j 1))
  | 0x07 => mxScale scale (Ff.e3m2.value (bitsAt row (6 * j) 6))
  | 0x08 => mxScale scale (Ff.e2m3.value (bitsAt row (6 * j) 6))
  | 0x09 => mxScale scale (Ff.e2m1.value (bitsAt row (4 * j) 4))
  | 0x0A => mxScale scale (.fin (decide (q8 < 0)) q8.natAbs (-6))
  | 0x0B => .ofInt q4
  | 0x0C => .ofInt q8
  | 0x0D => .ofInt (sInt 32 (leAt row (4 * j) 4))
  | 0x0E => .ofInt (sInt 64 (leAt row (8 * j) 8))
  | 0x0F => .rowq s16 b16 q8
  | _ => .rowq s16 b16 q4

/-! ### Square roots, exp32, LOG1P and RSQRT (R317, R362, R363) -/

/-- Newton's iteration from above for an integer square root. -/
def isqrtGo : Nat → Nat → Nat → Nat
  | 0, _, x => x
  | k + 1, n, x => let y := (x + n / x) / 2; if y < x then isqrtGo k n y else x

/-- The integer square root. -/
def isqrt (n : Nat) : Nat := if n = 0 then 0 else isqrtGo (n.log2 + 8) n (2 ^ (n.log2 / 2 + 1))

/-- FP32 rounding, to nearest even, of r / 2^s when exact, and of a real number strictly between r / 2^s and (r + 1) / 2^s otherwise. -/
def rnSticky (neg : Bool) (r s : Nat) (exact_ : Bool) : Nat :=
  Ff.fp32.round .nearest 0 neg (2 * r + (if exact_ then 0 else 1)) (2 ^ (s + 1))

/-- The correctly rounded square root of an FP32 code (R317). -/
def sqrt32 (w : Nat) : Nat :=
  match f32 w with
  | .nan => Ff.fp32.nanCode
  | .inf true => Ff.fp32.nanCode
  | .inf false => w
  | .fin neg m e =>
    if m = 0 then w
    else if neg then Ff.fp32.nanCode
    else
      -- m × 2^e × 2^400 is an integer; its parity is made even
      let n := m * 2 ^ (e + 400).toNat
      let r := isqrt n
      rnSticky false r 200 (r * r == n)

/-- RSQRT (R363). -/
def rsqrt32 (w : Nat) : Nat :=
  match f32 w with
  | .nan => Ff.fp32.nanCode
  | .inf true => Ff.fp32.nanCode
  | .inf false => 0
  | .fin neg m e =>
    if m = 0 then Ff.fp32.infCode neg
    else if neg then Ff.fp32.nanCode
    else
      -- 2^600 / (m × 2^e), whose square root is 2^300 / √x
      let n := 2 ^ (600 - e).toNat
      let r := isqrt (n / m)
      rnSticky false r 300 (r * r * m == n)

/-- The sum of z^(2i+1) / (2i+1) for i below n, with z = num / den, at scale 2^-s: half of log((1 + z) / (1 − z)). -/
def atanhSum (n : Nat) (num den s : Nat) : Nat :=
  let z := num * 2 ^ s / den
  let z2 := z * z / 2 ^ s
  ((List.range n).foldl (fun (acc : Nat × Nat) i => (acc.1 + acc.2 / (2 * i + 1), acc.2 * z2 / 2 ^ s)) (0, z)).1

/-- ln 2 at scale 2^-s: twice atanh(1 / 3). -/
def ln2 (s : Nat) : Nat := 2 * atanhSum (s / 3 + 1) 1 3 s

/-- LOG1P (R363): the logarithm at scale 2^-520 decides the rounding, since it is irrational. -/
def log1p32 (w : Nat) : Nat :=
  let s := 520
  match f32 w with
  | .nan => Ff.fp32.nanCode
  | .inf neg => if neg then Ff.fp32.nanCode else w
  | .fin neg m e =>
    if m = 0 then w
    else
      let dd := 2 ^ (-e).toNat
      let x := m * 2 ^ e.toNat
      if neg ∧ x > dd then Ff.fp32.nanCode
      else if neg ∧ x = dd then Ff.fp32.infCode true
      else
        let n := if neg then dd - x else dd + x
        if 2 * n ≥ dd ∧ n < 2 * dd then
          -- log((1 + z) / (1 − z)) with z = (n − dd) / (n + dd)
          rnSticky neg (2 * atanhSum 180 x (n + dd) s) s false
        else
          let k := floorLog2 n dd
          let a := n * 2 ^ (-k).toNat
          let b := dd * 2 ^ k.toNat
          let r : Int := k * (ln2 s : Nat) + ((2 * atanhSum 180 (a - b) (a + b) s : Nat) : Int)
          rnSticky (decide (r < 0)) r.natAbs s false

/-- INV of R362. -/
def expInv : Int := (((2 ^ 56 * 2 ^ 160 * 2 + ln2 160) / (2 * ln2 160) : Nat) : Int)
/-- L of R362. -/
def expL : Int := (((ln2 160 + 2 ^ 103) / 2 ^ 104 : Nat) : Int)
/-- T[j] of R362: the 256-th root of 2^(63 × 256 + j) is 2^63 × 2^(j / 256), taken by eight square roots. -/
def expT (j : Nat) : Int := ((((List.range 8).foldl (fun x _ => isqrt x) (2 ^ (63 * 256 + j)) + 1) / 2 : Nat) : Int)

/-- exp32 (R362). -/
def exp32 (w : Nat) : Nat :=
  let x := f32 w
  if x.isNan then Ff.fp32.nanCode
  else if !(x.lt (.ofInt 128)) then Ff.fp32.infCode false
  else if !((XV.ofInt (-160)).lt x) then 0
  else match x with
    | .fin neg m e =>
      let (q, rem, dd) := scaleDiv (m * 2 ^ e.toNat) (2 ^ (-e).toNat) 48
      let q := if 2 * rem > dd ∨ (2 * rem = dd ∧ q % 2 = 1) then q + 1 else q
      let xx : Int := if neg then -(q : Int) else q
      let n : Int := (xx * expInv + 2 ^ 95) >>> 96
      let r : Int := (xx * 2 ^ 16 - n * expL) >>> 2
      let c1 : Int := 0x4000000000000000
      let p : Int := 0x02AAAAAAAAAAAAAB
      let p : Int := 0x0AAAAAAAAAAAAAAB + (p * r) >>> 62
      let p : Int := 0x2000000000000000 + (p * r) >>> 62
      let p : Int := c1 + (p * r) >>> 62
      let p : Int := (p * r) >>> 62
      let ex : Int := c1 + p
      let j := (n % 256).toNat
      let k : Int := (n - j) / 256
      let mm := ((expT j * ex) >>> 62).toNat
      rn32 (.fin false mm (k - 62))
    | _ => Ff.fp32.nanCode

/-- Division of FP32 codes under IEEE 754, rounded to nearest even (R317). -/
def div32 (a b : Nat) : Nat :=
  match f32 a, f32 b with
  | .nan, _ => Ff.fp32.nanCode
  | _, .nan => Ff.fp32.nanCode
  | .inf _, .inf _ => Ff.fp32.nanCode
  | .inf s, .fin t _ _ => Ff.fp32.infCode (s != t)
  | .fin s _ _, .inf t => if s != t then Ff.fp32.signBit else 0
  | .fin s m e, .fin t n f =>
    if n = 0 then (if m = 0 then Ff.fp32.nanCode else Ff.fp32.infCode (s != t))
    else if m = 0 then (if s != t then Ff.fp32.signBit else 0)
    else Ff.fp32.round .nearest 0 (s != t) (m * 2 ^ (e - f).toNat) (n * 2 ^ (f - e).toNat)

/-- powr of R317: square and multiply over the bits of n from the most significant, each multiplication rounded. -/
def powr32 (x n : Nat) : Nat :=
  let k := n.log2
  (List.range k).foldl (fun y i =>
    let sq := rn32 ((f32 y).mul (f32 y))
    if bits n (k - 1 - i) (k - 1 - i) = 1 then rn32 ((f32 sq).mul (f32 x)) else sq) x

/-! ### Micro-operations (R327, R328) -/

namespace Micro

/-- Read a register. -/
def r (m : Micro) (i : Fin 16) : Word32 := Tbl.get 0 m.regs i.val

/-- Write a register. -/
def set (i : Fin 16) (v : Word32) (m : Micro) : Micro := { m with regs := Tbl.set 0 i.val v m.regs }

/-- Write a register with a number modulo 2^32. -/
def setN (i : Fin 16) (v : Nat) (m : Micro) : Micro := m.set i (BitVec.ofNat 32 v)

/-- The FP32 value of a register. -/
def x (m : Micro) (i : Fin 16) : XV := f32 (m.r i).toNat

/-- ADD (R328). -/
def add (t : MicroType) (d a b : Fin 16) (m : Micro) : Micro :=
  match t with
  | .f32 => m.setN d (rnSum [m.x a, m.x b])
  | .i32 => m.set d (m.r a + m.r b)

/-- SUB (R328). -/
def sub (t : MicroType) (d a b : Fin 16) (m : Micro) : Micro :=
  match t with
  | .f32 => m.setN d (rnSum [m.x a, (m.x b).negate])
  | .i32 => m.set d (m.r a - m.r b)

/-- MUL (R328). -/
def mul (t : MicroType) (d a b : Fin 16) (m : Micro) : Micro :=
  match t with
  | .f32 => m.setN d (rnSum [(m.x a).mul (m.x b)])
  | .i32 => m.set d (m.r a * m.r b)

/-- FMA (R328). -/
def fma (d a b c : Fin 16) (m : Micro) : Micro := m.setN d (rnSum [(m.x a).mul (m.x b), m.x c])

/-- Whether the value of register a is below that of b in a type (R360). -/
def less (t : OrdType) (a b : Fin 16) (m : Micro) : Bool :=
  match t with
  | .f32 => (m.x a).lt (m.x b)
  | .i32 => (m.r a).slt (m.r b)
  | .u32 => (m.r a).ult (m.r b)

/-- Whether an operand of FP32 is NaN. -/
def anyNan (t : OrdType) (a b : Fin 16) (m : Micro) : Bool := t == .f32 && ((m.x a).isNan || (m.x b).isNan)

/-- MIN (R328). -/
def min (t : OrdType) (d a b : Fin 16) (m : Micro) : Micro :=
  if m.anyNan t a b then m.setN d Ff.fp32.nanCode else m.set d (if m.less t b a then m.r b else m.r a)

/-- MAX (R328). -/
def max (t : OrdType) (d a b : Fin 16) (m : Micro) : Micro :=
  if m.anyNan t a b then m.setN d Ff.fp32.nanCode else m.set d (if m.less t a b then m.r b else m.r a)

/-- ABS (R328). -/
def abs (t : MicroType) (d a : Fin 16) (m : Micro) : Micro :=
  match t with
  | .f32 => if (m.x a).isNan then m.setN d Ff.fp32.nanCode else m.set d (m.r a &&& 0x7FFFFFFF)
  | .i32 => m.set d (if (m.r a).msb then - m.r a else m.r a)

/-- NEG (R328). -/
def neg (t : MicroType) (d a : Fin 16) (m : Micro) : Micro :=
  match t with
  | .f32 => if (m.x a).isNan then m.setN d Ff.fp32.nanCode else m.set d (m.r a ^^^ 0x80000000)
  | .i32 => m.set d (- m.r a)

/-- The code of a condition in IMM (R328). -/
def condCode : MicroCond → Nat
  | .eq => 0 | .ne => 1 | .lt => 2 | .le => 3 | .gt => 4 | .ge => 5

/-- CMP (R328, R360); what a NaN operand gives is left open. -/
def cmp (t : OrdType) (c : MicroCond) (d a b : Fin 16) (m : Micro) : Micro :=
  let l := m.less t a b
  let g := m.less t b a
  let v : Bool := if m.anyNan t a b then Config.cmpNan (condCode c) (m.r a) (m.r b)
    else match c with
      | .eq => !l && !g | .ne => l || g | .lt => l | .le => !g | .gt => g | .ge => !l
  m.setN d (if v then 1 else 0)

/-- SEL (R328). -/
def sel (d a b c : Fin 16) (m : Micro) : Micro := m.set d (if m.r a ≠ 0 then m.r b else m.r c)

/-- The integer that an exact finite value rounds to. -/
def toInt (md : CvtRound) (neg : Bool) (mm : Nat) (e : Int) : Int :=
  let (q, rem, dd) := scaleDiv (mm * 2 ^ e.toNat) (2 ^ (-e).toNat) 0
  let up : Bool := match md with
    | .nearest => decide (2 * rem > dd) || (decide (2 * rem = dd) && q % 2 == 1)
    | .zero => false
    | .floor => neg && rem != 0
  let q := if up then q + 1 else q
  if neg then -(q : Int) else q

/-- CVT (R328). -/
def cvt (md : CvtMode) (d a : Fin 16) (m : Micro) : Micro :=
  match md with
  | .f32ToI32 r =>
    (match m.x a with
     | .nan => m.set d 0
     | .inf s => m.set d (if s then 0x80000000 else 0x7FFFFFFF)
     | .fin s mm e =>
       let i := toInt r s mm e
       m.set d (if i ≥ 2 ^ 31 then 0x7FFFFFFF else if i < -(2 ^ 31) then 0x80000000 else BitVec.ofInt 32 i))
  | .i32ToF32 => m.setN d (rn32 (.ofInt (m.r a).toInt))
  | .toBf16 => m.setN d (rn32 (Ff.bf16.value (Ff.bf16.ofXV .nearest 0 (m.x a))))
  | .toFp16 => m.setN d (rn32 (Ff.fp16.value (Ff.fp16.ofXV .nearest 0 (m.x a))))

/-- FLOOR (R328). -/
def floor (d a : Fin 16) (m : Micro) : Micro :=
  match m.x a with
  | .nan => m.setN d Ff.fp32.nanCode
  | .inf _ => m.set d (m.r a)
  | .fin s mm e => if mm = 0 then m.set d (m.r a) else m.setN d (rn32 (.ofInt (toInt .floor s mm e)))

/-- BKT (R328, R360). -/
def bkt (d a : Fin 16) (m : Micro) : Micro :=
  let n := if (m.x a).isNan then m.bounds.length else (m.bounds.filter fun b => !((m.x a).lt (f32 b.toNat))).length
  m.setN d n

/-- HASH (R328, R365). -/
def hash (key : BitVec 128) (high : Bool) (d a b : Fin 16) (m : Micro) : Micro :=
  let h := sipHash key (leBytes 4 (m.r a).toNat ++ leBytes 4 (m.r b).toNat)
  m.set d (if high then h.extractLsb' 32 32 else h.extractLsb' 0 32)

/-- EXP (R362). -/
def exp (d a : Fin 16) (m : Micro) : Micro := m.setN d (exp32 (m.r a).toNat)
/-- LOG1P (R363). -/
def log1p (d a : Fin 16) (m : Micro) : Micro := m.setN d (log1p32 (m.r a).toNat)
/-- RSQRT (R363). -/
def rsqrt (d a : Fin 16) (m : Micro) : Micro := m.setN d (rsqrt32 (m.r a).toNat)
/-- LDC (R328). -/
def ldc (d i : Fin 16) (m : Micro) : Micro := m.set d (Tbl.get 0 m.consts i.val)
/-- MOV (R328). -/
def mov (d a : Fin 16) (m : Micro) : Micro := m.set d (m.r a)

/-- Load a register with an integer input, sign-extended (R327). -/
def loadInt (i : Fin 16) (v : Int) (m : Micro) : Micro := m.set i (BitVec.ofInt 32 v)

/-- The value type that a micro-op's T field names. -/
def type2 (t : Nat) : Option MicroType := if t = 0 then some .f32 else if t = 1 then some .i32 else none
/-- The value type of MIN, MAX and CMP that a micro-op's T field names. -/
def type3 (t : Nat) : Option OrdType := if t = 0 then some .f32 else if t = 1 then some .i32 else if t = 2 then some .u32 else none
/-- The condition that IMM names. -/
def condOf (n : Nat) : Option MicroCond :=
  if n = 0 then some .eq else if n = 1 then some .ne else if n = 2 then some .lt else if n = 3 then some .le
  else if n = 4 then some .gt else if n = 5 then some .ge else none

/-- The effect of a micro-op word (R328); none for an encoding that completes MALFORMED. -/
def run (key : BitVec 128) (w : Nat) : Option (Micro → Micro) :=
  let reg (lo : Nat) : Fin 16 := ⟨bits w (lo + 3) lo % 16, Nat.mod_lt _ (by decide)⟩
  let d := reg 6
  let a := reg 10
  let b := reg 14
  let c := reg 18
  let t := bits w 23 22
  let imm := bits w 31 24
  let fp (f : Micro → Micro) : Option (Micro → Micro) := if t = 0 then some f else none
  match bits w 5 0 with
  | 0x00 => some id
  | 0x01 => (type2 t).map fun t => add t d a b
  | 0x02 => (type2 t).map fun t => Micro.sub t d a b
  | 0x03 => (type2 t).map fun t => mul t d a b
  | 0x04 => fp (fma d a b c)
  | 0x05 => (type3 t).map fun t => Micro.min t d a b
  | 0x06 => (type3 t).map fun t => Micro.max t d a b
  | 0x07 => (type2 t).map fun t => abs t d a
  | 0x08 => (type2 t).map fun t => neg t d a
  | 0x09 => (match type3 t, condOf (imm % 8) with | some t, some k => some (cmp t k d a b) | _, _ => none)
  | 0x0A => if t = 3 then none else some (sel d a b c)
  | 0x0B =>
    (match imm % 4 with
     | 0 => (match bits imm 3 2 with
       | 0 => some (cvt (.f32ToI32 .nearest) d a)
       | 1 => some (cvt (.f32ToI32 .zero) d a)
       | 2 => some (cvt (.f32ToI32 .floor) d a)
       | _ => none)
     | 1 => some (cvt .i32ToF32 d a)
     | 2 => some (cvt .toBf16 d a)
     | _ => some (cvt .toFp16 d a))
  | 0x0C => fp (floor d a)
  | 0x0D => fp (bkt d a)
  | 0x0E => some (hash key (imm % 2 = 1) d a b)
  | 0x0F => fp (exp d a)
  | 0x10 => fp (log1p d a)
  | 0x11 => fp (rsqrt d a)
  | 0x12 => some (ldc d ⟨imm % 16, Nat.mod_lt _ (by decide)⟩)
  | 0x13 => some (mov d a)
  | _ => none

end Micro

namespace Dev

/-- Apply a micro-operation to the registers. -/
def onMicro (f : Micro → Micro) (d : Dev) : Dev := { d with micro := f d.micro }

/-- The hash key of a partition (R364). -/
def hashKeyOf (d : Dev) (p : PartId) : BitVec 128 := match Tbl.find d.parts p.toNat with | some x => x.hashKey | none => 0

end Dev

/-! ### Meanings -/

/-- MICRO_NOP (R328). -/
def execMicroNop (s : State) : Host.Outcome State Fault Refusal := next (s.onDev (Dev.onMicro id))
/-- ADD (R328). -/
def execAdd (t : MicroType) (d a b : Fin 16) (s : State) : Host.Outcome State Fault Refusal := next (s.onDev (Dev.onMicro (Micro.add t d a b)))
/-- SUB (R328). -/
def execSub (t : MicroType) (d a b : Fin 16) (s : State) : Host.Outcome State Fault Refusal := next (s.onDev (Dev.onMicro (Micro.sub t d a b)))
/-- MUL (R328). -/
def execMul (t : MicroType) (d a b : Fin 16) (s : State) : Host.Outcome State Fault Refusal := next (s.onDev (Dev.onMicro (Micro.mul t d a b)))
/-- FMA (R328). -/
def execFma (d a b c : Fin 16) (s : State) : Host.Outcome State Fault Refusal := next (s.onDev (Dev.onMicro (Micro.fma d a b c)))
/-- MIN (R328). -/
def execMin (t : OrdType) (d a b : Fin 16) (s : State) : Host.Outcome State Fault Refusal := next (s.onDev (Dev.onMicro (Micro.min t d a b)))
/-- MAX (R328). -/
def execMax (t : OrdType) (d a b : Fin 16) (s : State) : Host.Outcome State Fault Refusal := next (s.onDev (Dev.onMicro (Micro.max t d a b)))
/-- ABS (R328). -/
def execAbs (t : MicroType) (d a : Fin 16) (s : State) : Host.Outcome State Fault Refusal := next (s.onDev (Dev.onMicro (Micro.abs t d a)))
/-- NEG (R328). -/
def execNeg (t : MicroType) (d a : Fin 16) (s : State) : Host.Outcome State Fault Refusal := next (s.onDev (Dev.onMicro (Micro.neg t d a)))
/-- CMP (R328). -/
def execCmp (t : OrdType) (c : MicroCond) (d a b : Fin 16) (s : State) : Host.Outcome State Fault Refusal := next (s.onDev (Dev.onMicro (Micro.cmp t c d a b)))
/-- SEL (R328). -/
def execSel (d a b c : Fin 16) (s : State) : Host.Outcome State Fault Refusal := next (s.onDev (Dev.onMicro (Micro.sel d a b c)))
/-- CVT (R328). -/
def execCvt (m : CvtMode) (d a : Fin 16) (s : State) : Host.Outcome State Fault Refusal := next (s.onDev (Dev.onMicro (Micro.cvt m d a)))
/-- FLOOR (R328). -/
def execFloor (d a : Fin 16) (s : State) : Host.Outcome State Fault Refusal := next (s.onDev (Dev.onMicro (Micro.floor d a)))
/-- BKT (R328). -/
def execBkt (d a : Fin 16) (s : State) : Host.Outcome State Fault Refusal := next (s.onDev (Dev.onMicro (Micro.bkt d a)))
/-- HASH (R328, R365). -/
def execHash (high : Bool) (d a b : Fin 16) (s : State) : Host.Outcome State Fault Refusal := next (s.onDev (fun dev => dev.onMicro (Micro.hash (dev.hashKeyOf dev.micro.part) high d a b)))
/-- EXP (R362). -/
def execExp (d a : Fin 16) (s : State) : Host.Outcome State Fault Refusal := next (s.onDev (Dev.onMicro (Micro.exp d a)))
/-- LOG1P (R363). -/
def execLog1p (d a : Fin 16) (s : State) : Host.Outcome State Fault Refusal := next (s.onDev (Dev.onMicro (Micro.log1p d a)))
/-- RSQRT (R363). -/
def execRsqrt (d a : Fin 16) (s : State) : Host.Outcome State Fault Refusal := next (s.onDev (Dev.onMicro (Micro.rsqrt d a)))
/-- LDC (R328). -/
def execLdc (d i : Fin 16) (s : State) : Host.Outcome State Fault Refusal := next (s.onDev (Dev.onMicro (Micro.ldc d i)))
/-- MOV (R328). -/
def execMov (d a : Fin 16) (s : State) : Host.Outcome State Fault Refusal := next (s.onDev (Dev.onMicro (Micro.mov d a)))

end Sys2Proof.Machine
end

