-- ==== Sys2Proof/Machine/Desc.lean ====
section
/-! DEFINITION. Descriptors (R277 to R281, R305 to R308): the fields of the common header and of each operation, the checks of their values,
the units, passes and SRAM need of an operation, and the composition of chains and local buffers (R290, R312). -/

namespace Sys2Proof.Machine

namespace Desc

/-- An 8-bit field of a descriptor. -/
def u8 (b : List Byte) (i : Nat) : Nat := leAt b i 1
@[inherit_doc u8] def u16 (b : List Byte) (i : Nat) : Nat := leAt b i 2
@[inherit_doc u8] def u32 (b : List Byte) (i : Nat) : Nat := leAt b i 4
@[inherit_doc u8] def u64 (b : List Byte) (i : Nat) : Nat := leAt b i 8

/-- Whether bytes lo to hi are 0 (R305). -/
def zero (b : List Byte) (lo hi : Nat) : Bool := (sub b lo (hi - lo + 1)).all fun x => x == 0

/-- OPCODE (R278). -/
def op (b : List Byte) : Nat := u8 b 0
/-- CHAIN (R277). -/
def chain (b : List Byte) : Bool := u8 b 1 % 2 == 1
/-- LAUNCH_EN (R277). -/
def launchEn (b : List Byte) : Bool := bits (u8 b 1) 1 1 == 1
/-- TAG (R277). -/
def tag (b : List Byte) : BitVec 16 := BitVec.ofNat 16 (u16 b 2)
/-- The rounding of the descriptor (R277, R307). -/
def rnd (b : List Byte) : Rnd := ⟨u8 b 6, u64 b 32⟩
/-- The time budget in µs (R277). -/
def budget (b : List Byte) : Nat := if u32 b 8 = 0 then 100000 else u32 b 8

/-- Whether an operation runs in units on cores (R308). -/
def inUnits (o : Nat) : Bool := (1 ≤ o && o ≤ 7) || (0x10 ≤ o && o ≤ 0x13)
/-- Whether an operation is run by the front end (R308); RESTORE_STATE runs units of its own. -/
def front (o : Nat) : Bool := o == 0x20 || o == 0x21 || o == 0x30 || o == 0x31 || o == 0x32 || o == 0x38 || o == 0x39
/-- Whether an operation can be paused (R339). -/
def pausable (o : Nat) : Bool := inUnits o && o != 0x11

/-- Whether the stream table is to be fetched (R281). -/
def hasStreams (b : List Byte) : Bool := decide (1 ≤ u8 b 7 ∧ u8 b 7 ≤ 4 ∧ u64 b 24 % 32 = 0)

/-- The common header carries no reserved value and none out of range (R277). -/
def headerOk (b : List Byte) : Bool :=
  (inUnits (op b) || front (op b)) && decide (u8 b 1 ≤ 3) && decide (u16 b 4 ≤ 512) && decide (u8 b 6 ≤ 2) && decide (u8 b 7 ≤ 4)
    && (u8 b 7 == 0 || (u64 b 24 % 32 == 0 && decide (u64 b 24 < 2 ^ 63))) && zero b 12 15 && zero b 40 47

/-- A stream table carries no reserved value and none out of range (R280). -/
def tableOk (t : List Byte) (n : Nat) : Bool :=
  (List.range n).all fun i =>
    let e := sub t (32 * i) 32
    let st := sInt 64 (u64 e 8)
    decide (u64 e 0 < 2 ^ 63) && decide (-(2 ^ 47) ≤ st ∧ st < 2 ^ 47) && decide (6 ≤ u8 e 20 ∧ u8 e 20 ≤ 30) && decide (u8 e 21 ≤ 16)
      && decide (u8 e 22 ≤ 1) && zero e 23 31

/-- The streams that a table declares (R101, R280). -/
def streams (t : List Byte) (n : Nat) : List StreamSt :=
  (List.range n).map fun i =>
    let e := sub t (32 * i) 32
    { base := BitVec.ofNat 64 (u64 e 0), stride := sInt 64 (u64 e 8), count := u32 e 16 + 1, tileLog2 := u8 e 20, depth := u8 e 21,
      isList := u8 e 22 == 1, wanted := 0, addrs := [], tile := ⟨0, 0⟩, page := ⟨(0, 0, false), (0, 0, false)⟩, reader := ⟨none, none⟩ }

/-! ### Operands -/

/-- Whether an operand address is virtual (R279). -/
def isVa (a : Nat) : Bool := decide (a < 2 ^ 63)
/-- The local buffer that an operand address names (R279). -/
def lb (a : Nat) : Option Nat := if a ≥ 2 ^ 63 then some (a % 8) else none
/-- An operand that may be virtual or a local buffer (R279). -/
def vaOrLb (a : Nat) : Bool := decide (a < 2 ^ 63 + 8)

/-- A count in a range. -/
def within (lo x hi : Nat) : Bool := decide (lo ≤ x ∧ x ≤ hi)
/-- A row format (R306). -/
def rowFmt (f : Nat) : Bool := decide (f ≤ 0x10) && f != 0x0D && f != 0x0E
/-- A finite FP32 code. -/
def finite (w : Nat) : Bool := match f32 w with | .fin _ _ _ => true | _ => false
/-- An element format of MAP (R326). -/
def mapFmt (f : Nat) : Bool := decide (f ≤ 4) || f == 0x0C || f == 0x0D
/-- Bytes of an element of a MAP format. -/
def fmtSize (f : Nat) : Nat := rowEB f 1

/-- The inputs of a MAP. -/
def mapIns (b : List Byte) : List (Nat × Nat) := (List.range (u8 b 113)).map fun k => (u64 b (64 + 8 * k), u8 b (115 + k))
/-- The outputs of a MAP. -/
def mapOuts (b : List Byte) : List (Nat × Nat) := (List.range (u8 b 114)).map fun k => (u64 b (88 + 8 * k), u8 b (118 + k))

/-- A clause of FILTER is valid (R324). -/
def clauseOk (b : List Byte) (at_ : Nat) : Bool :=
  let off := u16 b at_
  let ty := u8 b (at_ + 2)
  let cmp := u8 b (at_ + 3)
  let size := if ty = 0 ∨ ty = 2 ∨ ty = 4 then 4 else if ty = 5 then 2 else 8
  decide (ty ≤ 5) && decide (cmp ≤ 7) && zero b (at_ + 4) (at_ + 7) && !(decide (ty ≥ 4) && decide (cmp ≥ 6))
    && off % size == 0 && decide (off + size ≤ u16 b 80)

/-- The fields of the operation are valid (R305 to R339). -/
def fieldsOk (b : List Byte) : Bool :=
  match op b with
  | 0x01 =>
    isVa (u64 b 48) && isVa (u64 b 56) && (u8 b 116 == 0 || isVa (u64 b 64)) && (u8 b 114 != 3 || isVa (u64 b 72)) && vaOrLb (u64 b 80)
      && within 1 (u64 b 88) (2 ^ 40) && decide (u32 b 96 ≥ 1) && (u8 b 116 == 1 || decide (u32 b 100 ≥ 1)) && within 1 (u32 b 104) 4096
      && rowFmt (u8 b 112) && rowDimOk (u8 b 112) (u32 b 104) && decide (u32 b 108 ≥ rowBytes (u8 b 112) (u32 b 104)) && decide (u8 b 113 ≤ 2)
      && decide (u8 b 114 ≤ 3) && decide (u8 b 115 ≤ 1) && decide (u8 b 116 ≤ 1) && zero b 117 127
  | 0x02 =>
    isVa (u64 b 48) && isVa (u64 b 56) && isVa (u64 b 64) && (decide (u8 b 127 ≤ 1) || isVa (u64 b 72)) && within 1 (u64 b 80) (2 ^ 40)
      && decide (u32 b 88 ≥ 1) && within 1 (u32 b 92) 4096 && decide (u8 b 124 ≤ 2) && decide (u8 b 125 ≤ 2) && decide (u8 b 126 ≤ 1)
      && decide (u8 b 127 ≤ 3) && decide (u32 b 96 ≥ rowBytes (u8 b 124) (u32 b 92)) && (u8 b 127 != 2 || decide (u32 b 100 ≥ 4))
      && (u8 b 127 != 3 || (decide (u32 b 100 ≥ 8 * u32 b 92) && within 1 (u32 b 120) (2 ^ 31 - 1)))
      && finite (u32 b 104) && finite (u32 b 108) && finite (u32 b 112) && finite (u32 b 116)
  | 0x03 =>
    isVa (u64 b 48) && isVa (u64 b 56) && isVa (u64 b 64) && zero b 72 79 && within 1 (u32 b 80) 1048576 && finite (u32 b 84)
      && within 1 (u8 b 88) 128 && decide (u8 b 89 ≥ 1) && u8 b 88 % u8 b 89 == 0 && decide (u8 b 88 / u8 b 89 ≤ 16)
      && within 1 (u16 b 90) 256 && decide (u8 b 92 ≤ 2) && (decide (u8 b 93 ≤ 6) || u8 b 93 == 0x0A) && rowDimOk (u8 b 93) (u16 b 90)
      && decide (u8 b 94 ≤ 2) && zero b 95 127
  | 0x04 =>
    isVa (u64 b 48) && isVa (u64 b 56) && isVa (u64 b 64) && within 1 (u64 b 80) (2 ^ 40) && within 1 (u32 b 88) 4096 && rowFmt (u8 b 99)
      && rowDimOk (u8 b 99) (u32 b 88) && decide (u32 b 92 ≥ rowBytes (u8 b 99) (u32 b 88)) && within 1 (u16 b 96) 1024 && within 1 (u8 b 98) 64
      && (decide (u8 b 100 ≤ 4) || u8 b 100 == 0x0C) && decide (u8 b 101 ≤ 1) && zero b 102 127
  | 0x05 =>
    isVa (u64 b 48) && isVa (u64 b 56) && (u8 b 94 == 0 || isVa (u64 b 64)) && isVa (u64 b 72) && (u8 b 96 == 0 || isVa (u64 b 80))
      && decide (u32 b 88 ≥ 1) && within 4 (u8 b 92) 40 && within 4 (u8 b 93) 8 && decide (u8 b 94 ≤ 1) && decide (u8 b 96 ≤ 1) && zero b 97 127
  | 0x06 =>
    vaOrLb (u64 b 48) && (u8 b 82 % 2 == 0 || isVa (u64 b 56)) && isVa (u64 b 64) && within 1 (u64 b 72) (2 ^ 40) && within 8 (u16 b 80) 4096
      && u16 b 80 % 8 == 0 && decide (u8 b 82 ≤ 3) && decide (u8 b 83 ≤ 2) && zero b 84 87 && zero b 120 127
      && (decide (u8 b 83 < 1) || clauseOk b 88) && (decide (u8 b 83 < 2) || clauseOk b 104)
  | 0x07 =>
    isVa (u64 b 48) && isVa (u64 b 56) && within 1 (u64 b 104) (2 ^ 48) && within 1 (u8 b 112) 64 && within 1 (u8 b 113) 3 && within 1 (u8 b 114) 2
      && ((mapIns b).all fun x => vaOrLb x.1 && mapFmt x.2) && ((mapOuts b).all fun x => vaOrLb x.1 && mapFmt x.2) && decide (u16 b 120 ≤ 256)
      && zero b 122 127
  | 0x10 =>
    vaOrLb (u64 b 48) && isVa (u64 b 56) && within 1 (u64 b 64) (2 ^ 48) && zero b 74 127
      && !(isVa (u64 b 48) && decide (u64 b 48 < u64 b 56 + u64 b 64 ∧ u64 b 56 < u64 b 48 + u64 b 64))
  | 0x11 =>
    isVa (u64 b 48) && isVa (u64 b 56) && within 1 (u64 b 64) (2 ^ 48) && zero b 74 127
      && !decide (u64 b 48 < u64 b 56 + u64 b 64 ∧ u64 b 56 < u64 b 48 + u64 b 64)
      && u64 b 48 % 65536 == 0 && u64 b 56 % 65536 == 0 && u64 b 64 % 65536 == 0
  | 0x12 => isVa (u64 b 48) && within 1 (u64 b 56) (2 ^ 48) && (u8 b 72 == 1 || u8 b 72 == 2 || u8 b 72 == 4 || u8 b 72 == 8) && zero b 73 127
  | 0x13 =>
    isVa (u64 b 48) && (u8 b 70 == 0 || isVa (u64 b 56)) && decide (u32 b 64 ≥ 1) && decide (u8 b 68 ≤ 9) && u8 b 68 != 2 && decide (u8 b 69 ≤ 1)
      && decide (u8 b 70 ≤ 1) && zero b 71 127
  | 0x20 => decide (u16 b 48 < 4096) && zero b 50 51 && decide (u64 b 56 < 2 ^ 48) && zero b 64 127
  | 0x21 =>
    isVa (u64 b 48) && within 1 (u64 b 56) (2 ^ 48) && decide (u8 b 64 ≤ 4) && zero b 65 127
      && (u8 b 64 != 4 || (u64 b 48 % 65536 == 0 && u64 b 56 % 65536 == 0))
  | 0x30 => decide (u8 b 48 ≤ 1) && zero b 49 127
  | 0x31 =>
    decide (u8 b 64 ≤ 3) && decide (u8 b 65 ≤ 1) && zero b 74 127 && (decide (u8 b 64 ≥ 2) || (isVa (u64 b 48) && u64 b 48 % 8 == 0))
      && (u8 b 64 != 3 || decide (u16 b 66 ≤ 2047)) && (u8 b 64 != 2 || decide (u16 b 68 ≤ 4095))
  | 0x32 => true
  | 0x38 => isVa (u64 b 48) && u64 b 48 % 4096 == 0 && zero b 66 127
  | 0x39 => isVa (u64 b 48) && u64 b 48 % 4096 == 0 && zero b 56 127
  | _ => false

/-- PROG and AUX of a MAP are valid (R326, R328). -/
def mapOk (b prog aux : List Byte) : Bool :=
  let bnd := (List.range (u16 b 120)).map fun i => f32 (leAt aux (64 + 4 * i) 4)
  ((List.range (u8 b 112)).all fun i => (Micro.run 0 (leAt prog (4 * i) 4)).isSome)
    && (bnd.all fun x => !x.isNan) && ((List.range (bnd.length - 1)).all fun i => !((bnd.getD (i + 1) .nan).lt (bnd.getD i .nan)))

/-! ### Units (R286, R308) -/

/-- NU of SCATTER_UPDATE and HASH_PROBE (R316, R323). -/
def groups (n : Nat) : Nat := min 256 (ceilDiv n 4096)

/-- The units of each pass (R308). -/
def passes (b : List Byte) : List Nat :=
  match op b with
  | 0x01 => [ceilDiv (u32 b 96) 8]
  | 0x02 => [groups (u32 b 88)]
  | 0x03 => let n := u8 b 89 * ceilDiv (u32 b 80) 1024; [n, n, u8 b 89]
  | 0x04 => [ceilDiv (u64 b 80) 65536, 1]
  | 0x05 => [groups (u32 b 88)]
  | 0x06 => let n := ceilDiv (u64 b 72) 16384; [n, n]
  | 0x07 => [ceilDiv (u64 b 104) 65536]
  | 0x10 => [ceilDiv (u64 b 64) (2 ^ 20)]
  | 0x11 => let n := ceilDiv (u64 b 64) (2 ^ 20); [n, n]
  | 0x12 => [ceilDiv (u64 b 56) (2 ^ 20)]
  | 0x13 => [ceilDiv (u32 b 64) 4096]
  | _ => []

/-- The SRAM need of a unit in bytes (R308). -/
def need (b : List Byte) : Nat :=
  match op b with
  | 0x01 => 768 * u32 b 104 + 32768
  | 0x02 => 1536 * u32 b 92 + 65536
  | 0x03 => 96 * (u8 b 88 / u8 b 89) * (u16 b 90 + 1) + 65536
  | 0x04 => 16 * u8 b 98 * u16 b 96 + 65536
  | _ => if inUnits (op b) then 65536 else 0

/-! ### Local buffers and chains (R290, R312) -/

/-- The local buffers that a member reads. -/
def lbReads (b : List Byte) : List Nat :=
  match op b with
  | 0x06 => (lb (u64 b 48)).toList
  | 0x07 => (mapIns b).filterMap fun x => lb x.1
  | 0x10 => (lb (u64 b 48)).toList
  | _ => []

/-- The local buffers that a member writes. -/
def lbWrites (b : List Byte) : List Nat :=
  match op b with
  | 0x01 => (lb (u64 b 80)).toList
  | 0x07 => (mapOuts b).filterMap fun x => lb x.1
  | _ => []

/-- What a producer leaves in a local buffer: the format, its elements in all and in a unit, its units, and the bytes and number of its
rows (0 for MAP). -/
structure LbInfo where
  fmt   : Nat
  total : Nat
  slice : Nat
  units : Nat
  row   : Nat
  rows  : Nat
deriving DecidableEq, Repr

/-- How a member is divided: the units of each pass, and the elements, records or bytes in a unit. -/
structure Shape where
  passes : List Nat
  slice  : Nat
deriving DecidableEq, Repr

/-- The elements, records or bytes of a unit of a member outside a chain. -/
def ownSlice (b : List Byte) : Nat :=
  match op b with
  | 0x01 => 8 * u32 b 104 | 0x06 => 16384 | 0x07 => 65536 | _ => 2 ^ 20

/-- The shape of a member after the buffers written before it; none where a buffer was not written or does not fit (R312). -/
def shape (b : List Byte) (lbs : Tbl LbInfo) : Option Shape :=
  let fits (x : LbInfo) (f : Nat) : Option Shape :=
    match op b with
    | 0x07 => if x.total = u64 b 104 ∧ x.fmt = f then some ⟨[x.units], x.slice⟩ else none
    | 0x06 => if x.row ≠ 0 ∧ x.rows = u64 b 72 ∧ x.row = u16 b 80 then some ⟨[x.units], x.slice * fmtSize x.fmt / x.row⟩ else none
    | _ => if x.total * fmtSize x.fmt = u64 b 64 then some ⟨[x.units], x.slice * fmtSize x.fmt⟩ else none
  let ins : List (Nat × Nat) := match op b with
    | 0x07 => (mapIns b).filterMap fun x => (lb x.1).map fun n => (n, x.2)
    | _ => (lbReads b).map fun n => (n, 0)
  let step (acc : Option (Shape × Bool)) (x : Nat × Nat) : Option (Shape × Bool) :=
    match acc, Tbl.find lbs x.1 with
    | some (s, first), some y =>
      (match fits y x.2 with
       | some t => if first || t == s then some (t, false) else none
       | none => none)
    | _, _ => none
  (ins.foldl step (some (⟨passes b, ownSlice b⟩, true))).map fun x => x.1

/-- The buffers after a member of a given shape. -/
def lbsAfter (b : List Byte) (s : Shape) (lbs : Tbl LbInfo) : Tbl LbInfo :=
  match op b with
  | 0x01 =>
    (match lb (u64 b 80) with
     | some n => Tbl.put n ⟨u8 b 113, u32 b 96 * u32 b 104, 8 * u32 b 104, ceilDiv (u32 b 96) 8, rowBytes (u8 b 113) (u32 b 104), u32 b 96⟩ lbs
     | none => lbs)
  | 0x07 => (mapOuts b).foldl (fun l x => match lb x.1 with | some n => Tbl.put n ⟨x.2, u64 b 104, s.slice, s.passes.sum, 0, 0⟩ l | none => l) lbs
  | _ => lbs

/-- The shapes of the members of a chain. -/
def shapesFrom : List (List Byte) → Tbl LbInfo → Option (List Shape)
  | [], _ => some []
  | b :: t, lbs =>
    match shape b lbs with
    | none => none
    | some s => (shapesFrom t (lbsAfter b s lbs)).map fun l => s :: l

/-- Every buffer that a member writes is read by a later member (R312). -/
def allRead : List (List Byte) → Bool
  | [] => true
  | b :: t => ((lbWrites b).all fun n => t.any fun c => (lbReads c).contains n) && allRead t

/-- The shapes of a chain or of a single descriptor, or none when its composition is MALFORMED (R281, R290, R312). -/
def shapes (l : List (List Byte)) : Option (List Shape) :=
  if !allRead l then none
  else
    match shapesFrom l [] with
    | none => none
    | some ss => if ss.all fun s => s.passes.sum == (match ss.head? with | some x => x.passes.sum | none => 0) then some ss else none

/-- The bytes of the local buffers that a member writes for a unit. -/
def lbBytes (b : List Byte) (s : Shape) : Nat :=
  match op b with
  | 0x01 => if (lbWrites b).isEmpty then 0 else 8 * rowBytes (u8 b 113) (u32 b 104)
  | 0x07 => ((mapOuts b).filter fun x => (lb x.1).isSome).foldl (fun n x => n + s.slice * fmtSize x.2) 0
  | _ => 0

/-- The SRAM need of an operation or chain (R287, R290): the greatest need of a member and the local buffers. -/
def needAll (l : List (List Byte)) (ss : List Shape) : Nat :=
  (l.map need).foldl max 0 + ((l.zip ss).map fun x => lbBytes x.1 x.2).sum

end Desc

end Sys2Proof.Machine
end

