-- ==== Sys2Proof/Machine/Keys.lean ====
section
/-! DEFINITION. Keys and ciphers of the security engine (R186, R487, R507, R508): the key derivation, the P-521 key pair of the device, and the
encryption of lines and granules. Hash, block cipher and random generator are the constants of Config. -/

namespace Sys2Proof.Machine

/-! ### HMAC and the key derivation (R487) -/

/-- The bytes of a text. -/
def textBytes (s : String) : List Byte := s.toList.map fun c => BitVec.ofNat 8 c.toNat

/-- The n low bytes of a number, most significant first (R11). -/
def beBytes (n v : Nat) : List Byte := (leBytes n v).reverse

/-- The 64 bytes of a digest, in the order in which SHA-512 gives them. -/
def digestBytes (x : Digest) : List Byte := leBytes 64 x.toNat

/-- HMAC-SHA-512 (R487), after its own standard. PRESUMED (log 73). -/
def hmac512 (key msg : List Byte) : List Byte :=
  let k0 := if key.length > 128 then digestBytes (Config.sha512 key) else key
  let k := k0 ++ List.replicate (128 - k0.length) 0
  let pad (c : Byte) : List Byte := k.map (· ^^^ c)
  digestBytes (Config.sha512 (pad 0x5C ++ digestBytes (Config.sha512 (pad 0x36 ++ msg))))

/-- The counter-mode KDF of SP 800-108 with HMAC-SHA-512 (R487): its first n bytes. PRESUMED (log 73): a 32-bit counter and length, big-endian. -/
def kdf (key : List Byte) (label : String) (context : List Byte) (n : Nat) : List Byte :=
  ((List.range (ceilDiv n 64)).flatMap fun i =>
    hmac512 key (beBytes 4 (i + 1) ++ textBytes label ++ [0] ++ context ++ beBytes 4 (8 * n))).take n

/-! ### P-521 (R487), after its own standard -/

/-- The field of P-521. -/
def p521P : Nat := 2 ^ 521 - 1

/-- The order of the P-521 group, n of R487. -/
def p521N : Nat :=
  0x01FFFFFFFFFFFFFFFFFFFFFFFFFFFFFFFFFFFFFFFFFFFFFFFFFFFFFFFFFFFFFFFFFA51868783BF2F966B7FCC0148F709A5D03BB5C9B8899C47AEBB6FB71E91386409

/-- The base point of P-521, G of R487. -/
def p521G : Nat × Nat :=
  (0x00C6858E06B70404E9CD9E3ECB662395B4429C648139053FB521F828AF606B4D3DBAA14B5E77EFE75928FE1DC127A2FFA8DE3348B3C1856A429BF97E7E31C2E5BD66,
   0x011839296A789A3BC0045C8A5FB42C7D1BD998F54449579B446817AFBD17273E662C97EE72995EF42640C550B9013FAD0761353C7086A272C24088BE94769FD16650)

/-- A power modulo m, of an exponent below 2^521. -/
def powMod (b e m : Nat) : Nat :=
  ((List.range 521).foldl (fun (s : Nat × Nat) i => (if e / 2 ^ i % 2 = 1 then s.1 * s.2 % m else s.1, s.2 * s.2 % m)) (1, b % m)).1

/-- The inverse modulo a prime. -/
def invMod (a m : Nat) : Nat := powMod a (m - 2) m

/-- The sum of two points of P-521; none is the point at infinity. -/
def p521Add (a b : Option (Nat × Nat)) : Option (Nat × Nat) :=
  match a, b with
  | none, b => b
  | a, none => a
  | some (x1, y1), some (x2, y2) =>
    let p := p521P
    if x1 = x2 ∧ (y1 + y2) % p = 0 then none
    else
      let l := if x1 = x2 then (3 * x1 * x1 + (p - 3)) * invMod (2 * y1) p % p else (y2 + (p - y1)) * invMod (x2 + (p - x1)) p % p
      let x := (l * l + (p - x1) + (p - x2)) % p
      some (x, (l * (x1 + (p - x)) + (p - y1)) % p)

/-- A multiple of a point, of a number below 2^521. -/
def p521Mul (k : Nat) (a : Nat × Nat) : Option (Nat × Nat) :=
  ((List.range 521).foldl (fun (s : Option (Nat × Nat) × Option (Nat × Nat)) i =>
    (if k / 2 ^ i % 2 = 1 then p521Add s.1 s.2 else s.1, p521Add s.2 s.2)) (none, some a)).1

/-- The private scalar d of the identity key (R487): K is 576 bits of the KDF keyed by UDS. -/
def identityScalar (uds : BitVec 512) : Nat :=
  beNat (kdf (leBytes 64 uds.toNat) "JX7400 identity" [] 72) % (p521N - 1) + 1

/-- The public key d × G of a private scalar (R487). -/
def publicKey (d : Nat) : Nat × Nat := (p521Mul d p521G).getD (0, 0)

/-- An ECDSA signature on P-521 over a digest with a nonce k: r and s, each as 66 bytes (R487). -/
def p521Sign (d : Nat) (z : Digest) (k : Nat) : List Byte :=
  let r := match p521Mul k p521G with | some (x, _) => x % p521N | none => 0
  let s := invMod k p521N * (beNat (digestBytes z) + r * d) % p521N
  beBytes 66 r ++ beBytes 66 s

/-! ### Key slots and memory encryption (R507, R508) -/

/-- A key that a slot derives from its secret (R507), given by its draw: the label, the context and the bytes. -/
def slotKey (secret : Nat) (label : String) (context : List Byte) (n : Nat) : List Byte :=
  kdf (leBytes 32 (Config.slotSecret secret).toNat) label context n

/-- The encryption of a line of pool memory under a slot secret (R508): its tweak is its line number. -/
def dramCipher (secret : Nat) (line : Nat) : Equiv.Perm Line :=
  Config.xtsLine (BitVec.ofNat 512 (leNat (slotKey secret "JX7400 dram xts" [] 64))) (BitVec.ofNat 128 line)

/-- What a reader or writer under one slot secret makes of the plain text under another (R32, R508): a line written under another key does not
come back in clear. -/
def rekey (held now line : Nat) (x : Line) : Line := if held = now then x else (dramCipher now line).symm (dramCipher held line x)

/-- The context of the thatch labels (R507): TG. -/
def thatchContext (tg : Word32) : List Byte := leBytes 4 tg.toNat

/-- The encryption of a granule on the drives (R186, R507, R508): its data unit is 16 × B + g. -/
def thatchCipher (secret : Nat) (tg : Word32) (blk g : Nat) : Equiv.Perm (BitVec 32768) :=
  Config.xtsGranule (BitVec.ofNat 512 (leNat (slotKey secret "JX7400 thatch xts" (thatchContext tg) 64))) (BitVec.ofNat 128 (16 * blk + g))

/-- TAG of a granule (R186, R508): the GMAC over the ciphertext and the POISON field, with the nonce of B, g and EPOCH. -/
def thatchTag (secret : Nat) (tg : Word32) (blk g epoch : Nat) (cipher : List Byte) (bad : Word64) : List Byte :=
  leBytes 16 (Config.gmac (BitVec.ofNat 256 (leNat (slotKey secret "JX7400 thatch gmac" (thatchContext tg) 32)))
    (BitVec.ofNat 96 (leNat (leBytes 4 blk ++ leBytes 1 g ++ leBytes 4 epoch ++ leBytes 3 0))) (cipher ++ leBytes 8 bad.toNat)).toNat

/-- The 4,128 stored bytes of a granule (R186): ciphertext, TAG, POISON and the reserved bytes. -/
def sealGranule (secret : Nat) (tg : Word32) (blk g epoch : Nat) (plain : List Byte) (bad : Word64) : List Byte :=
  let c := leBytes 4096 (thatchCipher secret tg blk g (BitVec.ofNat 32768 (leNat plain))).toNat
  c ++ thatchTag secret tg blk g epoch c bad ++ leBytes 8 bad.toNat ++ List.replicate 8 0

/-- The plain bytes and the POISON field of stored bytes, when TAG verifies (R186). -/
def openStored (secret : Nat) (tg : Word32) (blk g epoch : Nat) (stored : List Byte) : Option (List Byte × Word64) :=
  let c := stored.take 4096
  let bad := BitVec.ofNat 64 (leAt stored 4112 8)
  if sub stored 4096 16 = thatchTag secret tg blk g epoch c bad then
    some (leBytes 4096 ((thatchCipher secret tg blk g).symm (BitVec.ofNat 32768 (leNat c))).toNat, bad)
  else none

end Sys2Proof.Machine
end

