-- ==== Sys2Proof/Machine/Packet.lean ====
section
/-! DEFINITION. Fabric packets as bytes: the header (R441) and the type words (R443). -/

namespace Sys2Proof.Machine

/-- The node ID of the companion; 0xFFFF when none is set (R654). -/
def Dev.compNode (d : Dev) : NodeId := (d.reg 0xD104).setWidth 16

/-- The bytes of a packet on a link (R441). -/
def pktBytes (p : Packet) : List Byte :=
  leBytes 2 p.dst.toNat ++ leBytes 2 p.src.toNat ++ leBytes 1 p.opc.toNat
    ++ leBytes 1 ((if p.pv then 1 else 0) + (if p.poison then 2 else 0) + (if p.enc then 4 else 0) + 8 * p.arg.toNat)
    ++ leBytes 2 p.tag.toNat ++ leBytes 8 p.word.toNat ++ p.payload

/-- The packet that bytes spell; none when they are shorter than a header (R441). -/
def pktOf (b : List Byte) : Option Packet :=
  if b.length < 16 then none
  else
    let ctl := leAt b 5 1
    some { dst := BitVec.ofNat 16 (leAt b 0 2), src := BitVec.ofNat 16 (leAt b 2 2), opc := BitVec.ofNat 8 (leAt b 4 1),
           pv := bits ctl 0 0 = 1, poison := bits ctl 1 1 = 1, enc := bits ctl 2 2 = 1, arg := BitVec.ofNat 5 (bits ctl 7 3),
           tag := BitVec.ofNat 16 (leAt b 6 2), word := BitVec.ofNat 64 (leAt b 8 8), payload := b.drop 16 }

/-- A plain packet from this node. -/
def mkPkt (d : Dev) (dst : NodeId) (opc : BitVec 8) (tag : Tag) (word : Nat) (payload : List Byte := []) (arg : BitVec 5 := 0) :
    Packet :=
  { dst := dst, src := d.nodeId, opc := opc, pv := false, poison := false, enc := false, arg := arg, tag := tag,
    word := BitVec.ofNat 64 word, payload := payload }

/-- The Answer layout of WORD (R443). -/
def answerWord (st : Status) (data fwd wbPending : Bool) (hint : Nat) (reserved : Bool) (retry : Nat) : Nat :=
  st.code.toNat + (if data then 2 ^ 8 else 0) + (if fwd then 2 ^ 9 else 0) + (if wbPending then 2 ^ 10 else 0)
    + hint % 65536 * 2 ^ 11 + (if reserved then 2 ^ 27 else 0) + retry % 16 * 2 ^ 28

/-- The Snoop layout of WORD (R443). -/
def snoopWord (line : LineNo) (reqNode : NodeId) (retry : Nat) : Nat :=
  retry % 16 + line.toNat * 64 + reqNode.toNat * 2 ^ 48

/-- The Request layout of WORD (R443). -/
def requestWord (offset : Nat) (retry : Nat) (riss : Bool) (spart : PartId) : Nat :=
  (if riss then 1 else 0) + offset / 4 * 4 % 2 ^ 48 + retry % 16 * 2 ^ 48 + spart.toNat * 2 ^ 52

/-- The Circuit layout of WORD (R443). -/
def circuitWord (rlabel slabel cause : Nat) (up : Bool) (st : Nat) : Nat :=
  rlabel % 1024 + slabel % 1024 * 2 ^ 10 + cause % 8 * 2 ^ 20 + (if up then 2 ^ 23 else 0) + st % 256 * 2 ^ 24

end Sys2Proof.Machine
end

