-- ==== Sys2Proof/Machine/Link.lean ====
section
/-! DEFINITION. Optical ports and the link layer: frames, sequence numbers, acknowledgement, retransmission, credits, and link resets
(R396 to R440). -/

namespace Sys2Proof.Machine

/-- A virtual channel that holds no credit and no slot. -/
def vcReset : VcState :=
  { credits := 0, cretSeen := 0, cretOwn := 0, unreported := 0, slots := 0, leaked := 0, initFar := 0, free := 0, openPkt := none, dryAt := 0,
    init := 0 }

/-- The state of a port at cold reset; its EPOCH is drawn then (R430). -/
def portReset : Port :=
  { state := .off, stepAt := 0, cause := 0, attempts := 0, width := 3, half := false, leader := false, goodRx := 0, goodTx := 0,
    badRx := 0, used := 0, askWidth := none, askHalf := false, trigger := none, peerReset := false, nextSeq := 0, expected := 0,
    replay := [], reorder := [], gaps := [], replays := 0, replayE := none, sinceAck := 0, ackSince := none, ackDue := false,
    statusAt := 0, dataAt := 0, mark := 0, statusSeen := false, vcs := [], txq := [], rxq := [], epoch := 0, epochSeen := false,
    peerEpoch := none, peerNode := 0, peerPort := 0, peerKnown := false, peerTs := none, verdict := 0, seed := 0, rtt := 0,
    drainAt := none, toTest := false, peerDown := false, leakAt := none, leakVc := 0, cmdWaits := false, rr := 1, wrr := 0,
    wrrLeft := 0, tier2 := 0, retVc := 7, maxWidth := 0, halfCfg := false, testBad := false }

/-- The code of a link state (R423). -/
def linkCode : LinkState → Nat
  | .off => 0 | .dark => 1 | .quiesce => 2 | .tune => 3 | .align => 4 | .negotiate => 5 | .verify => 6 | .resume => 7 | .active => 8
  | .test => 9 | .down => 10 | .held => 11

/-- The width of a code: 8, 6 or 4 wavelengths (R405). -/
def widthLanes (c : BitVec 2) : Nat := if c = 0 then 8 else if c = 1 then 6 else 4

/-- Number of wavelengths of a mask. -/
def laneCount (m : BitVec 8) : Nat := ((List.range 8).filter fun i => m.getLsbD i).length

/-- The n lowest-numbered wavelengths of a mask (R428). -/
def lowestLanes (m : BitVec 8) (n : Nat) : BitVec 8 :=
  ((List.range 8).foldl (fun (a : BitVec 8 × Nat) i => if m.getLsbD i ∧ a.2 < n then (a.1 ||| (1#8 <<< i), a.2 + 1) else a) (0, 0)).1

/-- One step of the CRC-32 of IEEE 802.3 over a byte, reflected (R402). -/
def crcStep (c : BitVec 32) (b : Byte) : BitVec 32 :=
  (List.range 8).foldl (fun c _ => if c.getLsbD 0 then (c >>> 1) ^^^ 0xEDB88320 else c >>> 1) (c ^^^ b.setWidth 32)

/-- The CRC-32 of IEEE 802.3 (R402). -/
def crc32 (l : List Byte) : BitVec 32 := (l.foldl crcStep 0xFFFFFFFF) ^^^ 0xFFFFFFFF

/-- The next byte of PRBS31 and the register after it: the sequence of x^31 + x^28 + 1, each byte's least significant bit first. The
rule names the sequence and no polynomial; PRESUMED (log 78). -/
def prbsByte (r : BitVec 31) : Byte × BitVec 31 :=
  (List.range 8).foldl (fun (a : Byte × BitVec 31) i =>
    let b := a.2.getLsbD 30 != a.2.getLsbD 27
    (a.1 ||| (if b then 1#8 <<< i else 0), (a.2 <<< 1) ||| (if b then 1 else 0))) (0, r)

/-- n bytes of PRBS31 from the low 31 bits of a seed (R426). -/
def prbs31 (seed : BitVec 32) (n : Nat) : List Byte :=
  ((List.range n).foldl (fun (a : List Byte × BitVec 31) _ => let x := prbsByte a.2; (a.1 ++ [x.1], x.2)) ([], seed.setWidth 31)).1

/-- Bytes 0 to 251 of a link frame (R401). -/
def frameBytes (f : LinkFrame) : List Byte :=
  leBytes 2 f.seq.toNat
    ++ leBytes 1 (f.vc.toNat + f.kind.toNat * 8 + (if f.sop then 32 else 0) + (if f.eop then 64 else 0) + (if f.av then 128 else 0))
    ++ leBytes 1 f.len.toNat ++ leBytes 2 f.ack.toNat
    ++ leBytes 2 (f.cretVc.toNat + (if f.cretValid then 8 else 0) + f.cret.toNat * 16)
    ++ (f.payload ++ List.replicate 244 0).take 244

/-- The 256 bytes of a link frame with its CRC (R401, R402). -/
def frameWire (f : LinkFrame) : List Byte := frameBytes f ++ leBytes 4 (crc32 (frameBytes f)).toNat

namespace Dev

/-- A port (R423). -/
def port (d : Dev) (p : Nat) : Port := Tbl.get portReset d.fab.ports p

/-- Store a port. -/
def setPort (p : Nat) (x : Port) (d : Dev) : Dev :=
  { d with fab := { d.fab with ports := Tbl.set portReset p x d.fab.ports } }

/-- Change a port. -/
def modPort (p : Nat) (f : Port → Port) (d : Dev) : Dev := d.setPort p (f (d.port p))

/-- The page address of a port. -/
def fabA (p : Nat) : Nat := Reg.fab p * 4096

/-- The port of a number. -/
def portNo (p : Nat) : PortNo := ⟨p % 24, Nat.mod_lt _ (by decide)⟩

/-- A virtual channel of a port. -/
def vc (d : Dev) (p v : Nat) : VcState := Tbl.get vcReset (d.port p).vcs v

/-- Change a virtual channel of a port. -/
def modVc (p v : Nat) (f : VcState → VcState) (d : Dev) : Dev :=
  d.modPort p fun x =>
    let a := Tbl.get vcReset x.vcs v
    let b := f a
    { x with vcs := Tbl.set vcReset v (if b.credits = 0 ∧ a.credits ≠ 0 then { b with dryAt := d.now } else b) x.vcs }

/-- FAB.VC_CFGn.INIT (R437); `VcState.init` is the value that the last link reset took from it. -/
def vcInit (d : Dev) (p v : Nat) : Nat := d.fld (fabA p + 0x120 + 4 * v) 10 0

/-- The window of a virtual channel (R421). -/
def vcWindow (d : Dev) (p v : Nat) : Nat := (d.vc p v).initFar - (d.vc p v).leaked

/-- A LINK_EVENT record (R440). -/
def logLink (p sev lost : Nat) (d : Dev) : Dev :=
  let x := d.port p
  let leak := x.cause = 4
  d.log (halfOfPort (portNo p))
    { type := 0x17, sev := sev, block := blockOf (Reg.fab p),
      detail := [(40, 1, p), (41, 1, x.cause.toNat), (42, 1, linkCode x.state), (43, 1, x.width.toNat), (44, 1, x.used.toNat),
                 (45, 1, x.attempts.toNat), (46, 2, x.peerNode.toNat), (48, 4, lost), (52, 1, if leak then x.leakVc else 0),
                 (53, 2, if leak then d.vcWindow p x.leakVc else 0)] }

/-- The router uses a port only in RESUME and ACTIVE (R423, R449). -/
def portUsable (d : Dev) (p : Nat) : Bool := (d.port p).state == .resume || (d.port p).state == .active

/-- Whether a port carries DATA frames of a virtual channel (R404, R435). -/
def carriesData (d : Dev) (p v : Nat) : Bool := d.portUsable p || ((d.port p).state == .test && v == 6)

/-- The completion of a port command that waits (R438). -/
def endPortCmd (p : Nat) (st : Status) (d : Dev) : Dev :=
  if (d.port p).cmdWaits then
    (d.modPort p fun x => { x with cmdWaits := false, toTest := false }).cmdEnd (Reg.fab p) (fabA p + 0x10C) 1 st
  else d

/-! ### Sending (R407, R411 to R413, R418, R419) -/

/-- Put the current E and the returns that wait on a frame (R411 to R413, R420). -/
def stamp (p : Nat) (f : LinkFrame) (d : Dev) : LinkFrame × Dev :=
  let x := d.port p
  let av := x.state == .active || x.ackDue
  let vcs := (List.range 8).map fun i => (x.retVc + 1 + i) % 8
  let ret := if x.state = .resume ∨ x.state = .active ∨ x.state = .test then vcs.find? fun v => (d.vc p v).unreported != 0 else none
  let d := d.modPort p fun x => if av then { x with ackDue := false, sinceAck := 0, ackSince := none } else x
  let f := { f with av := av, ack := if av then x.expected else 0 }
  match ret with
  | none => ({ f with cretVc := 0, cretValid := false, cret := 0 }, d)
  | some v =>
    let n := min 4095 (d.vc p v).unreported
    ({ f with cretVc := BitVec.ofNat 3 v, cretValid := true, cret := BitVec.ofNat 12 n },
     (d.modVc p v fun y => { y with unreported := y.unreported - n, cretOwn := y.cretOwn + BitVec.ofNat 16 n }).modPort p fun x =>
       { x with retVc := v })

/-- Send a CTRL frame of a type (R405); SEQ is the next sequence number the sender assigns. -/
def sendCtrl (p type : Nat) (payload : List Byte) (d : Dev) : Dev :=
  let f : LinkFrame :=
    { seq := (d.port p).nextSeq, vc := 0, kind := 1, sop := false, eop := false, av := false, len := BitVec.ofNat 8 type, ack := 0, cretVc := 0,
      cretValid := false, cret := 0, payload := payload, crcBad := false, fecBad := false }
  let (f, d) := d.stamp p f
  d.emit (.frame (portNo p) f)

/-- Send a STATUS frame: CRET_TOTAL of every virtual channel (R405). -/
def sendStatus (p : Nat) (d : Dev) : Dev :=
  let d := d.modPort p fun x => { x with statusAt := d.now }
  -- the return that the frame itself carries is part of the totals it reports
  let x := d.port p
  let f : LinkFrame :=
    { seq := x.nextSeq, vc := 0, kind := 1, sop := false, eop := false, av := false, len := 1, ack := 0, cretVc := 0,
      cretValid := false, cret := 0, payload := [], crcBad := false, fecBad := false }
  let (f, d) := d.stamp p f
  d.emit (.frame (portNo p) { f with payload := (List.range 8).flatMap fun v => leBytes 2 (d.vc p v).cretOwn.toNat })

/-- Number of frames of a packet (R403). -/
def frameCountOf (l : List Byte) : Nat := ceilDiv l.length 244

/-- Send the next frame of a packet on its virtual channel: it takes the next sequence number and one credit and enters the replay
buffer (R403, R407, R419). -/
def sendFrame (p : Nat) (it : TxItem) (d : Dev) : Dev :=
  let n := frameCountOf it.bytes
  let part := (it.bytes.drop (244 * it.sent)).take 244
  let f : LinkFrame :=
    { seq := (d.port p).nextSeq, vc := it.vc, kind := 0, sop := it.sent == 0, eop := it.sent + 1 == n, av := false,
      len := BitVec.ofNat 8 part.length, ack := 0, cretVc := 0, cretValid := false, cret := 0, payload := part, crcBad := false, fecBad := false }
  let (f, d) := d.stamp p f
  let d := d.modPort p fun z => { z with nextSeq := z.nextSeq + 1, replay := z.replay ++ [⟨f, d.now⟩], dataAt := d.now }
  let d := d.modVc p it.vc.toNat fun v => { v with credits := v.credits - 1 }
  (d.bump (Reg.fab p) 0x040 1).emit (.frame (portNo p) f)

/-- Whether a packet's next frame can go: the port carries its channel and takes new DATA frames, the replay buffer has room, and credits
are held, at the first frame for the whole packet (R407, R419, R434). -/
def canSend (d : Dev) (p : Nat) (it : TxItem) : Bool :=
  let x := d.port p
  let n := if it.sent = 0 then frameCountOf it.bytes else 1
  d.carriesData p it.vc.toNat && (x.drainAt.isNone || x.state == .test) && !x.peerDown && decide (x.replay.length < 1024)
    && decide (n ≤ (d.vc p it.vc.toNat).credits)

/-- The packet that a virtual channel would send next, when it can start. -/
def headOf (d : Dev) (p v : Nat) : Option TxItem :=
  match (d.port p).txq.find? fun t => t.vc.toNat == v with
  | some t => if d.canSend p t then some t else none
  | none => none

/-- Send the next frame of a queued packet; the last one takes the packet from the queue. -/
def take (p : Nat) (it : TxItem) (d : Dev) : Dev :=
  let d := if it.transit.isSome ∧ it.sent = 0 then d.bump Reg.rte 0x040 1 else d
  let last := decide (frameCountOf it.bytes ≤ it.sent + 1)
  (d.modPort p fun x => { x with txq := if last then x.txq.erase it else x.txq.replace it { it with sent := it.sent + 1 } }).sendFrame p it

/-- Whether a channel's next item is a circuit frame within its reserved rate (R463). -/
def headFast (d : Dev) (p v : Nat) : Bool := match (d.port p).txq.find? fun t => t.vc.toNat == v with | some t => t.fast | none => false

/-- The tier-3 channel whose turn it is (R418): the one being served while frames of its WEIGHT are left, then the next ready one. -/
def tier3 (d : Dev) (p : Nat) : Option (Nat × TxItem) :=
  let x := d.port p
  let l := [0, 4, 5, 7]
  let i := (l.findIdx? (· == x.wrr)).getD 0
  let rot := if x.wrrLeft > 0 then l.drop i ++ l.take i else l.drop (i + 1) ++ l.take (i + 1)
  rot.findSome? fun v => if d.headFast p v then none else (d.headOf p v).map (v, ·)

/-- One transmit choice (R418): the packet whose next frame goes and the port with its scheduler moved on. -/
def choose (p : Nat) (d : Dev) : Option (TxItem × Dev) :=
  let x := d.port p
  let t3 := d.tier3 p
  let third (y : Nat × TxItem) : TxItem × Dev :=
    let w := if y.1 = x.wrr ∧ x.wrrLeft > 0 then x.wrrLeft else min1 (d.fld (fabA p + 0x120 + 4 * y.1) 19 16)
    (y.2, d.modPort p fun x => { x with wrr := y.1, wrrLeft := w - 1, tier2 := 0 })
  match d.headOf p 6 with
  | some t => some (t, d)
  | none =>
    let vs := (List.range 4).map fun i => (x.rr + i) % 4 + 1
    match vs.findSome? fun v => if v = 4 ∧ ¬ d.headFast p 4 then none else (d.headOf p v).map (v, ·), t3 with
    | some (v, t), some y =>
      if x.tier2 ≥ 15 then some (third y) else some (t, d.modPort p fun x => { x with rr := v, tier2 := x.tier2 + 1 })
    | some (v, t), none => some (t, d.modPort p fun x => { x with rr := v, tier2 := x.tier2 + 1 })
    | none, some y => some (third y)
    | none, none => none

/-- Send what the credits and the replay buffer allow; an acknowledgement that is due and found no frame rides on a STATUS frame
(R411, R412). -/
def pump (p : Nat) (d : Dev) : Dev :=
  let n := ((d.port p).txq.map fun t => frameCountOf t.bytes).foldl (· + ·) 0
  let d := (List.range n).foldl (fun d _ => match d.choose p with | some (t, d) => d.take p t | none => d) d
  if (d.port p).ackDue ∧ ((d.port p).state = .active ∨ (d.port p).state = .resume ∨ (d.port p).state = .test) then d.sendStatus p else d

/-- Queue a packet or circuit frame on a port (R403). -/
def pushItem (p : Nat) (it : TxItem) (d : Dev) : Dev := (d.modPort p fun x => { x with txq := x.txq ++ [it] }).pump p

/-- Queue a packet that originates here. -/
def pushTx (p : Nat) (vc : BitVec 3) (b : List Byte) (d : Dev) : Dev := d.pushItem p ⟨vc, b, false, none, 0⟩

/-! ### Circuits and the ports they use (R460, R464, R466, R467) -/

/-- A circuit entry that is FREE. -/
def cktFree : Circuit :=
  { state := .free, role := .source, inPort := none, prevLabel := 0, outPort := none, outLabel := 0, srcNode := 0, dstNode := 0, srcCkt := 0,
    part := 0, rate := 0, bufs := 0, setupAt := 0, command := false, closing := false, nextFtag := 0, sent := [], waiting := [], rateAt := 0 }

/-- A circuit entry (R460). -/
def ckt (d : Dev) (l : Nat) : Circuit := Tbl.get cktFree d.fab.circuits l

/-- Store a circuit entry. -/
def setCkt (l : Nat) (c : Circuit) (d : Dev) : Dev := { d with fab := { d.fab with circuits := Tbl.set cktFree l c d.fab.circuits } }

/-- Engine accesses leave a circuit: they go on as routed packets (R467). -/
def reroute (accs : List Nat) (d : Dev) : Dev :=
  let go (a : EngAcc) : EngAcc := if accs.contains a.id then { a with circuit := none, state := .retry d.now } else a
  { d with xlt := { d.xlt with accs := d.xlt.accs.map go } }

/-- Release a circuit entry and its reservations for a cause of R466; its frames that wait on the out port are dropped. At the source of an
OPEN circuit a cause other than CLOSED is reported, and a CKT_OPEN that still waits completes TIMEOUT. -/
def releaseCkt (l cause : Nat) (d : Dev) : Dev :=
  let c := d.ckt l
  let mine (t : TxItem) : Bool := t.vc == 4 && t.sent == 0 && leAt t.bytes 0 2 % 1024 == c.outLabel.toNat
  let d := match c.state, c.outPort with
    | .opened, some p => d.modPort p.val fun x => { x with txq := x.txq.filter fun t => !mine t }
    | _, _ => d
  let d := d.setCkt l cktFree
  if c.role = .source then
    let noCkt (o : Op) : Op := { o with ckts := o.ckts.filter fun x => x.2.toNat != l }
    let d := { d with opq := { d.opq with ops := d.opq.ops.map noCkt } }
    let d := d.reroute ((c.sent ++ c.waiting).map (·.acc))
    if c.state = .opened then
      let d := if cause = 1 then d else (d.setReg 0xB10C (BitVec.ofNat 32 (l % 1024 + cause % 8 * 1024))).cause Reg.rte 2
      if c.command then d.cmdEnd Reg.rte 0xB104 1 .ok else d
    else ({ d with fab := { d.fab with openWait := none } }).cmdEnd Reg.rte 0xB104 1 .timeout
  else d

/-- Send a circuit management message over a port (R459, R461). -/
def cktMsg (p : Nat) (opc : BitVec 8) (word : Nat) (payload : List Byte) (d : Dev) : Dev :=
  let k := mkPkt d (d.port p).peerNode opc 0 word payload
  if d.orders then (d.stampCsn p).pushTx p 6 (pktBytes k) else d.holdCtl (.port (portNo p) 6 k)

/-- Send CKT_TEAR downstream or upstream of an entry (R466); the label at the next node is 0 until CKT_CONFIRM has told it. -/
def sendTear (l cause : Nat) (up : Bool) (d : Dev) : Dev :=
  let c := d.ckt l
  match (if up then c.inPort else c.outPort) with
  | some p => d.cktMsg p.val 0x46 (circuitWord (if up then c.prevLabel.toNat else c.outLabel.toNat) l cause up 0) []
  | none => d

/-- A port has stopped being usable: every circuit through it is torn down with cause PORT_LOST, and the frames of it that wait on a
port are dropped (R466), but for one whose first frame has gone. -/
def portLost (p : Nat) (d : Dev) : Dev :=
  let hit (q : Option PortNo) : Bool := match q with | some x => x.val == p | none => false
  let d := d.modPort p fun x => { x with txq := x.txq.filter fun t => t.vc != 4 || t.sent != 0 }
  ((d.fab.circuits.filter fun x => hit x.2.inPort || hit x.2.outPort).map (·.1)).foldl (fun d l =>
    let c := d.ckt l
    let d := if hit c.outPort then (if c.role = .source then d else d.sendTear l 2 true) else d.sendTear l 2 false
    d.releaseCkt l 2) d

/-- A port enters a state: INT_CAUSE.STATE is set by a change (R439); circuits through a port that stops being usable are lost. The
drain of a TEST_START ends with service; it starts again in ACTIVE. -/
def enter (p : Nat) (st : LinkState) (d : Dev) : Dev :=
  let was := d.portUsable p
  let old := (d.port p).state
  let keep := st == .resume || st == .active
  let d := d.modPort p fun x => { x with state := st, stepAt := d.now, drainAt := if x.toTest && !keep then none else x.drainAt }
  let d := if old = st then d else d.cause (Reg.fab p) 2
  if was && !d.portUsable p then d.portLost p else d

/-! ### Link resets (R424 to R433) -/

/-- Enter QUIESCE (R426 step 1): MAX_WIDTH, HALF and INIT take effect (R437), and the LINK_RESET carries this end's node ID, the cause
and the request that joined. -/
def quiesce (p : Nat) (d : Dev) : Dev :=
  let d := d.modPort p fun x => { x with peerReset := false, leakAt := none, peerTs := none, verdict := 0, epochSeen := false,
                                         maxWidth := BitVec.ofNat 2 (d.fld (fabA p + 0x100) 2 1), halfCfg := d.fld (fabA p + 0x100) 3 3 == 1 }
  let d := foldN 8 (fun v d => d.modVc p v fun y => { y with init := d.vcInit p v }) d
  let x := d.port p
  let d := d.sendCtrl p 3 (leBytes 2 d.nodeId.toNat ++ leBytes 1 x.cause.toNat ++ leBytes 1 (x.askWidth.getD x.maxWidth).toNat
    ++ leBytes 1 (if x.askHalf || x.halfCfg then 1 else 0))
  ((d.enter p .quiesce).bump (Reg.fab p) 0x080 1).logLink p 0 0

/-- The smaller width of what was asked before and now. -/
def joinWidth (a b : Option (BitVec 2)) : Option (BitVec 2) :=
  match a, b with
  | some x, some y => some (if x.toNat < y.toNat then y else x)
  | some x, none => some x
  | none, y => y

/-- A trigger of R424 (R433): it starts a reset, joins one that has not reached NEGOTIATE, or waits. -/
def startReset (p : Nat) (t : Trigger) (d : Dev) : Dev :=
  let x := d.port p
  let join (d : Dev) : Dev := d.modPort p fun x => { x with askWidth := joinWidth x.askWidth t.width, askHalf := x.askHalf || t.half }
  let hold (d : Dev) : Dev := d.modPort p fun x => { x with trigger := some (match x.trigger with
    | some u => ⟨u.cause, joinWidth u.width t.width, u.half || t.half⟩
    | none => t) }
  match x.state with
  | .quiesce => join d
  | .tune => join d
  | .align => join d
  | .negotiate => hold d
  | .verify => hold d
  | .resume => hold d
  | _ => (d.modPort p fun x => { x with cause := t.cause, askWidth := t.width, askHalf := t.half }).quiesce p

/-- A protocol error (R406): logged, and a link reset with cause SEQUENCE. -/
def protocolError (p : Nat) (d : Dev) : Dev := (d.startReset p ⟨6, none, false⟩).logLink p 1 0

/-- An attempt fails (R426): the next starts at once; after 3 in a row the port enters DOWN. The wavelengths that failed VERIFY stay out of
one attempt only. -/
def failAttempt (p : Nat) (d : Dev) : Dev :=
  let d := d.modPort p fun x => { x with attempts := satAdd x.attempts 1, badRx := if x.state = .verify then x.badRx else 0 }
  let d := match (d.port p).trigger with
    | some t => d.modPort p fun x => { x with trigger := none, askWidth := joinWidth x.askWidth t.width, askHalf := x.askHalf || t.half }
    | none => d
  if (d.port p).attempts.toNat ≥ 3 then
    (((d.enter p .down).cause (Reg.fab p) 4).logLink p 2 0).endPortCmd p .timeout
  else d.quiesce p

/-- The sequence state starts again under a new EPOCH (R430). A packet that is part sent or part received goes with it: the rest could not
be joined to its first frames; the slots of the received part are free. -/
def dropSeq (p : Nat) (d : Dev) : Dev :=
  let (i, d) := d.draw
  let e := Config.drawEpoch i
  let d := foldN 8 (fun v d => d.modVc p v fun y => match y.openPkt with
    | some (_, k) => { y with openPkt := none, slots := y.slots - k, unreported := y.unreported + k }
    | none => y) d
  d.modPort p fun x => { x with replay := [], reorder := [], gaps := [], nextSeq := 0, expected := 0, replays := 0, replayE := none,
                                txq := x.txq.filter fun t => t.sent == 0, epoch := if e = 0 then 1 else e, peerEpoch := none }

/-- Discard the sequence state (R430): the replay buffer's frames are lost, a new EPOCH is drawn. -/
def discardSeq (p : Nat) (d : Dev) : Dev :=
  let lost := (d.port p).replay.length
  let d := d.dropSeq p
  ((d.bump (Reg.fab p) 0x090 lost).logLink p 1 lost).cause (Reg.fab p) 6

/-- The width and speed that this end proposes (R428). -/
def proposal (d : Dev) (p : Nat) : BitVec 2 × Bool :=
  let x := d.port p
  let n := laneCount x.goodRx
  let own : BitVec 2 := if n ≥ 8 then 0 else if n ≥ 6 then 1 else 2
  ((joinWidth x.askWidth (joinWidth (some x.maxWidth) (some own))).getD own, x.askHalf || x.halfCfg)

/-- Send the training set (R427). -/
def sendTs (p : Nat) (d : Dev) : Dev :=
  let x := d.port p
  let (w, h) := d.proposal p
  d.sendCtrl p 4 (leBytes 2 d.nodeId.toNat ++ leBytes 1 p ++ leBytes 1 w.toNat ++ leBytes 1 (if h then 1 else 0) ++ leBytes 1 x.goodRx.toNat
    ++ leBytes 1 (linkCode x.state) ++ leBytes 1 x.verdict.toNat ++ leBytes 4 x.epoch.toNat
    ++ leBytes 4 (match x.peerEpoch with | some e => e.toNat | none => 0) ++ leBytes 2 x.expected.toNat
    ++ ((List.range 8).flatMap fun v => leBytes 2 (d.vc p v).free) ++ ((List.range 8).flatMap fun v => leBytes 2 (d.vc p v).init)
    ++ leBytes 4 x.seed.toNat)

/-- Send the TEST frames of VERIFY and TEST (R404, R426, R435): the first of them, which stands for the stream; TEST frames carry PRBS31 from the
agreed seed, and VERIFY counts its bad TEST frames from here on. -/
def sendTest (p : Nat) (d : Dev) : Dev :=
  let d := d.modPort p fun x => { x with testBad := false }
  d.emit (.frame (portNo p)
    { seq := 0, vc := 0, kind := 2, sop := false, eop := false, av := false, len := 0, ack := 0, cretVc := 0, cretValid := false, cret := 0,
      payload := prbs31 (d.port p).seed 244, crcBad := false, fecBad := false })

/-- Enter NEGOTIATE (R426 step 4, R431): FREE is fixed for each channel and a PRBS seed drawn. -/
def negotiate (p : Nat) (d : Dev) : Dev :=
  let d := foldN 8 (fun v d => d.modVc p v fun y => { y with free := y.init - y.slots, unreported := 0 }) d
  let (i, d) := d.draw
  let d := d.modPort p fun x => { x with seed := Config.drawSeed i, peerTs := none, epochSeen := false, verdict := 0 }
  (d.enter p .negotiate).sendTs p

/-- QUIESCE ends on the peer's LINK_RESET or at 20 µs (R426): held frames are discarded. -/
def quiesceEnd (p : Nat) (d : Dev) : Dev :=
  let x := d.port p
  if x.state = .quiesce ∧ (x.peerReset ∨ d.now ≥ x.stepAt + 20000) then
    let n (v : Nat) : Nat := (x.reorder.filter fun f => f.vc.toNat == v).length
    let d := foldN 8 (fun v d => d.modVc p v fun y => { y with slots := y.slots - n v }) d
    (d.modPort p fun x => { x with reorder := [], gaps := [] }).enter p .tune
  else d

/-- TUNE ends (R426, R398). -/
def tuneEnd (p : Nat) (rxGood : BitVec 8) (d : Dev) : Dev :=
  if (d.port p).state ≠ .tune then d
  else
    let d := d.modPort p fun x => { x with goodRx := rxGood &&& ~~~x.badRx, badRx := 0 }
    if laneCount (d.port p).goodRx < 4 then d.failAttempt p else d.enter p .align

/-- ALIGN ends with codeword lock (R426). -/
def alignEnd (p : Nat) (locked : BitVec 8) (d : Dev) : Dev :=
  if (d.port p).state ≠ .align then d
  else
    let d := d.modPort p fun x => { x with goodRx := x.goodRx &&& locked }
    if laneCount (d.port p).goodRx < 4 then d.failAttempt p else d.negotiate p

/-- NEGOTIATE ends (R426, R428, R430, R431). -/
def negotiateEnd (p : Nat) (d : Dev) : Dev :=
  let x := d.port p
  match x.peerTs with
  | some { bytes := b, times := n } =>
    let peerNode := leAt b 0 2
    let lead := decide (d.nodeId.toNat < peerNode)
    let step := leAt b 6 1
    if x.state = .negotiate ∧ n ≥ 3 ∧ step ≥ 5 ∧ (lead ∨ step ≥ 6) then
      let (w, h) := d.proposal p
      let pw : BitVec 2 := BitVec.ofNat 2 (leAt b 3 1)
      let width := (joinWidth (some w) (some pw)).getD w
      let mask : BitVec 8 := BitVec.ofNat 8 (leAt b 5 1)
      let peerE : BitVec 16 := BitVec.ofNat 16 (leAt b 16 2)
      let (i, d) := d.draw
      let d := d.modPort p fun x =>
        { x with width := width, half := h || leAt b 4 1 == 1, leader := lead, goodTx := mask, used := lowestLanes mask (widthLanes width),
                 seed := if lead then x.seed else BitVec.ofNat 32 (leAt b 50 4), rtt := Config.roundTrip i,
                 peerEpoch := some (BitVec.ofNat 32 (leAt b 8 4)), peerNode := BitVec.ofNat 16 peerNode, peerPort := BitVec.ofNat 5 (leAt b 2 1),
                 peerKnown := true, replay := if (x.nextSeq - peerE).toNat ≤ x.replay.length then x.replay.drop (x.replay.length - (x.nextSeq - peerE).toNat) else x.replay }
      let d := foldN 8 (fun v d =>
        let held := ((d.port p).replay.filter fun s => s.frame.vc.toNat == v).length
        d.modVc p v fun y => { y with credits := leAt b (18 + 2 * v) 2 - held, cretSeen := 0, cretOwn := 0, leaked := 0, initFar := leAt b (34 + 2 * v) 2 }) d
      ((d.enter p .verify).sendTs p).sendTest p
    else d
  | none => d

/-- Send every frame of the replay buffer again, in sequence order (R416, R432). -/
def replayAll (p : Nat) (d : Dev) : Dev :=
  let l := (d.port p).replay
  let (out, d) := l.foldl (fun (a : List Sent × Dev) s =>
    let (f, d) := a.2.stamp p s.frame
    (a.1 ++ [⟨f, d.now⟩], d.emit (.frame (portNo p) f))) (([] : List Sent), d)
  d.modPort p fun x => { x with replay := out }

/-- Enter RESUME (R426 step 6, R432). -/
def resume (p : Nat) (d : Dev) : Dev :=
  let d := d.modPort p fun x => { x with statusSeen := false, mark := x.nextSeq, replays := 0, replayE := none, ackDue := true, sinceAck := 0, ackSince := none,
                                         peerDown := false }
  ((d.enter p .resume).replayAll p).pump p

/-- Both verdicts of VERIFY are known (R426). -/
def verdicts (p : Nat) (d : Dev) : Dev :=
  let x := d.port p
  let peer := match x.peerTs with | some t => leAt t.bytes 7 1 | none => 0
  if x.state ≠ .verify then d
  else if x.verdict = 2 ∨ peer = 2 then d.failAttempt p
  else if x.verdict = 1 ∧ peer = 1 then d.resume p
  else d

/-- The PRBS test of VERIFY ends after its 0.8 ms (R426): it passes with no bad TEST frame and no wavelength in use at a symbol error ratio of
10^-5 or above; `bad` names those wavelengths. -/
def verifyEnd (p : Nat) (bad : BitVec 8) (d : Dev) : Dev :=
  let x := d.port p
  if x.state ≠ .verify ∨ x.verdict ≠ 0 ∨ d.now < x.stepAt + 800000 then d
  else
    let pass := bad = 0 ∧ ¬ x.testBad
    let d := d.modPort p fun x => { x with verdict := if pass then 1 else 2, badRx := bad, goodRx := x.goodRx &&& ~~~bad }
    (d.sendTs p).verdicts p

/-- RESUME ends (R426, R433): the port enters ACTIVE; a TEST_START that a reset interrupted drains again; a trigger that waited starts a
reset at once. -/
def resumeEnd (p : Nat) (d : Dev) : Dev :=
  let x := d.port p
  let old := x.replay.any fun s => decide ((x.mark - s.frame.seq).toNat ≤ 1024 ∧ s.frame.seq ≠ x.mark)
  if x.state = .resume ∧ x.statusSeen ∧ ¬ old then
    let d := (d.modPort p fun x => { x with attempts := 0, askWidth := none, askHalf := false, ackDue := true, badRx := 0 }).enter p .active
    let d := (if x.toTest then d.modPort p fun x => { x with drainAt := some d.now } else d.endPortCmd p .ok).pump p
    match x.trigger with
    | some t => (d.modPort p fun x => { x with trigger := none }).startReset p t
    | none => d
  else d

/-- Limit of a step in ns (R426); QUIESCE ends at its limit without failing. -/
def stepLimit : LinkState → Option Nat
  | .tune => some 6000000
  | .align => some 3000000
  | .negotiate => some 480000
  | .verify => some 2000000
  | .resume => some 500000
  | _ => none

/-- A step of a link reset passes its limit (R426). -/
def stepExpiry (p : Nat) (d : Dev) : Dev :=
  match stepLimit (d.port p).state with
  | some n => if d.now ≥ (d.port p).stepAt + n then d.failAttempt p else d
  | none => d.quiesceEnd p

/-- A check for light (R398, R423, R434): a DARK port with light starts a reset with cause RETRY; a port whose light has ended is
DARK. -/
def darkCheck (p : Nat) (light : Bool) (d : Dev) : Dev :=
  let x := d.port p
  match x.state with
  | .dark => if light ∧ x.drainAt.isNone ∧ d.now ≥ x.stepAt + 1000000 then d.startReset p ⟨9, none, false⟩ else d
  | .off => d
  | .held => d
  | _ => if light then d else d.enter p .dark

/-- A DOWN port retries every RETRY_INT (R426). -/
def downRetry (p : Nat) (d : Dev) : Dev :=
  let x := d.port p
  if x.state = .down ∧ x.drainAt.isNone ∧ d.now ≥ x.stepAt + min1 (d.fld (fabA p + 0x100) 23 16) * 10000000 then d.startReset p ⟨9, none, false⟩ else d

/-- Loss of light or lock on a wavelength in use (R424). -/
def lossOfLock (p : Nat) (d : Dev) : Dev :=
  match (d.port p).state with
  | .negotiate => d.startReset p ⟨5, none, false⟩
  | .verify => d.startReset p ⟨5, none, false⟩
  | .resume => d.startReset p ⟨5, none, false⟩
  | .active => d.startReset p ⟨5, none, false⟩
  | .test => d.startReset p ⟨5, none, false⟩
  | _ => d

/-! ### Receiving (R402, R405 to R415, R420 to R422) -/

/-- An acknowledgement (R407): the frames before it leave the replay buffer; false when it covers a frame not yet sent. -/
def takeAck (p : Nat) (a : BitVec 16) (d : Dev) : Bool × Dev :=
  let x := d.port p
  let left := (x.nextSeq - a).toNat
  if left ≤ x.replay.length then (true, d.modPort p fun x => { x with replay := x.replay.drop (x.replay.length - left) })
  else if (a - x.nextSeq).toNat < 32768 then (false, d)
  else (true, d)

/-- The credits that a frame returns (R420, R421). -/
def takeCret (p : Nat) (f : LinkFrame) (d : Dev) : Dev :=
  if f.cretValid then
    d.modVc p f.cretVc.toNat fun y => { y with credits := y.credits + f.cret.toNat, cretSeen := y.cretSeen + f.cret.setWidth 16 }
  else d

/-- The consecutive numbers of a rising list as ranges: first and count. -/
def ranges : List (BitVec 16) → List (BitVec 16 × Nat)
  | [] => []
  | a :: t => match ranges t with
    | (b, n) :: r => if b = a + 1 then (a, n + 1) :: r else (a, 1) :: (b, n) :: r
    | [] => [(a, 1)]

/-- Send an SREQ that names sequence numbers, at most 16 ranges a frame (R405, R414). -/
def sendSreq (p : Nat) (l : List (BitVec 16)) (d : Dev) : Dev :=
  let rs := (ranges l).flatMap fun r => (List.range (ceilDiv r.2 65536)).map fun _ => r
  (List.range (ceilDiv rs.length 16)).foldl (fun d i =>
    let part := sub rs (16 * i) 16
    d.sendCtrl p 2 (leBytes 4 part.length ++ part.flatMap fun r => leBytes 2 r.1.toNat ++ leBytes 2 (r.2 - 1))) d

/-- Ask for every missing number below an observed one (R414). -/
def askMissing (p : Nat) (s : BitVec 16) (d : Dev) : Dev :=
  let x := d.port p
  let n := (s - x.expected).toNat
  let miss := ((List.range n).map fun i => x.expected + BitVec.ofNat 16 i).filter fun q =>
    !(x.reorder.any fun f => f.seq == q) && !(x.gaps.any fun g => g.seq == q)
  if miss.isEmpty then d
  else (d.modPort p fun x => { x with gaps := x.gaps ++ miss.map fun q => ⟨q, 1, d.now⟩ }).sendSreq p miss

/-- Pass the frames that stand in order to packet assembly (R403, R406, R409); a frame that breaks
the order of SOP and EOP leaves its slot. -/
def deliver : Nat → Nat → Dev → Dev
  | 0, _, d => d
  | n + 1, p, d =>
    let x := d.port p
    match x.reorder.find? fun f => f.seq == x.expected with
    | none => d
    | some f =>
      let d := d.modPort p fun x => { x with expected := x.expected + 1, reorder := x.reorder.filter fun g => g.seq != f.seq,
                                             gaps := x.gaps.filter fun g => g.seq != f.seq }
      let v := f.vc.toNat
      let part := f.payload.take f.len.toNat
      match (d.vc p v).openPkt, f.sop with
      | some _, true => (d.modVc p v fun y => { y with slots := y.slots - 1 }).protocolError p
      | none, false => (d.modVc p v fun y => { y with slots := y.slots - 1 }).protocolError p
      | o, _ =>
        let (b, k) := match o with | some (b, k) => (b ++ part, k + 1) | none => (part, 1)
        let d := if f.eop then
            (d.modVc p v fun y => { y with openPkt := none }).modPort p fun x => { x with rxq := x.rxq ++ [⟨f.vc, b, k, d.now⟩] }
          else d.modVc p v fun y => { y with openPkt := some (b, k) }
        deliver n p d

/-- An acknowledgement falls due for accepted frames (R411, R412). -/
def noteAccept (p : Nat) (d : Dev) : Dev :=
  let x := d.port p
  let n := x.sinceAck + 1
  let due := x.state == .active || decide (n ≥ min1 (d.fld (fabA p + 0x104) 21 16))
  d.modPort p fun x => { x with sinceAck := n, ackSince := some (x.ackSince.getD d.now), ackDue := x.ackDue || due }

/-- A good DATA frame (R406, R408 to R410). -/
def rxData (p : Nat) (f : LinkFrame) (d : Dev) : Dev :=
  let x := d.port p
  let dist := (f.seq - x.expected).toNat
  let v := f.vc.toNat
  if f.len = 0 ∨ f.len.toNat > 244 then d.protocolError p
  else if dist ≥ 1024 ∧ dist < 32768 then d.protocolError p
  else if dist ≥ 32768 ∨ (x.reorder.any fun g => g.seq == f.seq) then
    (d.modPort p fun x => { x with ackDue := true }).bump (Reg.fab p) 0x078 1
  else if (d.vc p v).slots ≥ (d.vc p v).init then d.protocolError p
  else
    let d := (d.modVc p v fun y => { y with slots := y.slots + 1 }).bump (Reg.fab p) 0x048 1
    let d := d.modPort p fun x => { x with reorder := x.reorder ++ [f] }
    let d := (d.noteAccept p)
    if dist = 0 then d.deliver (d.port p).reorder.length p else d.askMissing p f.seq

/-- A STATUS frame (R421, R422): leaked credits and the window of each channel. -/
def rxStatus (p : Nat) (f : LinkFrame) (d : Dev) : Dev :=
  let d := d.modPort p fun x => { x with statusSeen := true }
  foldN 8 (fun v d =>
    let total := BitVec.ofNat 16 (leAt f.payload (2 * v) 2)
    let y := d.vc p v
    let leaked := (total - y.cretSeen).toNat
    let d := (d.modVc p v fun y => { y with leaked := leaked }).bump (Reg.fab p) 0x088 (leaked - y.leaked)
    let frac := min 100 (d.fld (fabA p + 0x100) 10 4)
    let first := (d.port p).leakAt.isNone
    let below (n : Nat) : Bool := decide ((y.initFar - n) * 100 < frac * y.initFar)
    if frac ≠ 0 ∧ below leaked ∧ (first ∨ ¬ below y.leaked) then
      (if first then d.modPort p fun x => { x with leakAt := some d.now, leakVc := v } else d).cause (Reg.fab p) 3
    else d) d

/-- An SREQ (R406, R415): each named frame that is still held is sent again alone, its timer restarted. -/
def rxSreq (p : Nat) (f : LinkFrame) (d : Dev) : Dev :=
  let x := d.port p
  let n := min 16 (leAt f.payload 0 1)
  let names := (List.range n).flatMap fun i =>
    (List.range (leAt f.payload (6 + 4 * i) 2 + 1)).map fun j => BitVec.ofNat 16 (leAt f.payload (4 + 4 * i) 2 + j)
  if names.any fun q => decide ((q - x.nextSeq).toNat < 32768) then d.protocolError p
  else names.foldl (fun d q =>
    match (d.port p).replay.find? fun s => s.frame.seq == q with
    | none => d
    | some s =>
      let (g, d) := d.stamp p s.frame
      let d := d.modPort p fun x => { x with replay := x.replay.map fun (t : Sent) => if t.frame.seq = q then ⟨g, d.now⟩ else t }
      (d.bump (Reg.fab p) 0x068 1).emit (.frame (portNo p) g)) d

/-- A LINK_RESET from the peer (R424, R433). -/
def rxLinkReset (p : Nat) (f : LinkFrame) (d : Dev) : Dev :=
  let w := leAt f.payload 3 1
  let t : Trigger := ⟨2, if w ≤ 2 then some (BitVec.ofNat 2 w) else none, leAt f.payload 4 1 == 1⟩
  let mark (d : Dev) : Dev := d.modPort p fun x => { x with peerReset := true }
  match (d.port p).state with
  | .quiesce => mark (d.startReset p t)
  | .tune => mark (d.startReset p t)
  | .align => mark (d.startReset p t)
  | .negotiate => d.startReset p t
  | .verify => d.startReset p t
  | .resume => d.startReset p t
  | .active => mark (d.startReset p t)
  | .test => mark (d.startReset p t)
  | _ => d

/-- A training set (R428 to R430): a peer with this end's node ID puts the port in HELD; the sequence state is
discarded at most once in a NEGOTIATE. -/
def rxTs (p : Nat) (f : LinkFrame) (d : Dev) : Dev :=
  let x := d.port p
  let b := (f.payload ++ List.replicate 54 0).take 54
  if x.state ≠ .negotiate ∧ x.state ≠ .verify then d
  else if leAt b 0 2 = d.nodeId.toNat then (((d.enter p .held).cause (Reg.fab p) 5).logLink p 2 0).endPortCmd p .stateConflict
  else
    let ts : PeerTs := match x.peerTs with
      | some t => if t.bytes = b then ⟨b, t.times + 1⟩ else ⟨b, 1⟩
      | none => ⟨b, 1⟩
    let d := d.modPort p fun x => { x with peerTs := some ts }
    if x.state = .verify then d.verdicts p
    else if x.epochSeen then d
    else
      let same : Bool := leAt b 12 4 == x.epoch.toNat
        && (match x.peerEpoch with | some e => e.toNat == leAt b 8 4 | none => false)
        && x.peerNode.toNat == leAt b 0 2 && x.peerPort.toNat == leAt b 2 1
      if same then d else ((d.discardSeq p).modPort p fun x => { x with epochSeen := true }).sendTs p

/-- The peer shuts down (R434): no new DATA frame is sent. -/
def rxLinkDown (p : Nat) (d : Dev) : Dev := d.modPort p fun x => { x with peerDown := true }

/-- Whether the port's state carries CTRL frames of a type (R402, R404). -/
def carriesCtrl (st : LinkState) (type : Nat) : Bool :=
  match st with
  | .off => false
  | .dark => false
  | .down => false
  | .held => false
  | .quiesce => type == 3
  | .tune => type == 3
  | .align => type == 3
  | _ => true

/-- A received link frame (R402, R405, R406, R413, R414). -/
def rxFrame (p : Nat) (f : LinkFrame) (d : Dev) : Dev :=
  let x := d.port p
  let st := x.state
  let service := st == .resume || st == .active || st == .test
  let carried := if f.kind = 0 then d.carriesData p f.vc.toNat else if f.kind = 1 then carriesCtrl st f.len.toNat
    else if f.kind = 2 then st == .verify || st == .test else service
  let d := if f.corrected = 0 then d else d.bump (Reg.fab p) 0x058 f.corrected
  if f.crcBad ∨ f.fecBad ∨ ¬ carried then
    let d := if st = .verify ∧ f.kind = 2 then d.modPort p fun x => { x with testBad := true } else d
    (if f.fecBad then d.bump (Reg.fab p) 0x060 1 else d).bump (Reg.fab p) 0x050 1
  else if f.kind = 3 then d.protocolError p
  else if f.kind = 2 then d
  else
    let (ok, d) := if service ∧ f.av then d.takeAck p f.ack else (true, d)
    if ¬ ok then d.protocolError p
    else
      let d := if service then d.takeCret p f else d
      if f.kind = 0 then (d.rxData p f).pump p
      else
        let gap := (f.seq - (d.port p).expected).toNat
        let d := if service ∧ 1 ≤ gap ∧ gap ≤ 1024 then d.askMissing p f.seq else d
        match f.len.toNat with
        | 1 => if service then (d.rxStatus p f).pump p else d
        | 2 => if service then (d.rxSreq p f).pump p else d
        | 3 => d.rxLinkReset p f
        | 4 => d.rxTs p f
        | 5 => d.rxLinkDown p
        | t =>
          (d.bump (Reg.fab p) 0x050 1).log (halfOfPort (portNo p))
            { type := 0x10, sev := 1, block := blockOf (Reg.fab p), node := if x.peerKnown then some x.peerNode else none,
              detail := [(40, 1, 1), (41, 1, p), (42, 1, t), (43, 1, f.vc.toNat)] }

/-- The router takes the oldest packet of a port: its slots are freed (R420). -/
def popRx (p : Nat) (d : Dev) : Option (RxItem × Dev) :=
  match (d.port p).rxq with
  | [] => none
  | r :: t =>
    let d := d.modPort p fun x => { x with rxq := t }
    some (r, d.modVc p r.vc.toNat fun y => { y with slots := y.slots - r.slots, unreported := y.unreported + r.slots })

/-! ### Timers (R412, R414, R416, R418, R422) -/

/-- The oldest frame's acknowledgement timer expires (R416). -/
def ackExpiry (p : Nat) (d : Dev) : Dev :=
  let x := d.port p
  match x.replay with
  | [] => d
  | s :: _ =>
    if (d.portUsable p ∨ x.state = .test) ∧ d.now ≥ s.time + min1 (d.fld (fabA p + 0x104) 7 0) * 100 then
      let n := if x.replayE = some s.frame.seq then x.replays + 1 else 1
      let d := (d.modPort p fun x => { x with replays := n, replayE := some s.frame.seq }).bump (Reg.fab p) 0x070 1
      if n ≥ min1 (d.fld (fabA p + 0x104) 12 8) then (d.modPort p fun x => { x with replays := 0, replayE := none }).startReset p ⟨3, none, false⟩
      else d.replayAll p
    else d

/-- A gap that is still open is asked for again, at most 3 times in all (R414). -/
def sreqRepeat (p : Nat) (s : BitVec 16) (d : Dev) : Dev :=
  let x := d.port p
  if (d.portUsable p ∨ x.state = .test) ∧ (x.gaps.any fun g => g.seq == s && decide (g.times < 3 ∧ d.now ≥ g.last + x.rtt + 500)) then
    (d.modPort p fun x => { x with gaps := x.gaps.map fun (g : Gap) => if g.seq = s then { g with times := g.times + 1, last := d.now } else g }).sendSreq p [s]
  else d

/-- COAL_T has passed since the first frame accepted after the last acknowledgement (R412). -/
def coalesce (p : Nat) (d : Dev) : Dev :=
  let x := d.port p
  match x.ackSince with
  | some t =>
    if (x.state = .resume ∨ x.state = .test) ∧ d.now ≥ t + min1 (d.fld (fabA p + 0x104) 31 24) * 100 then
      (d.modPort p fun x => { x with ackDue := true }).pump p
    else d
  | none => d

/-- STATUS is due every 10 µs in RESUME and ACTIVE (R418). -/
def statusTimer (p : Nat) (d : Dev) : Dev :=
  if d.portUsable p ∧ d.now ≥ (d.port p).statusAt + 10000 then d.sendStatus p else d

/-- A scheduled LEAK reset starts (R422). -/
def leakReset (p : Nat) (d : Dev) : Dev :=
  let x := d.port p
  match x.leakAt with
  | some t => if (d.portUsable p ∨ x.state = .test) ∧ (d.now ≥ x.dataAt + 1000 ∨ d.now ≥ t + 1000000) then d.startReset p ⟨4, none, false⟩ else d
  | none => d

/-! ### Shutdown, TEST and the commands of FAB.PORT_CMD (R434, R435, R438) -/

/-- Stop new DATA frames for a shutdown (R434 step 1). -/
def beginShutdown (p : Nat) (d : Dev) : Dev :=
  if (d.port p).state = .off then d
  else d.modPort p fun x => { x with drainAt := some (if x.toTest then d.now else x.drainAt.getD d.now), toTest := false }

/-- The drain ends when every frame sent is acknowledged and every frame received has gone to the router, or after 100 µs (R434, R435): the
port goes OFF after LINK_DOWN, or enters TEST. With frames lost the sequence state starts again, since their numbers could never be
delivered. -/
def drainEnd (p : Nat) (d : Dev) : Dev :=
  let x := d.port p
  match x.drainAt with
  | none => d
  | some t =>
    if (x.replay.isEmpty ∧ x.rxq.isEmpty ∧ x.reorder.isEmpty) ∨ d.now ≥ t + 100000 then
      if x.toTest then
        (((d.modPort p fun x => { x with drainAt := none, toTest := false }).enter p .test).sendTest p).endPortCmd p .ok
      else
        let lost := x.replay.length
        let d := if d.portUsable p ∨ x.state = .test then
          (d.modPort p fun x => { x with ackDue := true }).sendCtrl p 5 (leBytes 2 d.nodeId.toNat) else d
        let d := (d.bump (Reg.fab p) 0x090 lost).modPort p fun x => { x with drainAt := none }
        let d := if lost = 0 then d else d.dropSeq p
        ((d.enter p .off).logLink p 2 lost).endPortCmd p .stateConflict
    else d

/-- EN is written (R434, R437). EN = 1 ends a shutdown that still drains. -/
def portEnable (p : Nat) (en : Bool) (d : Dev) : Dev :=
  let x := d.port p
  if ¬ en then d.beginShutdown p
  else if x.state = .off then d.startReset p ⟨7, none, false⟩
  else if x.drainAt.isSome ∧ ¬ x.toTest then
    let d := d.modPort p fun x => { x with drainAt := none }
    if x.state = .dark ∨ x.state = .held then d else d.startReset p ⟨7, none, false⟩
  else d

/-- A command of FAB.PORT_CMD. -/
def portCmd (p : Nat) (f : Dev → Option Status × Dev) (d : Dev) : Dev :=
  let sts := fabA p + 0x10C
  if d.busy sts then d.illegal (Reg.fab p)
  else
    match f (d.cmdBegin sts) with
    | (some st, d) => d.cmdEnd (Reg.fab p) sts 1 st
    | (none, d) => d

/-- RETRAIN (R438). Width code 0b11 asks for MAX_WIDTH. -/
def retrain (p : Nat) (width : BitVec 2) (half : Bool) (d : Dev) : Option Status × Dev :=
  let go : Option Status × Dev :=
    (none, (d.modPort p fun x => { x with cmdWaits := true }).startReset p ⟨1, if width = 3 then none else some width, half⟩)
  match (d.port p).state with
  | .active => go
  | .quiesce => go
  | .tune => go
  | .align => go
  | .down => go
  | _ => (some .stateConflict, d)

/-- TEST_START (R435). -/
def testStart (p : Nat) (d : Dev) : Option Status × Dev :=
  if (d.port p).state = .active then
    (none, d.modPort p fun x => { x with drainAt := some d.now, toTest := true, cmdWaits := true })
  else (some .stateConflict, d)

/-- TEST_STOP (R435, R438). -/
def testStop (p : Nat) (d : Dev) : Option Status × Dev :=
  if (d.port p).state = .test then (none, (d.modPort p fun x => { x with cmdWaits := true }).resume p) else (some .stateConflict, d)

/-- CLEAR_HELD (R438). -/
def clearHeld (p : Nat) (d : Dev) : Option Status × Dev :=
  if (d.port p).state = .held then (some .ok, d.startReset p ⟨9, none, false⟩) else (some .stateConflict, d)

end Dev

/-- DATA_FRAME. -/
def execDataFrame (p : PortNo) (f : LinkFrame) (s : State) : Host.Outcome State Fault Refusal := next (s.onDev (Dev.rxFrame p.val f))
/-- STATUS. -/
def execStatus (p : PortNo) (f : LinkFrame) (s : State) : Host.Outcome State Fault Refusal := next (s.onDev (Dev.rxFrame p.val f))
/-- SREQ. -/
def execSreq (p : PortNo) (f : LinkFrame) (s : State) : Host.Outcome State Fault Refusal := next (s.onDev (Dev.rxFrame p.val f))
/-- LINK_RESET. -/
def execLinkReset (p : PortNo) (f : LinkFrame) (s : State) : Host.Outcome State Fault Refusal := next (s.onDev (Dev.rxFrame p.val f))
/-- TS. -/
def execTs (p : PortNo) (f : LinkFrame) (s : State) : Host.Outcome State Fault Refusal := next (s.onDev (Dev.rxFrame p.val f))
/-- LINK_DOWN. -/
def execLinkDown (p : PortNo) (f : LinkFrame) (s : State) : Host.Outcome State Fault Refusal := next (s.onDev (Dev.rxFrame p.val f))
/-- TEST_FRAME. -/
def execTestFrame (p : PortNo) (f : LinkFrame) (s : State) : Host.Outcome State Fault Refusal := next (s.onDev (Dev.rxFrame p.val f))
/-- ACK_TIMER_EXPIRY. -/
def execAckTimerExpiry (p : PortNo) (s : State) : Host.Outcome State Fault Refusal := next (s.onDev (Dev.ackExpiry p.val))
/-- SREQ_REPEAT. -/
def execSreqRepeat (p : PortNo) (q : BitVec 16) (s : State) : Host.Outcome State Fault Refusal := next (s.onDev (Dev.sreqRepeat p.val q))
/-- COALESCE_TIMER. -/
def execCoalesceTimer (p : PortNo) (s : State) : Host.Outcome State Fault Refusal := next (s.onDev (Dev.coalesce p.val))
/-- STATUS_TIMER. -/
def execStatusTimer (p : PortNo) (s : State) : Host.Outcome State Fault Refusal := next (s.onDev (Dev.statusTimer p.val))
/-- LEAK_RESET. -/
def execLeakReset (p : PortNo) (s : State) : Host.Outcome State Fault Refusal := next (s.onDev (Dev.leakReset p.val))
/-- LOSS_OF_LOCK. -/
def execLossOfLock (p : PortNo) (s : State) : Host.Outcome State Fault Refusal := next (s.onDev (Dev.lossOfLock p.val))
/-- QUIESCE_END. -/
def execQuiesceEnd (p : PortNo) (s : State) : Host.Outcome State Fault Refusal := next (s.onDev (Dev.quiesceEnd p.val))
/-- TUNE_END. -/
def execTuneEnd (p : PortNo) (m : BitVec 8) (s : State) : Host.Outcome State Fault Refusal := next (s.onDev (Dev.tuneEnd p.val m))
/-- ALIGN_END. -/
def execAlignEnd (p : PortNo) (m : BitVec 8) (s : State) : Host.Outcome State Fault Refusal := next (s.onDev (Dev.alignEnd p.val m))
/-- NEGOTIATE_END. -/
def execNegotiateEnd (p : PortNo) (s : State) : Host.Outcome State Fault Refusal := next (s.onDev (Dev.negotiateEnd p.val))
/-- VERIFY_END. -/
def execVerifyEnd (p : PortNo) (bad : BitVec 8) (s : State) : Host.Outcome State Fault Refusal := next (s.onDev (Dev.verifyEnd p.val bad))
/-- RESUME_END. -/
def execResumeEnd (p : PortNo) (s : State) : Host.Outcome State Fault Refusal := next (s.onDev (Dev.resumeEnd p.val))
/-- STEP_LIMIT_EXPIRY. -/
def execStepLimitExpiry (p : PortNo) (s : State) : Host.Outcome State Fault Refusal := next (s.onDev (Dev.stepExpiry p.val))
/-- DARK_CHECK. -/
def execDarkCheck (p : PortNo) (light : Bool) (s : State) : Host.Outcome State Fault Refusal := next (s.onDev (Dev.darkCheck p.val light))
/-- DOWN_RETRY. -/
def execDownRetry (p : PortNo) (s : State) : Host.Outcome State Fault Refusal := next (s.onDev (Dev.downRetry p.val))
/-- SHUTDOWN_DRAIN_END. -/
def execShutdownDrainEnd (p : PortNo) (s : State) : Host.Outcome State Fault Refusal := next (s.onDev (Dev.drainEnd p.val))
/-- FAB_NOP. -/
def execFabNop (p : PortNo) (s : State) : Host.Outcome State Fault Refusal := next (s.onDev (Dev.portCmd p.val fun d => (some .ok, d)))
/-- RETRAIN. -/
def execRetrain (p : PortNo) (w : BitVec 2) (h : Bool) (s : State) : Host.Outcome State Fault Refusal :=
  next (s.onDev (Dev.portCmd p.val (Dev.retrain p.val w h)))
/-- TEST_START. -/
def execTestStart (p : PortNo) (s : State) : Host.Outcome State Fault Refusal := next (s.onDev (Dev.portCmd p.val (Dev.testStart p.val)))
/-- TEST_STOP. -/
def execTestStop (p : PortNo) (s : State) : Host.Outcome State Fault Refusal := next (s.onDev (Dev.portCmd p.val (Dev.testStop p.val)))
/-- CLEAR_HELD. -/
def execClearHeld (p : PortNo) (s : State) : Host.Outcome State Fault Refusal := next (s.onDev (Dev.portCmd p.val (Dev.clearHeld p.val)))

end Sys2Proof.Machine
end

