-- ==== Sys2Proof/Machine/Send.lean ====
section
/-! DEFINITION. Packets that this node sends: routing of packets that originate here (R449),
protection under a fabric key (R503, R504), answers to requests, and log records about received packets. -/

namespace Sys2Proof.Machine

/-- The fabric-key store's entry (R501). -/
def Dev.fkey (d : Dev) (i : Nat) : Option FKey := Tbl.find d.sec.fkeys i

/-- The nonce of a protected payload: the salt followed by SEQ (R503). -/
def gcmNonce (salt : BitVec 32) (seq : Nat) : BitVec 96 := BitVec.ofNat 96 (salt.toNat + 2 ^ 32 * seq)

/-- Protect a payload under an entry (R503, R504): the additional data is the header of 16 or 8 bytes followed by the security
header. None when TX_SEQ is used up. -/
def Dev.protect (i : Nat) (header plain : List Byte) (d : Dev) : Option (List Byte × Dev) :=
  match d.fkey i with
  | none => none
  | some k =>
    if k.txSeq.toNat ≥ 2 ^ 48 - 1 then none
    else
      let sh := leBytes 2 (k.remote.toNat % 8192) ++ leBytes 6 k.txSeq.toNat
      let body := sh ++ Config.gcmSeal k.txKey (gcmNonce k.txSalt k.txSeq.toNat) (header ++ sh) plain
      let d1 := { d with sec := { d.sec with fkeys := Tbl.put i { k with txSeq := k.txSeq + 1 } d.sec.fkeys } }
      let d2 := if k.txSeq.toNat = 2 ^ 47 then d1.secLog 11 0 { type := 0, sev := 0, block := 0, part := some k.part, detail := [(41, 2, i)] }
        else d1
      some (body, d2)

/-- Protect a packet under an entry. -/
def Dev.sealPkt (i : Nat) (p : Packet) (d : Dev) : Option (Packet × Dev) :=
  let p := { p with enc := true }
  (d.protect i ((pktBytes p).take 16) p.payload).map fun x => ({ p with payload := x.1 }, x.2)

/-- The port that a packet originating here takes (R449): the primary, then the alternate port of the route entry. -/
def Dev.routeFrom (d : Dev) (dst : NodeId) (arrival : Option Nat) : Option Nat :=
  let e : BitVec 16 := Tbl.get 0 d.fab.routes dst.toNat
  let pri := bits e.toNat 4 0
  let alt := bits e.toNat 9 5
  let ok (p : Nat) : Bool := decide (p < 24) && d.portUsable p && decide (some p ≠ arrival)
  if bits e.toNat 10 10 = 0 ∨ bits e.toNat 11 11 = 1 then none
  else if ok pri then some pri
  else if ok alt then some alt
  else none

/-- Give a packet to the way it leaves by. The companion link holds packets while it trains and loses them while it is DOWN or
OFF (R633). -/
def Dev.emitPkt (via : Via) (vc : BitVec 3) (p : Packet) (d : Dev) : Dev :=
  match via with
  | .port q => d.pushTx q.val vc (pktBytes p)
  | .companion =>
    let st := d.fld 0xD100 2 0
    if st = 2 then d.emit (.companion vc p)
    else if st = 1 ∨ st = 3 then { d with cmp := { d.cmp with heldOut := d.cmp.heldOut ++ [(vc, p)] } }
    else d

/-- Send a packet that originates here (R449, R450): the companion's own node ID leaves on the companion link. False when the
packet was dropped for want of a route. -/
def Dev.send (vc : BitVec 3) (p : Packet) (d : Dev) : Bool × Dev :=
  if p.dst = d.compNode ∧ d.compNode ≠ 0xFFFF then (true, d.emitPkt .companion vc p)
  else match d.routeFrom p.dst none with
    | some q => (true, d.pushTx q vc (pktBytes p))
    | none => (false, d.bump Reg.rte 0x048 1)

/-- Send a control message that routing gives a port (R539): PROBE and UNREACHED notices. -/
def Dev.sendCtl (vc : BitVec 3) (p : Packet) (d : Dev) : Dev :=
  if !d.orders then d.holdCtl (.pkt vc p)
  else
    let egress := if p.dst = d.compNode ∧ d.compNode ≠ 0xFFFF then some 24 else d.routeFrom p.dst none
    match egress with
    | some q => ((d.stampCsn q).send vc p).2
    | none => (d.nextCsn.send vc p).2

/-- Send a packet, in clear or under an entry. An entry whose TX_SEQ is used up sends nothing (R504). -/
def Dev.sendAs (key : Option (BitVec 13)) (vc : BitVec 3) (p : Packet) (d : Dev) : Bool × Dev :=
  match key with
  | none => d.send vc p
  | some i => match d.sealPkt i.toNat p with
    | some (q, d) => d.send vc q
    | none => (false, d)

/-- Send the answer to a request: ACK for OK and for a completion with another status, NACK for a refusal (R120). A request that
came on the companion link is answered there; an answer to an ENC request is sent under the entry that admitted it (R506). -/
def Dev.reply (h : ReqHdr) (opc : BitVec 8) (word : Nat) (payload : List Byte) (d : Dev) : Dev :=
  let p := mkPkt d h.src opc h.tag word payload
  match h.via with
  | .companion => d.emitPkt .companion 1 p
  | .port _ => (d.sendAs h.fkey 1 p).2

/-- ACK with status OK and, for a read or an ATOMIC, data. -/
def Dev.ackData (h : ReqHdr) (data : List Byte) (d : Dev) : Dev :=
  d.reply h 0x20 (answerWord .ok (!data.isEmpty) false false 0 false h.retry.toNat) data

/-- ACK with a status and no data. -/
def Dev.ackStatus (h : ReqHdr) (st : Status) (d : Dev) : Dev :=
  d.reply h 0x20 (answerWord st false false false 0 false h.retry.toNat) []

/-- NACK with a status and a hint. -/
def Dev.nack (h : ReqHdr) (st : Status) (hint : Nat) (reserved : Bool) (d : Dev) : Dev :=
  d.reply h 0x21 (answerWord st false false false hint reserved h.retry.toNat) []

/-- The arrival port of a log record: 0 to 23, or 24 for the companion link (R705). -/
def viaNo : Via → Nat
  | .port p => p.val
  | .companion => 24

/-- The half of an arrival (R704): the companion link belongs to the West half. -/
def viaHalf : Via → Half
  | .port p => halfOfPort p
  | .companion => .west

/-- A MALFORMED_RX record (R705): cause, what was received, and the VC. `home` gives the half of the home agent for causes
found at a home. -/
def Dev.logMalformed (via : Via) (home : Option Half) (cause opc vc : Nat) (node : Option NodeId) (st : Status) (d : Dev) : Dev :=
  let blk := match home, via with
    | some _, _ => blockOf Reg.coh
    | none, .port p => blockOf (Reg.fab p.val)
    | none, .companion => blockOf Reg.cmp
  d.log (home.getD (viaHalf via))
    { type := 0x10, sev := 1, block := blk, node := node, status := st.code.toNat,
      detail := [(40, 1, cause), (41, 1, viaNo via), (42, 1, opc), (43, 1, vc)] }

end Sys2Proof.Machine
end

