-- ==== Sys2Proof/Machine/Pool.lean ====
section
/-! DEFINITION. The pool address space: extents, host sets and partitions as lookups, the placement of lines on channels (R48, R161,
R205), block-cache frames, and reads and writes of one line in DRAM. -/

namespace Sys2Proof.Machine

/-! ### Extents (R43 to R59) -/

/-- An absent entry of the extent table (R55). -/
def extReset : Ext :=
  { base := 0, len := 0, place := 0, tier := 0, state := .free, part := 0, keySlot := 0, hset := 0, gen := 0, perm := 0,
    backing := 0, accepted := true, secret := 0 }

/-- First pool offset of an extent. -/
def Ext.first (e : Ext) : Nat := e.base.toNat * 2 ^ 21
/-- Length of an extent in bytes (R51). -/
def Ext.size (e : Ext) : Nat := (e.len.toNat + 1) * 2 ^ 21
/-- Number of 4 KiB granules. -/
def Ext.granules (e : Ext) : Nat := (e.len.toNat + 1) * 512
/-- Number of 64 KiB blocks. -/
def Ext.blocks (e : Ext) : Nat := (e.len.toNat + 1) * 32
/-- Whether an extent holds a pool offset. -/
def Ext.holds (e : Ext) (off : Nat) : Bool := decide (e.first ≤ off ∧ off < e.first + e.size)
/-- A tiered extent (R51). -/
def Ext.tiered (e : Ext) : Bool := e.tier == 1
/-- The code of an extent state (R54). -/
def extStateCode : ExtState → Nat
  | .free => 0 | .init => 1 | .active => 2 | .revoking => 3 | .revoked => 4 | .scrubbing => 5

/-- The entry image (R51). -/
def Ext.image (e : Ext) : Nat :=
  e.base.toNat + e.len.toNat * 2 ^ 27 + e.place.toNat * 2 ^ 54 + e.tier.toNat * 2 ^ 56 + extStateCode e.state * 2 ^ 58
    + (e.part.toNat + e.keySlot.toNat * 2 ^ 12 + e.hset.toNat * 2 ^ 24 + e.gen.toNat * 2 ^ 36 + e.perm.toNat * 2 ^ 52) * 2 ^ 64
    + e.backing.toNat * 2 ^ 128

/-- The entry that an image writes; STATE and GEN are read-only in the image (R51, R702). -/
def extOfImage (n : Nat) : Ext :=
  { extReset with
    base := BitVec.ofNat 27 n, len := BitVec.ofNat 27 (bits n 53 27), place := BitVec.ofNat 2 (bits n 55 54),
    tier := BitVec.ofNat 2 (bits n 57 56), part := BitVec.ofNat 12 (bits n 75 64), keySlot := BitVec.ofNat 12 (bits n 87 76),
    hset := BitVec.ofNat 12 (bits n 99 88), perm := BitVec.ofNat 8 (bits n 123 116), backing := BitVec.ofNat 40 (bits n 167 128) }

/-- Whether an extent image has a 1 in a reserved bit (R702). -/
def extReservedBits (n : Nat) : Bool :=
  bits n 63 61 != 0 || bits n 127 124 != 0 || bits n 123 122 != 0 || bits n 255 168 != 0

namespace Dev

/-- An entry of the extent table. -/
def ext (d : Dev) (i : Nat) : Ext := Tbl.get extReset d.coh.exts i

/-- Store an entry of the extent table in both copies (R51). -/
def setExt (i : Nat) (e : Ext) (d : Dev) : Dev :=
  { d with coh := { d.coh with exts := Tbl.set extReset i e d.coh.exts } }

/-- The extent that holds a pool offset and is not FREE (R60 check 2). -/
def extAt (d : Dev) (off : Nat) : Option (Nat × Ext) :=
  d.coh.exts.find? fun x => decide (x.2.state ≠ .free) && x.2.holds off

/-- A partition, if it exists. -/
def part? (d : Dev) (p : PartId) : Option Part := Tbl.find d.parts p.toNat

/-- Whether a partition exists. The steps of a destroy command are one step of the model, so no other command sees a partition that is being
destroyed (R677). -/
def partLive (d : Dev) (p : PartId) : Bool := (d.part? p).isSome

/-- Whether a partition is confidential (R59). -/
def conf (d : Dev) (p : PartId) : Bool :=
  match d.part? p with
  | some x => x.conf
  | none => false

/-- Change a partition's record. -/
def modPart (p : PartId) (f : Part → Part) (d : Dev) : Dev := { d with parts := Tbl.upd p.toNat f d.parts }

/-- A range slot of a host set (R56). -/
def slot (d : Dev) (set slot : Nat) : Word64 := Tbl.get 0 d.coh.hsets (set * 16 + slot)

/-- The 16 slots of a host set. -/
def slots (d : Dev) (set : Nat) : List Word64 := (List.range 16).map (d.slot set)

/-- The effective permissions: FROZEN withdraws writing (R53), and a confidential partition's extent grants nothing until it is
accepted (R500). -/
def perm (d : Dev) (e : Ext) : Nat :=
  if d.conf e.part && !e.accepted then 0
  else
    let p := e.perm.toNat
    if bits p 5 5 = 1 then p % 2 + bits p 3 3 * 8 + 32 else p

/-- Whether a line is the record line of a publication region (R80). -/
def isRecordLine (d : Dev) (line : Nat) : Bool := d.coh.regions.any fun r => r.2.line.toNat == line

end Dev

/-- Whether a slot covers a source node, with its source partition where the slot asks for one (R57). -/
def slotAdmits (w : Word64) (node : NodeId) (spart : Option PartId) : Bool :=
  let n := w.toNat
  let first := n % 65536
  bits n 45 45 == 1 && decide (first ≤ node.toNat ∧ node.toNat ≤ first + bits n 31 16)
    && (bits n 44 44 == 0 || (match spart with | some p => p.toNat == bits n 43 32 | none => false))

/-- Whether a list of slots admits a request (R57). -/
def slotsAdmit (l : List Word64) (node : NodeId) (spart : Option PartId) : Bool := l.any (slotAdmits · node spart)

/-- The source partition that a request carries (R443). -/
def ReqHdr.spart? (h : ReqHdr) : Option PartId := if h.pv then some h.spart else none

/-! ### Placement (R48, R49, R161, R205) -/

/-- Channel and granule row within the extent's backing of a pool offset (R48). -/
def placeOf (e : Ext) (off : Nat) : Nat × Nat :=
  let k := (off - e.first) / 4096
  if e.place = 0 then
    let c := k % 24
    (c % 2 * 12 + c / 2, k / 24)
  else
    let h := if e.place = 1 then 0 else 1
    (h * 12 + k % 12, k / 12)

/-- The half of a line's home (R27). -/
def homeHalf (e : Ext) (off : Nat) : Half := halfOfChan (placeOf e off).1

/-- The byte key of a channel and a channel-local address. -/
def memKey (ch a : Nat) : Nat := ch * 2 ^ 38 + a

/-- The thatch block that holds a pool offset of a tiered extent (R162). -/
def blockNo (e : Ext) (off : Nat) : Nat := e.backing.toNat + (off - e.first) / 65536

/-- The areas and sets of the block cache (R157, R161). -/
def Tier.mapFirst (t : Tier) : Nat := t.rows - t.rows / 2048 - ceilDiv (4 * t.blocks) 98304
@[inherit_doc Tier.mapFirst] def Tier.halfRows (t : Tier) : Nat := (t.mapFirst - t.pinRows) / 2
@[inherit_doc Tier.mapFirst] def Tier.perPhase (t : Tier) : Nat := t.halfRows / 16 * 16
@[inherit_doc Tier.mapFirst] def Tier.sets (t : Tier) : Nat := t.perPhase / 16

/-- The set of a block (R162). -/
def Tier.setOf (t : Tier) (blk : Nat) : Nat := (blk ^^^ (blk / 2 ^ 26)) % t.sets

/-- The key of frame f of phase p in the tag table. -/
def frameKey (p f : Nat) : Nat := p * 2 ^ 32 + f

/-- Channel and row of granule g of a block of phase p in frame f (R161). -/
def framePlace (t : Tier) (p f g : Nat) : Nat × Nat :=
  let c := (16 * p + g) % 24
  let lower := p == 0 || (p == 1 && decide (c ≥ 16))
  (c % 2 * 12 + c / 2, t.pinRows + (if lower then 0 else t.halfRows) + f)

/-- The frame that holds a thatch block, valid or being filled or evicted, with its key. -/
def Dev.frameOf (d : Dev) (blk : Nat) : Option (Nat × Frame) :=
  d.tier.frames.find? fun x => x.2.block == blk && (x.2.valid || x.2.state != .idle)

/-- Whether a frame serves requests (R167). -/
def Frame.serves (f : Frame) : Bool := f.valid && (f.state == .idle || f.state == .writeback)

/-- The line key of granule g, line l of a frame. -/
def frameLine (t : Tier) (key g l : Nat) : Nat :=
  let pl := framePlace t (key / 2 ^ 32) (key % 2 ^ 32) g
  memKey pl.1 (pl.2 * 4096 + l * 64) / 64

/-- Whether a line can be served: its extent is pinned, or its block stands in an IDLE or WRITEBACK
frame (R167) that is not being evicted (R174). -/
def Dev.resident (d : Dev) (e : Ext) (off : Nat) : Bool :=
  if e.tiered then
    match d.frameOf (blockNo e off) with
    | some (_, f) => f.serves && !(d.tier.wbs.any fun w => w.evict && w.block == blockNo e off)
    | none => false
  else true

/-- Where a pool line is: its line key in DRAM, or none when no valid frame holds its block (R49). -/
def Dev.lineKey (d : Dev) (e : Ext) (off : Nat) : Option Nat :=
  if e.tiered then
    match d.frameOf (blockNo e off) with
    | some (k, f) =>
      if f.valid then some (frameLine d.tier k ((off - e.first) % 65536 / 4096) (off % 4096 / 64)) else none
    | none => none
  else
    let pl := placeOf e off
    some (memKey pl.1 ((e.backing.toNat + pl.2) * 4096 + off % 4096) / 64)

/-- Channel of a line key. -/
def keyChan (k : Nat) : Nat := k / 2 ^ 32
/-- Channel-local byte address of a line key. -/
def keyAddr (k : Nat) : Nat := k % 2 ^ 32 * 64

/-! ### DRAM lines -/

/-- A channel at reset. -/
def chanReset : DdrChan :=
  { dimm := none, lat := [], bulk := [], wr := [], waits := [], batch := false, rrBulk := false, rrLeft := 0, sinceBulk := 0, ranks := [],
    banks := [], retry := [], alerts := 0, recover := false, window := [], reopen := [], retrained := false, results := [], marks := [],
    retRows := [], retBanks := [], scrubAt := ⟨0, 0⟩, scrubBusy := ⟨0, 0⟩, lapStart := 0, lapAlarm := false, lapSubs := ⟨false, false⟩,
    cmdWaits := false, mr4At := 0 }

/-- Whether a buffer has a free entry (R206). -/
def DdrChan.room (x : DdrChan) : ChanBuf → Bool
  | .latency => decide (x.lat.length < 64)
  | .bulk => decide (x.bulk.length < 128)
  | .write => decide (x.wr.length < 64)

/-- Put an access into a buffer. -/
def DdrChan.put (x : DdrChan) (q : ChanReq) : ChanBuf → DdrChan
  | .latency => { x with lat := x.lat ++ [q] }
  | .bulk => { x with bulk := x.bulk ++ [q] }
  | .write => { x with wr := x.wr ++ [q] }

/-- An access reaches the channel (R206, R207, R209): a read of a line that a write in the buffer holds is served from it; an access waits at the
home agent for a free entry, and behind an earlier one of its buffer or its line. -/
def DdrChan.enter (x : DdrChan) (b : ChanBuf) (q : ChanReq) : DdrChan :=
  if (x.waits.any fun w => w.buf == b || w.req.line == q.line) then { x with waits := x.waits ++ [⟨b, q⟩] }
  else if b ≠ .write ∧ x.wr.any fun w => w.line == q.line then x
  else if x.room b then x.put q b
  else { x with waits := x.waits ++ [⟨b, q⟩] }

/-- The accesses that wait at the home agent try again, in their order. -/
def DdrChan.readmit (x : DdrChan) : DdrChan := x.waits.foldl (fun y w => y.enter w.buf w.req) { x with waits := [] }

namespace Dev

/-- A DDR channel. -/
def chan (d : Dev) (c : Nat) : DdrChan := Tbl.get chanReset d.ddr c

/-- Store a channel. -/
def setChan (c : Nat) (x : DdrChan) (d : Dev) : Dev := { d with ddr := Tbl.set chanReset c x d.ddr }

/-- Number of row bits q and rank bits r of a channel's DIMM (R201, R232): (q, r). -/
def dimmBits (d : Dev) (c : Nat) : Nat × Nat :=
  (if d.fld (Reg.ddr c * 4096 + 0x100) 3 3 = 1 then 17 else 16, if d.fld (Reg.ddr c * 4096 + 0x100) 2 2 = 1 then 2 else 1)

/-- Rank, physical bank (0 to 31) and row of a channel-local address (R205). -/
def dramPlace (d : Dev) (c a : Nat) : Nat × Nat × Nat :=
  let (q, r) := d.dimmBits c
  let row := bits a (18 + r + q) (19 + r)
  let bg := bits a 14 12 ^^^ row % 8
  let bk := bits a 16 15 ^^^ row / 8 % 4
  (bits a (18 + r) 19, bk * 8 + bg, row)

/-- LOC of a log record (R260). -/
def locOf (d : Dev) (k : Nat) : Nat :=
  let c := keyChan k
  let a := keyAddr k
  let (rank, bank, row) := d.dramPlace c a
  c + rank * 2 ^ 5 + bits a 6 6 * 2 ^ 7 + bank % 8 * 2 ^ 8 + bank / 8 * 2 ^ 11 + row * 2 ^ 13
    + (bits a 11 7 + bits a 18 17 * 32) * 2 ^ 31

/-- Whether a granule row is retired, itself or through its bank (R258); rows of the thatch map and the tag region never are. -/
def retired (d : Dev) (k : Nat) : Bool :=
  let x := d.chan (keyChan k)
  if x.retRows.isEmpty && x.retBanks.isEmpty then false
  else
    let a := keyAddr k
    let (rank, bank, _) := d.dramPlace (keyChan k) a
    decide (a / 4096 < d.tier.mapFirst) && (x.retRows.contains (a / 4096) || x.retBanks.contains (rank * 32 + bank))

/-- Whether a channel is FAILED (R224, R232). -/
def chanFailed (d : Dev) (c : Nat) : Bool := d.fld (Reg.ddr c * 4096 + 0x100) 1 0 = 2

end Dev

/-- What a read of a line in DRAM gives (R140, R224, R250, R258). -/
inductive DramRead where
  | data (x : Line)
  | poisoned
  | uncorrectable
deriving DecidableEq, Repr

/-- Read a line: a FAILED channel gives UNCORRECTABLE (R224), an uncorrectable error its first reader (R250), a retired row
POISONED (R258), a poisoned line POISONED. -/
def Dev.readKey (d : Dev) (k : Nat) : DramRead :=
  if d.chanFailed (keyChan k) then .uncorrectable
  else if d.mem.unc.contains k && !d.retired k then .uncorrectable
  else if d.retired k || d.mem.bad k then .poisoned
  else .data (d.mem.line k)

/-- Who writes a line and with what, for the record of a discarded write (R705). -/
structure WriteBy where
  node : NodeId
  part : PartId
  opc  : Nat
  off  : Nat
deriving DecidableEq, Repr

/-- A WRITE_DISCARDED record (R705). -/
def Dev.logDiscard (h : Half) (page cause : Nat) (w : WriteBy) (st : Status) (d : Dev) : Dev :=
  d.log h { type := 0x0A, sev := 1, block := blockOf page, part := some w.part, node := some w.node, status := st.code.toNat,
            addr := d.fabAddr w.off, detail := [(40, 1, cause), (41, 1, w.opc)] }

/-- Change a channel. -/
def Dev.modChan (c : Nat) (f : DdrChan → DdrChan) (d : Dev) : Dev := d.setChan c (f (d.chan c))

/-- Panic follows the occupancy of the latency port (R210, R211). -/
def Dev.setPanic (c : Nat) (d : Dev) : Dev :=
  let a := Reg.ddr c * 4096
  let n := (d.chan c).lat.length
  let lvl := d.fld (a + 0x104) 6 0
  let was := d.fld (a + 0x100) 5 5 = 1
  if ¬ was ∧ n > lvl then d.setFld (a + 0x100) 5 5 1
  else if was ∧ (n + 8 ≤ lvl ∨ n = 0) then d.setFld (a + 0x100) 5 5 0
  else d

/-- A write reaches the channel (R206). The buffers order commands on the DIMM only; what a read returns is decided
when the home agent issues it (R35, R207). -/
def Dev.noteWrite (k : Nat) (x : Option Line) (d : Dev) : Dev := d.modChan (keyChan k) fun c => c.enter .write ⟨keyAddr k, d.now, x⟩

/-- A read reaches a read port of the channel (R206, R207). -/
def Dev.noteRead (host : Bool) (k : Nat) (d : Dev) : Dev :=
  (d.modChan (keyChan k) fun c => c.enter (if host then .latency else .bulk) ⟨keyAddr k, d.now, none⟩).setPanic (keyChan k)

/-- A read of a pool line enters a read port; the first reader of an uncorrectable error has been told of it (R250). -/
def Dev.didRead (host : Bool) (e : Ext) (off : Nat) (d : Dev) : Dev :=
  match d.lineKey e off with
  | none => d
  | some k => ({ d with mem := { d.mem with unc := NSet.erase k d.mem.unc } }).noteRead host k

/-- Write a line, or the poison pattern: a FAILED channel and a retired row discard the write and log it (R224, R258). -/
def Dev.writeKey (k : Nat) (x : Option Line) (w : WriteBy) (d : Dev) : Dev :=
  let c := keyChan k
  if d.chanFailed c then d.logDiscard (halfOfChan c) (Reg.ddr c) 5 w .ok
  else if d.retired k then d.logDiscard (halfOfChan c) (Reg.ras (halfOfChan c)) 7 w .ok
  else ({ d with mem := match x with | some v => d.mem.setLine k v | none => d.mem.setBad k }).noteWrite k x

/-- A granule of a block is written: its dirty bit is set (R166), also for a writeback whose snapshot is taken (R175). -/
def Dev.markDirty (e : Ext) (off : Nat) (d : Dev) : Dev :=
  if e.tiered then
    let blk := blockNo e off
    let g : BitVec 16 := 1#16 <<< ((off - e.first) % 65536 / 4096)
    match d.frameOf blk with
    | none => d
    | some (k, _) =>
      { d with tier := { d.tier with
          frames := Tbl.upd k (fun f => { f with dirty := f.dirty ||| g }) d.tier.frames,
          wbs := d.tier.wbs.map fun w => if w.block = blk then { w with again := w.again ||| g } else w } }
  else d

/-- An access to a block sets its age to 0 (R173). -/
def Dev.touch (e : Ext) (off : Nat) (d : Dev) : Dev :=
  if e.tiered then
    match d.frameOf (blockNo e off) with
    | none => d
    | some (k, _) => { d with tier := { d.tier with frames := Tbl.upd k (fun f => { f with age := 0 }) d.tier.frames } }
  else d

/-- The draw of the secret of an extent's key slot (R507). A request to an extent whose slot is EMPTY gets no further than check 7 of R60. -/
def Dev.slotSecret (d : Dev) (e : Ext) : Nat :=
  match d.part? (BitVec.ofNat 12 e.keySlot.toNat) with | some p => p.secret | none => e.secret

/-- Write a pool line that is resident: data, encrypted under the extent's key slot (R32), or the poison pattern. A poison write that waits for the line
is not made any more: its content is gone. -/
def Dev.writePool (e : Ext) (off : Nat) (x : Option Line) (w : WriteBy) (d : Dev) : Dev :=
  match d.lineKey e off with
  | none => d
  | some k =>
    let d := { d with mem := { d.mem with owed := NSet.erase (off / 64) d.mem.owed } }
    (d.writeKey k (x.map (rekey (d.slotSecret e) e.secret (off / 64))) w).markDirty e off

/-- What a reader makes of a DRAM line of an extent, decrypted under its key slot (R32); poison passes unchanged (R240). -/
def Dev.decrypt (d : Dev) (e : Ext) (off : Nat) (x : DramRead) : DramRead :=
  match x with
  | .data v => .data (rekey e.secret (d.slotSecret e) (off / 64) v)
  | .poisoned => .poisoned
  | .uncorrectable => .uncorrectable

/-- Read a pool line that is resident. -/
def Dev.readPool (d : Dev) (e : Ext) (off : Nat) : Option DramRead := (d.lineKey e off).map fun k => d.decrypt e off (d.readKey k)

/-- A poison write of the home agent (R150, R251): counted and logged. -/
def Dev.poisonPool (e : Ext) (off : Nat) (d : Dev) : Dev :=
  match d.lineKey e off with
  | none => d
  | some k =>
    let h := halfOfChan (keyChan k)
    let d := (d.writeKey k none ⟨d.nodeId, e.part, 0, off⟩).markDirty e off
    (d.bump (Reg.ras h) 0x058 1).log h
      { type := 0x04, sev := 1, block := blockOf Reg.coh, part := some e.part, addr := d.fabAddr off, loc := d.locOf k,
        detail := [(41, 1, 0xFF)] }

end Sys2Proof.Machine
end

