-- ==== Sys2Proof/Machine/Dir.lean ====
section
/-! DEFINITION. The directory slices, snoops and the snoop tracker, grant waits, reservations, and the states of hosts (R117 to
R153, R703). Answers to snoops and the requests that wait for them are in Home. -/

namespace Sys2Proof.Machine

/-! ### Directory entries (R125 to R128) -/

/-- The group bit of a node in a coarse entry (R126). -/
def groupBit (n : NodeId) : Word64 := 1#64 <<< (n.toNat / 1024)

/-- Add a sharer to an entry: the fourth distinct host makes it coarse (R127). -/
def DirEnt.add (e : DirEnt) (n : NodeId) : DirEnt :=
  if e.coarse then { e with groups := e.groups ||| groupBit n }
  else if e.sharers.contains n then e
  else if e.sharers.length < 3 then { e with sharers := e.sharers ++ [n] }
  else { e with coarse := true, groups := (e.sharers ++ [n]).foldl (fun g x => g ||| groupBit x) 0, sharers := [] }

/-- Take a holder off an exact entry. -/
def DirEnt.remove (e : DirEnt) (n : NodeId) : DirEnt := { e with sharers := e.sharers.filter (· ≠ n) }

/-- Whether an entry records no holder. -/
def DirEnt.empty (e : DirEnt) : Bool := !e.coarse && e.sharers.isEmpty

namespace Dev

/-- The directory entry of a line. -/
def dirEnt (d : Dev) (line : Nat) : Option DirEnt := Tbl.find d.coh.dir line

/-- Change the coherence block. -/
def modCoh (f : Coh → Coh) (d : Dev) : Dev := { d with coh := f d.coh }

/-- Store a directory entry; an entry without holders is freed (R125). -/
def setDir (line : Nat) (e : DirEnt) (d : Dev) : Dev :=
  d.modCoh fun c => { c with dir := if e.empty then Tbl.drop line c.dir else Tbl.put line e c.dir }

/-- Free a directory entry. -/
def freeDir (line : Nat) (d : Dev) : Dev := d.modCoh fun c => { c with dir := Tbl.drop line c.dir }

/-- A new entry with one holder, allocated now. -/
def newDir (line : Nat) (modified : Bool) (n : NodeId) (d : Dev) : Dev :=
  d.modCoh fun c => { c with dir := Tbl.put line ⟨modified, false, [n], 0, c.nextAlloc⟩ c.dir, nextAlloc := c.nextAlloc + 1 }

/-- The transaction in progress on a line (R133). -/
def tx? (d : Dev) (line : Nat) : Option LineTx := Tbl.find d.coh.tx line

/-- Store a line's transaction. -/
def setTx (line : Nat) (t : LineTx) (d : Dev) : Dev := d.modCoh fun c => { c with tx := Tbl.put line t c.tx }

/-- The home's poison write of a line (R251): while a transaction runs on the line it waits for its end, and a full-line write of that
transaction makes it void. The rule gives the order of the two, not what becomes of new content; DESIGN CHOICE (log 75). -/
def poisonWrite (e : Ext) (off : Nat) (d : Dev) : Dev :=
  if (d.tx? (off / 64)).isSome then { d with mem := { d.mem with owed := NSet.insert (off / 64) d.mem.owed } } else d.poisonPool e off

/-- End a line's transaction; a poison write that waits for the line is made now (R251). -/
def dropTx (line : Nat) (d : Dev) : Dev :=
  let d := d.modCoh fun c => { c with tx := Tbl.drop line c.tx }
  if d.mem.owed.contains line then
    let d := { d with mem := { d.mem with owed := NSet.erase line d.mem.owed } }
    match d.extAt (line * 64) with
    | some (_, e) => d.poisonPool e (line * 64)
    | none => d
  else d

/-- The record of a host; a host without a record is normal. -/
def host (d : Dev) (n : NodeId) : HostRec :=
  Tbl.get ⟨.normal, 0, [], 0, ⟨true, true⟩, ⟨false, false⟩⟩ d.coh.hosts n.toNat

/-- Store a host's record. -/
def setHost (n : NodeId) (x : HostRec) (d : Dev) : Dev :=
  d.modCoh fun c => { c with hosts := Tbl.set ⟨.normal, 0, [], 0, ⟨true, true⟩, ⟨false, false⟩⟩ n.toNat x c.hosts }

/-- Whether a host is dead (R152). -/
def isDead (d : Dev) (n : NodeId) : Bool := (d.host n).state == .dead

/-- The half of a line's home; the West half for a line in no extent. -/
def lineHalf (d : Dev) (line : Nat) : Half :=
  match d.extAt (line * 64) with
  | some (_, e) => homeHalf e (line * 64)
  | none => .west

/-! ### Items of the snoop tracker (R142, R703) -/

/-- Whether a snoop occupies its node and TAG (R703): from its first attempt until it is answered. -/
def Snoop.open_ (s : Snoop) : Bool := decide (s.attempt > 0) && !s.answered

/-- Whether an item is outstanding for a node and TAG (R703): a snoop, one of a failed line whose last attempt still runs, or a grant
wait. -/
def itemBusy (d : Dev) (n : NodeId) (t : Tag) : Bool :=
  (d.coh.tx.any fun x =>
    (x.2.snoops.any fun s => s.node == n && s.tag == t && Snoop.open_ s)
      || (match x.2.grant with | some g => g.node == n && g.tag == t && g.since.isSome | none => false))
    || (d.coh.late.any fun l => l.node == n && l.tag == t && l.due.isSome)

/-- A tag for a snoop that serves no host's request: the lowest from 0x8000 that opens no second item (R703). Device-issued transactions
use the tags below 0x8000, so a copy that a holder forwards for such a snoop is never taken for an answer to one of them. That split is the
model's choice. DESIGN CHOICE (log 70). -/
def freeTag (d : Dev) (n : NodeId) : Tag :=
  BitVec.ofNat 16 (0x8000 + ((List.range (d.coh.tx.length + d.coh.late.length + 1)).find? fun t =>
    !d.itemBusy n (BitVec.ofNat 16 (0x8000 + t))).getD 0)

/-- Entries of a half's snoop tracker in use (R142). -/
def snoopUse (d : Dev) (h : Half) : Nat :=
  (d.coh.tx.filter fun x => (!x.2.snoops.isEmpty || x.2.grant.isSome) && d.lineHalf x.1 == h).length

/-- Whether a half's snoop tracker has a free entry (R142). -/
def snoopRoom (d : Dev) (h : Half) : Bool := decide (d.snoopUse h < 4096)

/-- Entries of a half's home tracker in use: the requests that wait (R36, R60). -/
def homeUse (d : Dev) (h : Half) : Nat :=
  (d.coh.tx.filter fun x => x.2.req.isSome && d.lineHalf x.1 == h).length

/-- Whether the companion link holds snoops and probes back: it retrains, for less than 2 ms (R636). -/
def cmpHolds (d : Dev) (n : NodeId) : Bool :=
  n == d.compNode && d.compNode != 0xFFFF && d.fld 0xD100 2 0 == 3 && decide (d.now < d.cmp.retrainAt + 2000000)

/-- The fabric-key entry under which a partition sends to a node (R499, R506). -/
def peerKey (d : Dev) (p : PartId) (n : NodeId) : Option (BitVec 13) :=
  (d.sec.fkeys.find? fun k => k.2.part == p && k.2.tree.isNone && k.2.peer == n).map fun k => BitVec.ofNat 13 k.1

/-- Send one attempt of a snoop (R120, R149); a snoop for a line of a confidential extent goes under the entry for the holder,
and without one nothing is sent (R506). -/
def sendSnoop (line : Nat) (s : Snoop) (d : Dev) : Dev :=
  let ln : LineNo := BitVec.ofNat 42 line
  let opc : BitVec 8 := match s.ask with | .inv => 0x10 | _ => 0x11
  let p := mkPkt d s.node opc s.tag (snoopWord ln s.reqNode s.retry.toNat) [] (match s.ask with | .toInvalid => 1 | _ => 0)
  match d.extAt (line * 64) with
  | some (_, e) =>
    if d.conf e.part then
      match d.peerKey e.part s.node with
      | some k => (d.sendAs (some k) 2 p).2
      | none => d
    else (d.send 2 p).2
  | none => (d.send 2 p).2

/-- Start a snoop that waits, when no other item of its node and TAG is outstanding: its first attempt is sent, or held by
the companion link (R636, R703). -/
def startSnoop (line : Nat) (s : Snoop) (d : Dev) : Snoop × Dev :=
  if s.attempt ≠ 0 ∨ s.answered ∨ d.itemBusy s.node s.tag then (s, d)
  else if d.cmpHolds s.node then ({ s with attempt := 1, held := true, firstAt := d.now, sentAt := d.now }, d)
  else
    let s := { s with attempt := 1, firstAt := d.now, sentAt := d.now }
    (s, d.sendSnoop line s)

/-- Start the waiting snoops of one line, one after another. -/
def startSnoops (line : Nat) (d : Dev) : Dev :=
  match d.tx? line with
  | none => d
  | some t =>
    foldN t.snoops.length (fun i d =>
      match d.tx? line with
      | none => d
      | some t => match t.snoops[i]? with
        | none => d
        | some s =>
          let (s', d') := d.startSnoop line s
          d'.setTx line { t with snoops := t.snoops.set i s' }) d

/-- Start waiting snoops of every line: an item has ended (R703). -/
def startWaiting (d : Dev) : Dev := (d.coh.tx.map (·.1)).foldl (fun d line => d.startSnoops line) d

/-- A new snoop for a node. -/
def mkSnoop (n : NodeId) (tag : Tag) (retry : BitVec 4) (reqNode : NodeId) (ask : SnoopAsk) : Snoop :=
  { node := n, tag := tag, retry := retry, reqNode := reqNode, ask := ask, attempt := 0, firstAt := 0, sentAt := 0, held := false,
    answered := false, storeWait := false }

/-- The groups of a coarse entry in which a holder may remain that a transaction does not snoop (R127, R132): the requester's own, and every group
of a restriction's sweep, which spares the hosts that may still read. -/
def keptGroups (d : Dev) (line : Nat) (why : TxWhy) (req : Option HomeReq) : Word64 :=
  match d.dirEnt line with
  | none => 0
  | some e =>
    if !e.coarse then 0
    else match why, req with
      | .sweep _ false, _ => e.groups
      | .demand, some r => if r.eng.isNone then e.groups &&& groupBit r.hdr.src else 0
      | _, _ => 0

/-- Begin a transaction on a line: its snoops are sent as items become free. -/
def beginTx (line : Nat) (why : TxWhy) (req : Option HomeReq) (snoops : List Snoop) (d : Dev) : Dev :=
  (d.setTx line { why := why, req := req, snoops := snoops, data := none, stored := false, owed := false, badData := false,
                  keep := d.keptGroups line why req, grant := none }).startSnoops line

/-- A snoop that serves no request of a host (R703). -/
def selfSnoop (d : Dev) (n : NodeId) (ask : SnoopAsk) : Snoop := mkSnoop n (d.freeTag n) 0 d.nodeId ask

/-! ### Snoop targets (R128) -/

/-- The slots from which the targets of a coarse entry are taken: those of the extent's host set and, while a change of them
runs on the extent, those before it (R128). -/
def targetSlots (d : Dev) (i : Nat) (e : Ext) : List Word64 :=
  d.slots e.hset.toNat ++ (d.coh.changes.filter fun c => c.exts.any fun x => x.1.toNat == i).flatMap (·.oldSlots)

/-- The nodes that slots with PART_MATCH = 0 cover inside the groups of a coarse entry. -/
def coveredNodes (l : List Word64) (groups : Word64) : List NodeId :=
  (l.filter fun w => w.getLsbD 45 && !w.getLsbD 44).foldl (fun acc w =>
    let first := w.toNat % 65536
    (List.range (bits w.toNat 31 16 + 1)).foldl (fun acc i =>
      let n : NodeId := BitVec.ofNat 16 (first + i)
      if groups.getLsbD (n.toNat / 1024) && !acc.contains n then acc ++ [n] else acc) acc) []

/-- The holders that an entry's snoops go to, other than one requester, this node and dead hosts (R128, R132, R152). -/
def holders (d : Dev) (i : Nat) (e : Ext) (ent : DirEnt) (req : Option NodeId) : List NodeId :=
  let l := if ent.coarse then coveredNodes (d.targetSlots i e) ent.groups else ent.sharers
  l.filter fun n => some n ≠ req && n ≠ d.nodeId && !d.isDead n

/-! ### Reservations (R145 to R147) -/

/-- Whether a request holds a reservation on a line. -/
def reserved (d : Dev) (n : NodeId) (t : Tag) (line : LineNo) : Bool :=
  d.coh.resv.any fun r => r.node == n && r.tag == t && r.line == line

/-- The first reservation on a line. -/
def firstResv (d : Dev) (line : LineNo) : Option Resv := d.coh.resv.find? fun r => r.line == line

/-- A reservation ends when its request completes with any status (R147). -/
def endResv (n : NodeId) (t : Tag) (line : LineNo) (d : Dev) : Dev :=
  d.modCoh fun c => { c with resv := c.resv.filter fun r => !(r.node == n && r.tag == t && r.line == line) }

/-- Restart the window of a reservation: its holder's retry was refused. -/
def renewResv (n : NodeId) (t : Tag) (line : LineNo) (d : Dev) : Dev :=
  d.modCoh fun c => { c with resv := c.resv.map fun r => if r.node == n && r.tag == t && r.line == line then { r with since := d.now } else r }

/-- The line becomes stable: the windows of its reservations run from now (R147). -/
def stableResv (line : LineNo) (d : Dev) : Dev :=
  d.modCoh fun c => { c with resv := c.resv.map fun r => if r.line == line then { r with since := d.now } else r }

/-- Whether another requester's reservation stands first on a line (R146). -/
def heldFor (d : Dev) (h : ReqHdr) (line : LineNo) : Bool :=
  match d.firstResv line with
  | some f => !(f.node == h.src && f.tag == h.tag)
  | none => false

/-- Ask for a reservation at a refusal (R145): granted to a request with RETRY of 7 or more while the half holds fewer than
1,024 and the node fewer than 4. Answers whether the request holds one. -/
def askResv (h : ReqHdr) (half : Half) (d : Dev) : Bool × Dev :=
  let line : LineNo := BitVec.ofNat 42 (h.offset.toNat / 64)
  if d.reserved h.src h.tag line then (true, d.renewResv h.src h.tag line)
  else if h.retry.toNat < 7 then (false, d)
  else if (d.coh.resv.filter fun r => r.half == half).length ≥ 1024 ∨ (d.coh.resv.filter fun r => r.half == half && r.node == h.src).length ≥ 4
  then (false, d)
  else (true, (d.modCoh fun c => { c with resv := c.resv ++ [⟨h.src, h.tag, line, half, d.now⟩] }).bump Reg.coh 0x048 1)

/-! ### Hosts (R150 to R153) -/

/-- A HOST_STATE record (R705). -/
def logHost (n : NodeId) (state cause lines : Nat) (line : Option Nat) (d : Dev) : Dev :=
  d.log d.strapHalf
    { type := 0x0C, sev := state, block := blockOf Reg.coh, node := some n,
      addr := match line with | some l => d.fabAddr (l * 64) | none => 0,
      detail := [(40, 1, state), (41, 1, cause), (44, 4, lines)] }

/-- Send a liveness probe with a fresh NONCE (R151). -/
def sendProbe (n : NodeId) (d : Dev) : Dev :=
  let (i, d) := d.draw
  let nonce := Config.drawNonce i
  let x := d.host n
  let d := d.setHost n { x with nonces := x.nonces ++ [nonce], probed := d.now }
  d.sendCtl 6 (mkPkt d n 0x41 0 nonce.toNat)

/-- A host becomes suspect (R150): logged, HOST_SUSPECT is set and the first probe is sent, or held for the companion. -/
def suspect (n : NodeId) (cause line : Nat) (d : Dev) : Dev :=
  let x := d.host n
  if x.state ≠ .normal then d
  else
    let d := d.setHost n { x with state := .suspect, since := d.now, nonces := [], probed := d.now }
    let d := (d.logHost n 1 cause 0 (some line)).cause Reg.coh 2
    if d.cmpHolds n then d else d.sendProbe n

end Dev

/-- The offset of a line number. -/
def lineOff (line : LineNo) : Nat := line.toNat * 64

end Sys2Proof.Machine
end

