-- ==== Sys2Proof/Machine/TierCore.lean ====
section
/-! DEFINITION. The block cache: frames, the start of fills and evictions, and the recall of a block's lines (R161 to R183). -/

namespace Sys2Proof.Machine

/-- An invalid tag. -/
def frameReset : Frame :=
  { block := 0, ext := 0, valid := false, state := .idle, dirty := 0, pin := false, cold := false, age := 0 }

/-- What no bring-up has found out about a port's drive yet (R586, R678). -/
def driveReset : Drive := ⟨false, false, 0, [], 0, 0, 0, false, [], []⟩

/-- Drive positions of a thatch block (R185): stripe, data position, and the drives of P, Q and the data unit. -/
structure StripePlace where
  stripe : Nat
  pos    : Nat
  p      : Nat
  q      : Nat
  data   : Nat
deriving DecidableEq, Repr

/-- Where a thatch block lies on the drives (R185). -/
def stripePlace (blk : Nat) : StripePlace :=
  let s := blk / 14
  let j := blk % 14
  let p := s % 16
  { stripe := s, pos := j, p := p, q := (p + 1) % 16, data := (p + 2 + j) % 16 }

/-- The data position of a drive in a stripe, or none for the drives of P and Q (R185). -/
def stripePos (stripe port : Nat) : Option Nat :=
  let j := (port + 16 - stripe % 16 + 14) % 16
  if j < 14 then some j else none

/-- The places on the I/O queue pairs of a drive (R190): 32 submission queues of 256 entries, of which one stays free. -/
def queuePlaces : Nat := 32 * 255

namespace Dev

/-- Change the tier block. -/
def modTier (f : Tier → Tier) (d : Dev) : Dev := { d with tier := f d.tier }

/-- The link of a root port turns off or starts training (R586, R608): LINK_CHANGE, and a drive whose link leaves ACTIVE loses its identity
(R679). -/
def rootLink (p : Nat) (st : BitVec 3) (d : Dev) : Dev :=
  let x := Tbl.get driveReset d.tier.drives p
  if x.link = st then d
  else
    let y := { x with link := st, width := 0, rate := 0, present := false, supported := false, lbas := 0, serial := [] }
    (d.modTier fun t => { t with drives := Tbl.set driveReset p y t.drives }).cause (Reg.dtp p) 1

/-- A frame's tag. -/
def frame (d : Dev) (k : Nat) : Frame := Tbl.get frameReset d.tier.frames k

/-- Store a frame's tag. -/
def setFrame (k : Nat) (f : Frame) (d : Dev) : Dev := d.modTier fun t => { t with frames := Tbl.set frameReset k f t.frames }

/-- A thatch map entry (R187). -/
def mapEnt (d : Dev) (blk : Nat) : Word32 := Tbl.get 0 d.tier.map blk

/-- Store a thatch map entry. -/
def setMap (blk : Nat) (w : Word32) (d : Dev) : Dev := d.modTier fun t => { t with map := Tbl.set 0 blk w t.map }

/-- The EPOCH of a block (R187). -/
def epoch (d : Dev) (blk : Nat) : Nat := (d.mapEnt blk).toNat / 4

/-- FLUSH completes when it waits for nothing more (R198). -/
def flushCheck (d : Dev) : Dev :=
  let l := d.tier.flush.filter fun x => x.left != 0
  if l.isEmpty ∧ !d.tier.flush.isEmpty then (d.modTier fun t => { t with flush := [] }).cmdEnd Reg.tier 0xA104 1 .ok
  else d.modTier fun t => { t with flush := l }

/-- FLUSH does not wait for a block any longer. -/
def flushDrop (blk : Nat) (d : Dev) : Dev :=
  (d.modTier fun t => { t with flush := t.flush.map fun x => if x.block = blk then { x with left := 0 } else x }).flushCheck

/-- Number of frames of the block cache. -/
def frameCount (d : Dev) : Nat := 3 * d.tier.perPhase

/-- Number of dirty frames. -/
def dirtyCount (d : Dev) : Nat := (d.tier.frames.filter fun f => f.2.valid && f.2.dirty != 0).length

/-- The start and the stop level of the cleaner, in percent (R197). -/
def cleanLevels (d : Dev) : Nat × Nat :=
  let hi := min 100 (d.fld 0xA10C 7 0)
  (hi, if d.fld 0xA10C 15 8 ≥ hi then hi - 1 else d.fld 0xA10C 15 8)

/-- The cleaner stops below LOW, and with HIGH 0 at once (R178, R197). -/
def cleanerStop (d : Dev) : Dev :=
  let (hi, lo) := d.cleanLevels
  if d.tier.cleaning ∧ (hi = 0 ∨ d.dirtyCount * 100 < lo * d.frameCount ∨ d.dirtyCount = 0) then d.modTier fun t => { t with cleaning := false } else d

/-- A frame becomes invalid (R174 step 4, R181, R256); FLUSH does not wait for its block any longer, and there may be fewer dirty frames. -/
def freeFrame (k : Nat) (d : Dev) : Dev :=
  if (d.frame k).valid then ((d.setFrame k frameReset).flushDrop (d.frame k).block).cleanerStop else d.setFrame k frameReset

/-- A block becomes a zero block (R179, R181): DATA and LOST clear, and EPOCH stays. An entry of R257 holds until THATCH_INIT. -/
def zeroMap (blk : Nat) (d : Dev) : Dev :=
  if d.mapEnt blk = 0xFFFFFFFF then d else d.setMap blk (d.mapEnt blk &&& ~~~3#32)

/-- First pool offset of a cached block. -/
def blockOff (d : Dev) (i : Nat) (blk : Nat) : Nat := (d.ext i).first + (blk - (d.ext i).backing.toNat) * 65536

/-- The lines of a block that the directory records. -/
def blockDir (d : Dev) (i : Nat) (blk : Nat) : List (Nat × DirEnt) :=
  let l := d.blockOff i blk / 64
  d.coh.dir.filter fun x => decide (l ≤ x.1 ∧ x.1 < l + 1024)

/-- A line held in M by a dead host is treated as poisoned at its next lookup (R152). -/
def deadLookup (line : Nat) (d : Dev) : Dev :=
  match d.dirEnt line, d.extAt (line * 64) with
  | some ent, some (_, e) =>
    if ent.modified && (ent.sharers.any d.isDead) && (d.tx? line).isNone then
      ((d.poisonPool e (line * 64)).bump Reg.coh 0x068 1).freeDir line
    else d
  | _, _ => d

/-- The set of a block, as the key of its first frame over 16, and the half that holds its tags (R162). -/
def tagSet (d : Dev) (i blk : Nat) : Nat × Half :=
  let s := d.tier.setOf blk
  (frameKey ((blk - (d.ext i).backing.toNat) % 3) (16 * s) / 16, if s % 2 = 0 then .west else .east)

/-- A lookup of a block's tag (R164): a set that the half's tag cache of 8,192 sets does not hold is read from the tag region and installed; which
set then leaves a full cache R164 does not say. A place that a hard fault has disabled (R254) holds no set; DESIGN CHOICE (log 75). -/
def tagLookup (i blk : Nat) (d : Dev) : Dev :=
  let (s, h) := d.tagSet i blk
  let l := d.tier.tags.at h
  if l.contains s then d
  else
    let (n, d) := d.draw
    let cap := 8192 - min 4096 ((d.ras.at h).waysOff.filter fun w => w.1 / 2 ^ 32 == 2).length
    let kept := if l.length < cap then l else l.eraseIdx (Config.tagVictim n % cap)
    (foldN 8 (fun j d => d.noteRead false (Config.tagPlace s + j)) d).modTier fun t => { t with tags := t.tags.set h (kept ++ [s]) }

/-- Recall the lines of a block that no transaction holds (R174, R175, R181): every holder, or only owners in M. A line whose holders are
all dead counts as answered (R152). A line for which the snoop tracker has no room (R142) is recalled at a later look. -/
def recallBlock (i : Nat) (blk : Nat) (why : TxWhy) (ask : SnoopAsk) (onlyM : Bool) (d : Dev) : Dev :=
  (d.blockDir i blk).foldl (fun d x =>
    if (onlyM && !x.2.modified) || (d.tx? x.1).isSome then d
    else
      let hs := d.holders i (d.ext i) x.2 none
      if hs.isEmpty then (d.deadLookup x.1).freeDir x.1
      else if !d.snoopRoom (d.lineHalf x.1) then d
      else d.beginTx x.1 why none (hs.map fun n => d.selfSnoop n ask)) d

/-- Whether a block has lines that hosts hold or that are in transition. -/
def blockBusy (d : Dev) (i : Nat) (blk : Nat) (onlyM : Bool) : Bool :=
  let l := d.blockOff i blk / 64
  ((d.blockDir i blk).any fun x => !onlyM || x.2.modified) || (d.coh.tx.any fun x => decide (l ≤ x.1 ∧ x.1 < l + 1024))

/-- Start the eviction of a frame (R174): it becomes EVICTING and its lines are recalled. -/
def startEvict (k : Nat) (d : Dev) : Dev :=
  let f := d.frame k
  if f.valid ∧ f.state = .idle then
    (d.setFrame k { f with state := .evicting }).recallBlock f.ext.toNat f.block (.evict f.block) .inv false
  else d

/-- Whether a granule row of a channel belongs to what a retirement names. -/
def retireHits (d : Dev) (c n : Nat) (isBank : Bool) (ch row : Nat) : Bool :=
  ch == c && (if isBank then
      let (rank, bank, _) := d.dramPlace c (row * 4096)
      rank * 32 + bank == n
    else row == n)

/-- Whether any granule of a frame lies in a row that is retired or being retired (R258). -/
def frameRetired (d : Dev) (k : Nat) : Bool := (List.range 16).any fun g =>
  let pl := framePlace d.tier (k / 2 ^ 32) (k % 2 ^ 32) g
  d.retired (frameLine d.tier k g 0) || [Half.west, Half.east].any fun h =>
    match (d.ras.at h).retire with
    | some (c, n, isBank) => d.retireHits c n isBank pl.1 pl.2
    | none => false

/-- Carry on a retirement (R258): the frames it touches are evicted; then the row or bank is listed and the command completes. -/
def tryRetire (h : Half) (d : Dev) : Dev :=
  match (d.ras.at h).retire with
  | none => d
  | some (c, n, isBank) =>
    let keys := (d.tier.frames.filter fun f => (f.2.valid || f.2.state != .idle) && (List.range 16).any fun g =>
      let pl := framePlace d.tier (f.1 / 2 ^ 32) (f.1 % 2 ^ 32) g
      d.retireHits c n isBank pl.1 pl.2).map (·.1)
    if keys.isEmpty then
      let d := { d with ras := d.ras.mod h fun r => { r with retire := none } }
      let d := d.modChan c fun x => if isBank then { x with retBanks := NSet.insert n x.retBanks } else { x with retRows := NSet.insert n x.retRows }
      let d := d.log h { type := 0x13, sev := 2, block := blockOf (Reg.ras h),
                         loc := if isBank then c + n / 32 * 2 ^ 5 + n % 8 * 2 ^ 8 + n / 8 % 4 * 2 ^ 11 else d.locOf (memKey c (n * 4096) / 64) }
      d.cmdEnd (Reg.ras h) (Reg.ras h * 4096 + 0x104) 1 .ok
    else keys.foldl (fun d k => d.startEvict k) d

/-- Whether frame a goes before frame b as a victim (R173). -/
def victimBefore (a b : Frame) : Bool :=
  if a.cold != b.cold then a.cold
  else if (a.dirty == 0) != (b.dirty == 0) then a.dirty == 0
  else decide (a.age.toNat > b.age.toNat)

/-- The victim of a set (R173), or none: the first of the best in way order. -/
def victim (d : Dev) (keys : List Nat) : Option Nat :=
  keys.foldl (fun best k =>
    let f := d.frame k
    if f.valid && f.state == .idle && !f.pin then
      match best with
      | none => some k
      | some b => if victimBefore f (d.frame b) then some k else some b
    else best) none

/-- The frame keys that a block may occupy (R162). -/
def waysOf (d : Dev) (i : Nat) (blk : Nat) : List Nat :=
  let p := (blk - (d.ext i).backing.toNat) % 3
  (List.range 16).map fun w => frameKey p (16 * d.tier.setOf blk + w)

/-- Whether the drive of a port counts as failed; one under rebuild does until its rebuild ends (R193). -/
def driveFailed (d : Dev) (port : Nat) : Bool := d.tier.failed.getLsbD port

/-- A port's record. -/
def drive (d : Dev) (port : Nat) : Drive := Tbl.get driveReset d.tier.drives port

/-- Store a port's record. -/
def putDrive (port : Nat) (x : Drive) (d : Dev) : Dev := d.modTier fun t => { t with drives := Tbl.set driveReset port x t.drives }

/-- Commands of a drive that wait for a place on its queues are issued (R190): counted and sent. -/
def driveIssue (port : Nat) (d : Dev) : Dev :=
  let x := d.drive port
  let out := (x.io.filter fun y => y.issued.isSome).length
  let l := (x.io.filter fun y => y.issued.isNone).take (queuePlaces - out)
  let now := x.io.filter (·.issued.isSome) ++ l.map fun y => { y with issued := some d.now }
  let rest := (x.io.filter fun y => y.issued.isNone).drop (queuePlaces - out)
  l.foldl (fun d y => d.emit (.drive port y.cmd)) ((d.putDrive port { x with io := now ++ rest }).bump (Reg.dtp port) 0x040 l.length)

/-- An NVMe read of a stripe's unit from a drive, or a write to it (R190). -/
def driveCmd (port : Nat) (use : DriveUse) (cmd : Nvme) (d : Dev) : Dev :=
  (d.putDrive port { d.drive port with io := (d.drive port).io ++ [⟨use, cmd, none⟩] }).driveIssue port

/-- The commands of some use have completed on every drive: their places are taken by commands that wait. -/
def driveEnd (f : DriveIo → Bool) (d : Dev) : Dev :=
  foldN 16 (fun p d =>
    let x := d.drive p
    if x.io.any f then (d.putDrive p { x with io := x.io.filter fun y => !f y }).driveIssue p else d) d

/-- Read a stripe from every surviving member, but for those in `except` and those that a read for the same use is out to (R170, R192, R195). -/
def askMembers (use : DriveUse) (stripe : Nat) (except : List Nat) (d : Dev) : Dev :=
  foldN 16 (fun p d =>
    if d.driveFailed p || except.contains p || (d.drive p).io.any (fun y => y.use == use && y.cmd == .read (stripe * 16)) then d
    else d.driveCmd p use (.read (stripe * 16))) d

/-- The reads of a block (R170 step 3, R193): of its data drive; with that drive failed, of the 14 surviving members of its stripe, and none
when fewer survive. -/
def readBlock (blk : Nat) (d : Dev) : Dev :=
  let sp := stripePlace blk
  if !d.driveFailed sp.data then d.driveCmd sp.data (.fill blk) (.read (sp.stripe * 16))
  else if d.tier.state = .failed then d
  else (((List.range 16).filter fun p => !d.driveFailed p).take 14).foldl (fun d p => d.driveCmd p (.fill blk) (.read (sp.stripe * 16))) d

/-- Whether a block's next fill reads the drives: its map entry has DATA = 1 and not LOST (R187). -/
def onDrives (d : Dev) (blk : Nat) : Bool := (d.mapEnt blk).getLsbD 0 && !(d.mapEnt blk).getLsbD 1

/-- Whether a frame is being evicted (R174): EVICTING, or in the writeback of its eviction. -/
def leaving (d : Dev) (k : Nat) : Bool :=
  (d.frame k).state == .evicting || d.tier.wbs.any fun w => w.evict && w.frame == k

/-- Give a fill a frame (R170 steps 1 and 2): an invalid frame of the set, whose tag is written FILLING; otherwise a victim's
eviction starts, unless one of the set is being evicted already. A block with content on the drives is read (step 3). A fill of a block
that is being evicted starts when the eviction ends (R174). -/
def tryFrame (blk : Nat) (d : Dev) : Dev :=
  match d.tier.fills.find? fun f => f.block == blk && f.frame.isNone with
  | none => d
  | some fl =>
    if (d.frameOf blk).isSome then d else
    let keys := (d.waysOf fl.ext.toNat blk).filter fun k => !d.frameRetired k
    match keys.find? fun k => !(d.frame k).valid && (d.frame k).state == .idle with
    | some k =>
      let d := d.setFrame k { frameReset with block := blk, ext := fl.ext, state := .filling }
      let d := d.modTier fun t => { t with fills := t.fills.map fun f => if f.block == blk then { f with frame := some k } else f }
      if d.onDrives blk then d.readBlock blk else d
    | none =>
      if keys.any d.leaving then d
      else match d.victim keys with
        | some k => d.startEvict k
        | none => d

/-- Start or join the fill of a block that is not resident (R34, R170); that of a block being evicted waits for the eviction (R174). -/
def startFill (i : Nat) (blk : Nat) (d : Dev) : Dev :=
  if d.tier.fills.any fun f => f.block == blk then d
  else (d.modTier fun t => { t with fills := t.fills ++ [⟨blk, BitVec.ofNat 15 i, none⟩] }).tryFrame blk

/-- The hint of a TIER_FILL answer (R168, R197). -/
def fillHint (d : Dev) (blk : Nat) : Nat :=
  if (d.mapEnt blk).getLsbD 0 then min1 (d.fld 0xA108 15 0) else min1 (d.fld 0xA108 31 16)

end Dev

end Sys2Proof.Machine
end

