-- ==== Sys2Proof/Machine/Home.lean ====
section
/-! DEFINITION. The home agent: the checks of R60, the transitions of R130, answers, snoop responses, deadlines and grant waits. -/

namespace Sys2Proof.Machine

/-! ### Arithmetic of ATOMIC (R123) -/

/-- The new value of an ATOMIC operation on w bits (R123): old value, first operand and, for CAS, the new value. None for a
reserved AOP. -/
def atomicNew {w : Nat} (aop : BitVec 4) (old a b : BitVec w) : Option (BitVec w) :=
  match aop.toNat with
  | 0 => some (old + a)
  | 1 => some a
  | 2 => some (if old = a then b else old)
  | 3 => some (old &&& a)
  | 4 => some (old ||| a)
  | 5 => some (old ^^^ a)
  | 6 => some (if a.slt old then a else old)
  | 7 => some (if old.slt a then a else old)
  | 8 => some (if a < old then a else old)
  | 9 => some (if old < a then a else old)
  | _ => none

/-- Number of payload bytes of an ATOMIC (R123). -/
def atomicLen (aop : BitVec 4) (wide : Bool) : Nat := (if wide then 8 else 4) * (if aop = 2 then 2 else 1)

/-- Apply an ATOMIC to a line: the new line and the old value's bytes. -/
def atomicLine (aop : BitVec 4) (wide : Bool) (operand : List Byte) (pos : Nat) (x : Line) : Option (Line × List Byte) :=
  let n := if wide then 8 else 4
  let old := leAt (lineBytes x) pos n
  let a := leAt operand 0 n
  let b := leAt operand n n
  let new := if wide then (atomicNew aop (BitVec.ofNat 64 old) (BitVec.ofNat 64 a) (BitVec.ofNat 64 b)).map (·.toNat)
    else (atomicNew aop (BitVec.ofNat 32 old) (BitVec.ofNat 32 a) (BitVec.ofNat 32 b)).map (·.toNat)
  new.map fun v =>
    let l := lineBytes x
    (lineOf (l.take pos ++ leBytes n v ++ l.drop (pos + n)), leBytes n old)

/-- The OPC of a request (R120). -/
def kindOpc : ReqKind → Nat
  | .loadShared _ => 0x01 | .loadOwn => 0x02 | .store _ => 0x03 | .writeInval _ _ => 0x04 | .writePartial _ _ => 0x05
  | .atomic _ _ _ => 0x06

/-- Whether a request writes. -/
def kindWrites : ReqKind → Bool
  | .loadShared _ => false | .loadOwn => false | _ => true

/-- Whether a request reads DRAM (R206). -/
def kindReads : ReqKind → Bool
  | .store _ => false | .writeInval _ _ => false | _ => true

/-- Whether the permissions of an extent grant a host request (R52). -/
def grants (perm : Nat) : ReqKind → Bool
  | .loadShared _ => bits perm 0 0 == 1
  | .loadOwn => bits perm 0 0 == 1 && bits perm 1 1 == 1
  | .store _ => bits perm 1 1 == 1
  | .writeInval _ _ => bits perm 1 1 == 1
  | .writePartial _ _ => bits perm 1 1 == 1
  | .atomic _ _ _ => bits perm 2 2 == 1

namespace Dev

/-! ### The end of an engine access -/

/-- Change an engine access. -/
def modAcc (id : Nat) (f : EngAcc → EngAcc) (d : Dev) : Dev :=
  { d with xlt := { d.xlt with accs := d.xlt.accs.map fun a => if a.id = id then f a else a } }

/-- An engine access that has been issued. -/
def acc? (d : Dev) (id : Nat) : Option EngAcc := d.xlt.accs.find? fun a => a.id == id

/-- The transaction of an access that waits to be sent again is not sent (R289); its TAG is not used toward the node for 160 µs (R456). -/
def forgetAgain (id : Nat) (d : Dev) : Dev :=
  let (mine, keep) := d.fab.dev.partition fun t => t.acc == id && t.again.isSome
  { d with fab := { d.fab with dev := keep, tagsUsed := d.fab.tagsUsed ++ mine.map fun t => (t.node, t.tag, d.now + 160000) } }

/-- Forget an engine access: what has been issued for it completes at its home, and nothing further is issued (R289). -/
def dropAcc (id : Nat) (d : Dev) : Dev :=
  ({ d with xlt := { d.xlt with accs := d.xlt.accs.filter fun a => a.id != id } }).forgetAgain id

/-- An engine access ends with a status and data. The write of a ring entry that fails is counted (R111); the filler of a quiet slot
leaves nothing; a result for a core of a quiet partition is held until LAT after its issue, or is an overrun (R513). -/
def endAcc (id : Nat) (st : Status) (data : List Byte) (d : Dev) : Dev :=
  match d.acc? id with
  | none => d
  | some a =>
    match a.why with
    | .ring => (if st = .ok then d else d.bump Reg.xlt 0x040 1).dropAcc id
    | .filler => d.dropAcc id
    | .probe => d.modAcc id fun a => { a with state := .ended st data }
    | _ =>
      let quiet := match a.who, d.part? a.part with
        | .core _ _, some p => if p.quiet.on then some (a.issued + p.quiet.lat.toNat * 100) else none
        | _, _ => none
      match quiet with
      | none => d.modAcc id fun a => { a with state := .ended st data }
      | some due =>
        if d.now < due then
          ({ d with sec := { d.sec with nextHeld := d.sec.nextHeld + 1 } }).modAcc id fun a =>
            { a with state := .quiet d.sec.nextHeld due st data }
        else
          (if d.now = due then d else d.modPart a.part fun x => { x with quiet := { x.quiet with overruns := satAdd x.quiet.overruns 1 } }).modAcc
            id fun a => { a with state := .ended st data }

/-! ### Checks and answers -/

/-- COH.NACK_CFG.BASE_HINT (R154). -/
def baseHint (d : Dev) : Nat := min1 (d.fld 0x9130 7 0)

/-- Checks 2 to 7 of R60 on a host request. -/
def hostChecks (d : Dev) (h : ReqHdr) (kind : ReqKind) : Except Status (Nat × Ext) :=
  match d.extAt h.offset.toNat with
  | none => .error .noAccess
  | some (i, e) =>
    if e.state = .init then .error .noAccess
    else if e.state ≠ .active then .error .revoked
    else if !slotsAdmit (d.slots e.hset.toNat) h.src (ReqHdr.spart? h) then .error .noAccess
    else if d.conf e.part && !(match h.fkey with
        | some k => (match d.fkey k.toNat with | some f => f.part == e.part | none => false)
        | none => false) then .error .keyError
    else if !grants (d.perm e) kind || (kindWrites kind && d.isRecordLine (h.offset.toNat / 64)) then .error .noAccess
    else if !(match d.part? (BitVec.ofNat 12 e.keySlot.toNat) with | some p => p.slotLive | none => false) then .error .keyError
    else .ok (i, e)

/-- A partition's quiet mode covers a host answer: the extent is pinned (R513). -/
def quietLat (d : Dev) (off : Nat) : Option (PartId × Nat) :=
  match d.extAt off with
  | none => none
  | some (_, e) =>
    match d.part? e.part with
    | none => none
    | some p => if p.quiet.on && !e.tiered then some (e.part, p.quiet.lat.toNat * 100) else none

/-- Let an answer to a host request leave (R513): in quiet mode it leaves LAT after the request's arrival, or at once when that
time has passed, which is an overrun. -/
def answerHost (h : ReqHdr) (arrived : Nat) (opc : BitVec 8) (word : Nat) (payload : List Byte) (d : Dev) : Dev :=
  match d.quietLat h.offset.toNat with
  | none => d.reply h opc word payload
  | some (p, lat) =>
    if arrived + lat = d.now then d.reply h opc word payload
    else if arrived + lat < d.now then
      (d.modPart p fun x => { x with quiet := { x.quiet with overruns := satAdd x.quiet.overruns 1 } }).reply h opc word payload
    else
      let pkt := mkPkt d h.src opc h.tag word payload
      let hold (q : Packet) (d : Dev) : Dev :=
        { d with sec := { d.sec with held := d.sec.held ++ [⟨d.sec.nextHeld, p, arrived + lat, h.via, 1, q⟩], nextHeld := d.sec.nextHeld + 1 } }
      match h.fkey with
      | none => hold pkt d
      | some k => match d.sealPkt k.toNat pkt with
        | some (q, d) => hold q d
        | none => d

/-- End a request with ACK and a status: its reservation ends (R147). -/
def finishReq (h : ReqHdr) (arrived : Nat) (st : Status) (data : List Byte) (d : Dev) : Dev :=
  let d := if st = .keyError then d.bump Reg.sec 0x050 1 else d
  (d.answerHost h arrived 0x20 (answerWord st (!data.isEmpty) false false 0 false h.retry.toNat) data).endResv h.src h.tag
    (BitVec.ofNat 42 (h.offset.toNat / 64))

/-- The hint of NACK_RETRY for a line in transition (R143, R636). -/
def lineHint (d : Dev) (t : LineTx) : Nat :=
  let open_ := t.snoops.filter fun s => decide (s.attempt > 0) && (!s.answered || s.storeWait)
  if t.why == .backInval || open_.isEmpty || open_.any (·.held) then d.baseHint
  else
    let last := (open_.map fun s => s.firstAt + 6000).foldl max 0
    max 1 (ceilDiv (last - d.now) 100)

/-- Refuse a request with NACK_RETRY (R141, R145), counted (R156). -/
def refuse (h : ReqHdr) (arrived hint : Nat) (half : Half) (d : Dev) : Dev :=
  let (res, d) := d.askResv h half
  (d.bump Reg.coh 0x040 1).answerHost h arrived 0x21 (answerWord .nackRetry false false false hint res h.retry.toNat) []

/-- A home answers an engine of this device (R60): an access ends; a walk or the front end takes the answer at its next step. -/
def engAnswer (b : EngBy) (off : Offset) (st : Status) (data : List Byte) (d : Dev) : Dev :=
  match b with
  | .acc id => d.endAcc id st data
  | .walk id => if d.xlt.walks.any fun w => w.id == id then d.modCoh fun c => { c with engDone := c.engDone ++ [(b, off, st, data)] } else d
  | .front _ _ => d.modCoh fun c => { c with engDone := c.engDone ++ [(b, off, st, data)] }

/-- An admitted request completes (R60, R61): a host's with ACK, an engine's with its status and data. -/
def complete (r : HomeReq) (st : Status) (data : List Byte) (d : Dev) : Dev :=
  match r.eng with
  | none => d.finishReq r.hdr r.arrived st data
  | some b => d.engAnswer b r.hdr.offset st data

/-- An engine of this device is refused with NACK_RETRY (R41, R114, R156): an access tries again after the hint, in units of 100 ns. -/
def engRefuse (b : EngBy) (hint : Nat) (d : Dev) : Dev :=
  let d := d.bump Reg.coh 0x040 1
  match b with
  | .acc id => d.modAcc id fun a => { a with state := .retry (d.now + hint * 100) }
  | _ => d

/-- An admitted request is refused with NACK_RETRY (R141). -/
def turnAway (r : HomeReq) (hint : Nat) (half : Half) (d : Dev) : Dev :=
  match r.eng with
  | none => d.refuse r.hdr r.arrived hint half
  | some b => d.engRefuse b hint

/-- The check that a refused request failed, where a discarded write is logged for it: 1 for check 3, 2 for check 6 (R60, R63). -/
def failedCheck (d : Dev) (h : ReqHdr) (st : Status) : Option (Nat × Ext) :=
  match d.extAt h.offset.toNat with
  | none => none
  | some (_, e) =>
    if e.state ≠ .active then some (1, e)
    else if st = .noAccess ∧ slotsAdmit (d.slots e.hset.toNat) h.src (ReqHdr.spart? h) then some (2, e)
    else none

/-- The record of a discarded write of a request (R63, R131, R705). -/
def discardReq (cause : Nat) (h : ReqHdr) (kind : ReqKind) (part : PartId) (half : Half) (st : Status) (d : Dev) : Dev :=
  d.logDiscard half Reg.coh cause ⟨h.src, part, kindOpc kind, h.offset.toNat / 64 * 64⟩ st

/-- The status of a DRAM read that gave no data. -/
def readStatus : DramRead → Status
  | .uncorrectable => .uncorrectable
  | _ => .poisoned

/-- The line's entry after a read by a caching host: the host joins the sharers (R127, R130). -/
def addSharer (line : Nat) (n : NodeId) (d : Dev) : Dev :=
  match d.dirEnt line with
  | none => d.newDir line false n
  | some e => d.setDir line (DirEnt.add e n)

/-- Begin the grant of a line in M (R130, R137): the answer leaves and the wait opens, or both wait for another item of the node and
TAG to end (R703). A line that the owner forwarded is not read from DRAM. A grant on a line that has an entry counts as a new allocation; R148 does
not say whether it does. DESIGN CHOICE (log 71). -/
def openGrant (line : Nat) (d : Dev) : Dev :=
  match d.tx? line with
  | none => d
  | some t =>
    match t.req, t.grant with
    | some r, some g =>
      if g.since.isSome ∨ d.itemBusy g.node g.tag then d
      else
        let fwd := t.data.isSome && !t.stored
        let give (data : List Byte) (e : Ext) (d : Dev) : Dev :=
          let d := (d.newDir line true r.hdr.src).markDirty e (line * 64)
          let d := d.answerHost r.hdr r.arrived 0x20 (answerWord .ok (!fwd) fwd false 0 false r.hdr.retry.toNat) data
          let d := d.endResv r.hdr.src r.hdr.tag (BitVec.ofNat 42 line)
          d.setTx line { t with req := none, owed := false, grant := some { g with since := some d.now } }
        match d.extAt (line * 64) with
        | none => ((d.turnAway r d.baseHint (d.lineHalf line)).dropTx line).stableResv (BitVec.ofNat 42 line)
        | some (_, e) =>
          if fwd then give [] e d
          else match d.readPool e (line * 64) with
            | some (.data v) => give (lineBytes v) e d
            | some o => ((d.complete r (readStatus o) []).dropTx line).stableResv (BitVec.ofNat 42 line)
            | none => ((d.turnAway r d.baseHint (homeHalf e (line * 64))).dropTx line).stableResv (BitVec.ofNat 42 line)
    | _, _ => d

/-- A request finds that its line is no longer resident (R33, R167): it is refused. -/
def notThere (r : HomeReq) (e : Ext) (d : Dev) : Dev := d.turnAway r d.baseHint (homeHalf e r.hdr.offset.toNat)

/-- Whether reads of a line's channel wait: CHECK runs on it (R233). -/
def readHeld (d : Dev) (e : Ext) (off : Nat) : Bool := match d.lineKey e off with | some k => (d.chan (keyChan k)).cmdWaits | none => false

/-- Answer a request on a line that no other host holds in a conflicting state (R130, R139, R140). A read whose channel runs CHECK waits (R233), until
CHECK ends or its answer point. -/
def serve (line : Nat) (r : HomeReq) (e : Ext) (d : Dev) : Dev :=
  let off := line * 64
  let h := r.hdr
  if kindReads r.kind && d.readHeld e off then
    d.setTx line { why := .demand, req := some r, snoops := [], data := none, stored := false, owed := false, badData := false, keep := 0,
                   grant := none }
  else if kindWrites r.kind && d.mem.wrBad.contains line then
    -- an uncorrectable word in the write data (R250)
    ((({ d with mem := { d.mem with wrBad := NSet.erase line d.mem.wrBad } } : Dev).poisonWrite e off).freeDir line).complete r .uncorrectable []
  else if !kindWrites r.kind && d.mem.rdBad.contains line then
    -- an uncorrectable word in the read data on the mesh: DRAM is unchanged (R250)
    ({ d with mem := { d.mem with rdBad := NSet.erase line d.mem.rdBad } } : Dev).complete r .uncorrectable []
  else
  let d := d.touch e off
  let rd := d.readPool e off
  let d := if kindReads r.kind then d.didRead r.eng.isNone e off else d
  let by_ : WriteBy := ⟨h.src, e.part, kindOpc r.kind, off⟩
  match r.kind with
  | .loadShared nc =>
    match rd with
    | some (.data v) =>
      let d := if nc then d else d.addSharer line h.src
      d.complete r .ok (lineBytes v)
    | some o => d.complete r (readStatus o) []
    | none => d.notThere r e
  | .loadOwn =>
    match rd with
    | some (.data _) =>
      (d.setTx line { why := .demand, req := some r, snoops := [], data := none, stored := false, owed := false, badData := false, keep := 0,
                      grant := some ⟨h.src, h.tag, none⟩ }).openGrant line
    | some o => d.complete r (readStatus o) []
    | none => d.notThere r e
  | .store v => ((d.writePool e off (some v) by_).freeDir line).complete r .ok []
  | .writeInval v bad =>
    let d := (d.writePool e off (if bad then none else some v) by_).freeDir line
    let d := if bad then d.bump (Reg.ras (homeHalf e off)) 0x058 1 else d
    d.complete r .ok []
  | .writePartial v m =>
    match rd with
    | some (.data old) => ((d.writePool e off (some (lineMerge old v m)) by_).freeDir line).complete r .ok []
    | some o => (d.freeDir line).complete r (readStatus o) []
    | none => d.notThere r e
  | .atomic aop wide operand =>
    match rd with
    | some (.data old) =>
      match atomicLine aop wide operand (h.offset.toNat % 64) old with
      | some (new, was) =>
        let d := (d.writePool e off (some new) by_).freeDir line
        let d := if h.pv then d.modCoh fun c => { c with replies := c.replies ++ [⟨homeHalf e off, h.src, h.tag, h.offset, was, d.now⟩] }
          else d
        d.complete r .ok was
      | none => d.complete r .malformed []
    | some o => (d.freeDir line).complete r (readStatus o) []
    | none => d.notThere r e

/-- The number of ways of a directory set in service (R125, R254): 16 less those disabled, at least 8. -/
def dirWays (d : Dev) (half : Half) (set : BitVec 17) : Nat :=
  16 - min 8 ((d.ras.at half).waysOff.filter fun w => w.1 == set.toNat).length

/-- The entries of a line's set in its slice, when every way is in use (R148). A grant that waits for another item of its node and TAG (R703)
has its way already. -/
def fullSet (d : Dev) (line : Nat) : Option (List (Nat × DirEnt)) :=
  if d.coh.dir.length < 8 then none
  else
    let set := Config.dirSet (BitVec.ofNat 42 line)
    let half := d.lineHalf line
    let l := d.coh.dir.filter fun x => Config.dirSet (BitVec.ofNat 42 x.1) == set && d.lineHalf x.1 == half
    let own := d.coh.tx.filter fun x => x.2.grant.isSome && (d.dirEnt x.1).isNone && Config.dirSet (BitVec.ofNat 42 x.1) == set
      && d.lineHalf x.1 == half
    if l.length + own.length < d.dirWays half set then none else some l

/-- The sharers of a line after its snoops were answered (R130, R134, R141): a snooped holder is gone, but an owner that sent its
data for SNOOP_FWD TO_SHARED stays in S, and a coarse entry stays while a holder that no snoop went to may remain (R127). -/
def settleDir (line : Nat) (t : LineTx) (d : Dev) : Dev :=
  match d.dirEnt line with
  | none => d
  | some e =>
    let gone := (t.snoops.filter fun s => !(s.ask == .toShared && t.data.isSome && !t.stored)).map (·.node)
    if e.coarse then (if t.keep = 0 then d.freeDir line else d.setDir line { e with groups := t.keep })
    else d.setDir line { e with modified := false, sharers := e.sharers.filter fun n => !gone.contains n }

/-- The extent and generation under which a line's revocation sweep runs. -/
def isRevokeSweep : TxWhy → Bool
  | .sweep _ r => r
  | _ => false

/-- Whether Modified data that comes back is not written to DRAM: revocation (R73), DROP (R181), and, while its request waits, a WRITE_INVAL
that replaces it or a LOAD_OWN to which it moves (R130). -/
def dropsData (t : LineTx) : Bool :=
  isRevokeSweep t.why || (match t.why with | .drop _ => true | _ => false)
    || (match t.req with
      | some r => (match r.kind with | .writeInval _ _ => true | .loadOwn => !t.stored && !t.badData | _ => false)
      | none => false)

/-- Write Modified data that came back and that DRAM does not hold yet, unless it is dropped (R73, R130, R141). -/
def writeBack (line : Nat) (t : LineTx) (e : Ext) (owner : NodeId) (d : Dev) : Dev :=
  match t.data with
  | none => d
  | some v =>
    if !t.owed || dropsData t then d
    else d.writePool e (line * 64) (if t.badData then none else some v) ⟨owner, e.part, 0x20, line * 64⟩

/-- A read gets the data that the owner sent (R130, R136): a host by the owner's forward and an ACK with FWD = 1, an engine of this device from
the home. -/
def answerForward (line : Nat) (r : HomeReq) (v : Line) (d : Dev) : Dev :=
  match r.eng with
  | none =>
    (d.answerHost r.hdr r.arrived 0x20 (answerWord .ok false true false 0 false r.hdr.retry.toNat) []).endResv r.hdr.src r.hdr.tag (BitVec.ofNat 42 line)
  | some b => d.engAnswer b r.hdr.offset .ok (lineBytes v)

/-- All snoops of a line have been answered: Modified data is written or dropped, the directory settled, and the request that
waits is served (R130, R141). -/
def finishTx (line : Nat) (t : LineTx) (d : Dev) : Dev :=
  match d.extAt (line * 64) with
  | none => (d.freeDir line).dropTx line
  | some (_, e) =>
    let off := line * 64
    let owner := (t.snoops.head?.map (·.node)).getD 0
    let d := if t.data.isSome && t.owed && isRevokeSweep t.why then d.logDiscard (homeHalf e off) Reg.coh 1 ⟨owner, e.part, 0x20, off⟩ .revoked
      else d.writeBack line t e owner
    let d := d.settleDir line t
    let stable (d : Dev) : Dev := if (d.tx? line).isNone then d.stableResv (BitVec.ofNat 42 line) else d
    match t.req with
    | none => (d.dropTx line).stableResv (BitVec.ofNat 42 line)
    | some r =>
      let rline := r.hdr.offset.toNat / 64
      if rline ≠ line then
        -- a back-invalidation has made room for another line's request (R148)
        match d.extAt r.hdr.offset.toNat with
        | some (_, e') =>
          let d := (d.dropTx line).stableResv (BitVec.ofNat 42 line)
          -- while the room was made, another request may have taken the line or the way, or an eviction its block: the request is refused
          let taken : Bool := match d.dirEnt rline with
            | some ent => ent.modified || r.kind == .loadOwn
            | none => (d.fullSet rline).isSome
          if (d.tx? rline).isSome ∨ taken ∨ !d.resident e' r.hdr.offset.toNat then
            d.turnAway r d.baseHint (homeHalf e' r.hdr.offset.toNat)
          else d.serve rline r e'
        | none => d.dropTx line
      else
        match r.kind, t.data, t.stored || t.badData with
        | .loadShared nc, some v, false =>
          let d := if nc then d else d.addSharer line r.hdr.src
          (((d.touch e off).answerForward line r v).dropTx line).stableResv (BitVec.ofNat 42 line)
        | .loadOwn, some _, false =>
          (((d.freeDir line).touch e off).setTx line { t with snoops := [], grant := some ⟨r.hdr.src, r.hdr.tag, none⟩ }).openGrant line
        | .loadOwn, _, _ => stable (((d.freeDir line).dropTx line).serve line r e)
        | _, _, _ => stable ((d.dropTx line).serve line r e)

/-- Whether a line's snoops have all ended. -/
def txDone (t : LineTx) : Bool := t.grant.isNone && t.snoops.all fun s => s.answered && !s.storeWait

/-- A full-line write of the device itself through the home (R29, R79, R81): false while the line is in transition, its holders
are being recalled, its block is not resident, or a reservation holds it. -/
def homeWrite (i : Nat) (e : Ext) (line : Nat) (x : Option Line) (w : WriteBy) (d : Dev) : Bool × Dev :=
  let d := d.deadLookup line
  if (d.tx? line).isSome ∨ (d.firstResv (BitVec.ofNat 42 line)).isSome then (false, d)
  else if !d.resident e (line * 64) then (false, d.startFill i (blockNo e (line * 64)))
  else
    let hs := match d.dirEnt line with | some ent => d.holders i e ent none | none => []
    if !hs.isEmpty ∧ !d.snoopRoom (d.lineHalf line) then (false, d)
    else if hs.isEmpty then (true, ((d.writePool e (line * 64) x w).freeDir line).touch e (line * 64))
    else (false, d.beginTx line .recall none (hs.map fun n => d.selfSnoop n .inv))

/-- Carry on line writes of circuit frames and tree data (R465, R469): each line is checked under R60 as a request of the source; a
frame whose lines have all been answered gets its CKT_ACK. -/
def tryPosted (d : Dev) : Dev :=
  let (left, d) := d.coh.posted.foldl (fun (a : List Posted × Dev) p =>
    let (p, d) := p.left.foldl (fun (a : Posted × Dev) x =>
      let off : Offset := BitVec.ofNat 48 (x.1.toNat * 64)
      let h : ReqHdr := ⟨.companion, p.src, 0, 0, false, p.part.isSome, p.part.getD 0, p.fkey, off⟩
      let kind : ReqKind := .writeInval (x.2.getD 0) x.2.isNone
      match a.2.hostChecks h kind with
      | .error st =>
        let d := match a.2.failedCheck h st with
          | some (c, e) => a.2.logDiscard (homeHalf e off.toNat) Reg.coh c ⟨p.src, e.part, 4, off.toNat⟩ st
          | none => a.2
        ({ a.1 with status := if a.1.status = .ok then st else a.1.status }, d)
      | .ok (i, e) =>
        let (ok, d) := a.2.homeWrite i e x.1.toNat x.2 ⟨p.src, e.part, 4, off.toNat⟩
        if ok then (a.1, d) else ({ a.1 with left := a.1.left ++ [x] }, d)) ({ p with left := [] }, a.2)
    if p.left.isEmpty then
      match p.ack with
      | some (ckt, ftag) =>
        let word := p.status.code.toNat + ftag.toNat * 2 ^ 8 + ckt.toNat * 2 ^ 18
        (a.1, (d.sendAs p.fkey 1 (mkPkt d p.src 0x22 0 word)).2)
      | none => (a.1, d)
    else (a.1 ++ [p], d)) (([] : List Posted), { d with coh := { d.coh with posted := [] } })
  { d with coh := { d.coh with posted := left ++ d.coh.posted } }

/-- Carry on a REGION_CREATE whose record line could not be written yet (R79). -/
def regionStep (d : Dev) : Dev :=
  match d.coh.regionWait with
  | none => d
  | some n =>
    match Tbl.find d.coh.regions n with
    | none => d.modCoh fun c => { c with regionWait := none }
    | some r =>
      match d.extAt (r.line.toNat * 64) with
      | none => d.modCoh fun c => { c with regionWait := none }
      | some (i, e) =>
        let (ok, d) := d.homeWrite i e r.line.toNat (some 0) ⟨d.nodeId, r.owner, 0x04, r.line.toNat * 64⟩
        if ok then (d.modCoh fun c => { c with regionWait := none }).cmdEnd Reg.coh 0x9104 1 .ok else d

/-- Carry on the writes that the device itself makes at the home. -/
def tryRegion (d : Dev) : Dev := d.regionStep.tryPosted

/-- Open grants that waited for an item, then start waiting snoops (R703). -/
def itemEnded (d : Dev) : Dev :=
  (((d.coh.tx.filter fun x => x.2.grant.isSome && x.2.req.isSome).map (·.1)).foldl (fun d l => d.openGrant l) d.startWaiting).tryRegion

/-- Complete a line's transaction when nothing of it is left to wait for. -/
def advance (line : Nat) (d : Dev) : Dev :=
  match d.tx? line with
  | none => d
  | some t => if txDone t then (d.finishTx line t).itemEnded else d

/-- A snoop or grant wait has failed on a line (R76, R135, R137, R150): the line is poisoned and its entry freed, or, for a
revocation's sweep, only its entry is freed. A request still waiting is refused. A snoop of another holder whose third attempt still runs stays
an item until its own deadline; DEDUCED from R150 and R703 (log 70). -/
def failLine (line : Nat) (node : NodeId) (cause : Nat) (d : Dev) : Dev :=
  match d.tx? line with
  | none => d
  | some t =>
    let off := line * 64
    let late := (t.snoops.filter fun s => decide (s.attempt > 0) && (!s.answered || s.storeWait)).map fun s =>
      (⟨s.node, s.tag, BitVec.ofNat 42 line, if s.node ≠ node && !s.answered && s.attempt == 3 then some (s.sentAt + 2000) else none⟩ : LateSnoop)
    let d := d.modCoh fun c => { c with late := c.late ++ late }
    let d := match d.extAt off with
      | none => d
      | some (_, e) => if isRevokeSweep t.why then d else (d.poisonPool e off).bump Reg.coh 0x068 1
    let d := ((d.freeDir line).dropTx line).stableResv (BitVec.ofNat 42 line)
    let d := match t.req with
      | some r => d.turnAway r d.baseHint (d.lineHalf line)
      | none => d
    (d.suspect node cause line).itemEnded

/-- The victim of a full set (R148): stable, without a reservation, S before M, fewest exact sharers, least recently allocated. -/
def dirVictim (d : Dev) (l : List (Nat × DirEnt)) : Option Nat :=
  let rank (e : DirEnt) : Nat := (if e.modified then 10 else 0) + (if e.coarse then 4 else e.sharers.length)
  (l.foldl (fun best x =>
    if (d.tx? x.1).isSome || (d.firstResv (BitVec.ofNat 42 x.1)).isSome then best
    else match best with
      | none => some x
      | some b => if rank x.2 < rank b.2 ∨ (rank x.2 = rank b.2 ∧ x.2.alloc < b.2.alloc) then some x else some b) none).map (·.1)

/-- The snoops that a request needs (R130, R132): the owner of a line in M, or the sharers when the request writes or takes the
line. Those for an engine of this device carry this node in REQ_NODE (R121). -/
def neededSnoops (d : Dev) (i : Nat) (e : Ext) (line : Nat) (h : ReqHdr) (eng : Bool) (kind : ReqKind) : List Snoop :=
  match d.dirEnt line with
  | none => []
  | some ent =>
    let mk (ask : SnoopAsk) (n : NodeId) : Snoop := if eng then d.selfSnoop n ask else mkSnoop n h.tag h.retry h.src ask
    if ent.modified then
      match kind with
      | .loadShared _ => (d.holders i e ent none).map (mk .toShared)
      | .loadOwn => (d.holders i e ent none).map (mk .toInvalid)
      | .store _ => []
      | _ => (d.holders i e ent (some h.src)).map (mk .inv)
    else
      match kind with
      | .loadShared _ => []
      | .store _ => []
      | _ => (d.holders i e ent (some h.src)).map (mk .inv)

/-- Whether a request needs a directory entry that its line does not have (R148). -/
def needsEntry (d : Dev) (line : Nat) : ReqKind → Bool
  | .loadShared nc => !nc && (d.dirEnt line).isNone
  | .loadOwn => (d.dirEnt line).isNone
  | _ => false

/-- Handle an admitted request on a stable line that it may use (R130 to R148). -/
def dispatch (i : Nat) (e : Ext) (r : HomeReq) (d : Dev) : Dev :=
  let h := r.hdr
  let line := h.offset.toNat / 64
  let half := homeHalf e (line * 64)
  let owner : Option NodeId := match d.dirEnt line with
    | some ent => if ent.modified then ent.sharers.head? else none
    | none => none
  match r.kind, owner with
  | .store _, o =>
    if o = some h.src then d.serve line r e
    else (d.discardReq 3 h r.kind e.part half .stateConflict).complete r .stateConflict []
  | .loadOwn, some o =>
    if o = h.src then d.complete r .stateConflict []
    else beginReq i e r line half d
  | .loadShared false, some o =>
    if o = h.src then d.complete r .stateConflict []
    else beginReq i e r line half d
  | _, _ => beginReq i e r line half d
where
  /-- Start the snoops, back-invalidation or grant that the request needs, or serve it at once (R130, R142, R148). -/
  beginReq (i : Nat) (e : Ext) (r : HomeReq) (line : Nat) (half : Half) (d : Dev) : Dev :=
    let sn := d.neededSnoops i e line r.hdr r.eng.isSome r.kind
    let needTracker := !sn.isEmpty || r.kind == .loadOwn
    if needTracker ∧ !d.snoopRoom half then d.turnAway r d.baseHint half
    else if !sn.isEmpty then (d.beginTx line .demand (some r) sn).advance line
    else if d.needsEntry line r.kind then
      match d.fullSet line with
      | none => d.serve line r e
      | some l =>
        match d.dirVictim l with
        | none => d.turnAway r d.baseHint half
        | some v =>
          if !d.snoopRoom half then d.turnAway r d.baseHint half
          else
            match d.extAt (v * 64), d.dirEnt v with
            | some (vi, ve), some vent =>
              let hs := d.holders vi ve vent none
              ((d.bump Reg.coh 0x058 1).beginTx v .backInval (some r) (hs.map fun n => d.selfSnoop n .inv)).advance v
            | _, _ => (d.freeDir v).serve line r e
    else d.serve line r e

/-- A STORE that the recorded owner of a transient line sends (R133, R135): its data is taken as the owner's snoop data. The new owner of a
granted line may write it back within its grant wait, which goes on until its acknowledgement or its end (R137). An uncorrectable word in the data
poisons the line (R250). -/
def storeTransient (line : Nat) (t : LineTx) (r : HomeReq) (v : Line) (e : Ext) (d : Dev) : Dev :=
  let off := line * 64
  let h := r.hdr
  let by_ : WriteBy := ⟨h.src, e.part, 0x03, off⟩
  let bad := d.mem.wrBad.contains line
  let x : Option Line := if bad then none else some v
  let st : Status := if bad then .uncorrectable else .ok
  let d := ({ d with mem := { d.mem with wrBad := NSet.erase line d.mem.wrBad } } : Dev).touch e off
  match t.grant with
  | some _ => ((d.writePool e off x by_).freeDir line).complete r st []
  | none =>
    let t' : LineTx := { t with data := some (x.getD 0), stored := true, owed := false, badData := bad,
                                snoops := t.snoops.map fun s => if s.node = h.src then { s with storeWait := false } else s }
    let keeps := dropsData t'
    let d := if isRevokeSweep t.why then d.logDiscard (homeHalf e off) Reg.coh 1 by_ .revoked
      else if keeps then d else d.writePool e off x by_
    let t' := { t' with owed := keeps && !isRevokeSweep t.why }
    let d := d.complete r st []
    -- a waiting read is answered with the data at once; the snoop still has to be answered
    match t.req with
    | some q =>
      match q.kind with
      | .loadShared nc =>
        let d := if d.dirEnt line |>.isSome then d.setDir line ⟨false, false, [], 0, 0⟩ else d
        let d := if nc || bad then d else d.addSharer line q.hdr.src
        let d := if bad then d.complete q .poisoned [] else d.complete q .ok (lineBytes v)
        (d.setTx line { t' with req := none }).advance line
      | _ => (d.setTx line t').advance line
    | none => (d.setTx line t').advance line

/-- The home looks up the tag of the block that holds an offset of a tiered extent (R164). -/
def lookTag (i : Nat) (e : Ext) (off : Nat) (d : Dev) : Dev := if e.tiered then d.tagLookup i (blockNo e off) else d

/-- A request that has passed every check of R60 (R61): the malformed forms of R124 complete; a STORE of the recorded owner joins the line's
transaction (R135); a block that is not resident answers TIER_FILL (R167); a line in transition, or kept for another requester's
reservation, answers NACK_RETRY (R133, R146). -/
def admitReq (i : Nat) (e : Ext) (r : HomeReq) (d : Dev) : Dev :=
  let h := r.hdr
  let off := h.offset.toNat
  let line := off / 64
  let half := homeHalf e off
  let aligned : Bool := match r.kind with
    | .atomic aop wide operand => off % (if wide then 8 else 4) == 0 && operand.length == atomicLen aop wide
    | _ => true
  if !aligned then d.complete r .malformed []
  else if (match r.kind with | .writePartial _ m => m == 0 | _ => false) then d.complete r .ok []
  else
    let d := (d.lookTag i e off).deadLookup line
    let owner : Bool := match d.dirEnt line with | some ent => ent.modified && ent.sharers.contains h.src | none => false
    match d.tx? line, r.kind, owner with
    | some t, .store v, true => d.storeTransient line t r v e
    | tx, _, _ =>
      if !d.resident e off then missing i e r d
      else match tx with
        | some t => d.turnAway r (d.lineHint t) half
        | none =>
          if r.eng.isSome then (if (d.firstResv (BitVec.ofNat 42 line)).isSome then d.turnAway r d.baseHint half else d.dispatch i e r)
          else if d.heldFor h (BitVec.ofNat 42 line) then d.turnAway r d.baseHint half
          else admitted i e r d
where
  /-- The block is not resident: its fill starts, or is joined, and the answer is TIER_FILL (R34, R167 to R169). -/
  missing (i : Nat) (e : Ext) (r : HomeReq) (d : Dev) : Dev :=
    let blk := blockNo e r.hdr.offset.toNat
    let d := d.startFill i blk
    match r.eng with
    | none => d.answerHost r.hdr r.arrived 0x21 (answerWord .tierFill false false false (d.fillHint blk) false r.hdr.retry.toNat) []
    | some (.acc id) => d.modAcc id fun a => { a with state := .retry (d.now + d.fillHint blk * 100) }
    | some _ => d
  /-- A host's request that may start a transaction on its line: an ATOMIC of another node finds its stored answer or a free entry in the reply
  cache (R455). -/
  admitted (i : Nat) (e : Ext) (r : HomeReq) (d : Dev) : Dev :=
    let h := r.hdr
    let half := homeHalf e h.offset.toNat
    let isAtomic : Bool := match r.kind with | .atomic _ _ _ => true | _ => false
    match (if isAtomic && h.riss then
        d.coh.replies.find? fun x => x.half == half && x.src == h.src && x.tag == h.tag && x.offset == h.offset else none) with
    | some x => (d.bump Reg.rte 0x068 1).complete r .ok x.answer
    | none =>
      if isAtomic ∧ h.pv ∧ (d.coh.replies.filter fun x => x.half == half).length ≥ 16384 then
        (d.bump Reg.rte 0x070 1).turnAway r d.baseHint half
      else d.dispatch i e r

/-- Whether a home tracker has a free entry for a request without a reservation (R36, R60, R145): 256 of the 8,192 are kept for reserved ones. -/
def trackerRoom (d : Dev) (half : Half) : Bool := decide (d.homeUse half < 7936)

/-- A host request arrives at the home agent (R60 to R63, R120 to R148). The gutter pages and the reserved range are not handled here. A STORE of
the recorded owner that crosses the snoop of a sweep is checked like any other arrival (R73): where the new attributes refuse it, the WB_PENDING
wait that its snoop answer opens runs out, so the line is poisoned for a restriction and the host becomes suspect. R135 would accept it and R60
refuses it: that R60 goes first is the model's choice. DESIGN CHOICE (log 71). -/
def homeRequest (h : ReqHdr) (kind : ReqKind) (d : Dev) : Dev :=
  let line := h.offset.toNat / 64
  let half := d.lineHalf line
  if !d.trackerRoom half ∧ !d.reserved h.src h.tag (BitVec.ofNat 42 line) then d.refuse h d.now d.baseHint half
  else match d.hostChecks h kind with
  | .error st =>
    let d := match d.failedCheck h st with
      | some (c, e) => if kindWrites kind then d.discardReq c h kind e.part half st else d
      | none => d
    d.finishReq h d.now st []
  | .ok (i, e) =>
    let d' := d.admitReq i e { hdr := h, eng := none, kind := kind, ext := BitVec.ofNat 15 i, gen := e.gen, arrived := d.now }
    -- a reserved request has ended: a write of the device itself may have waited for it
    if d.reserved h.src h.tag (BitVec.ofNat 42 line) then d'.tryRegion else d'

end Dev

end Sys2Proof.Machine
end

