-- ==== Sys2Proof/Machine/HomeEvents.lean ====
section
/-! DEFINITION. Events of the home agents: answers to snoops, grant acknowledgements, answer points, deadlines, reservations, host
states, probes and the reply cache (R134 to R155, R455, R458). -/

namespace Sys2Proof.Machine

namespace Dev

/-- The line whose transaction holds the snoop of a node and TAG (R703). -/
def snoopLine (d : Dev) (n : NodeId) (t : Tag) : Option (Nat × LineTx) :=
  d.coh.tx.find? fun x => x.2.snoops.any fun s => s.node == n && s.tag == t && Snoop.open_ s

/-- The line whose grant wait belongs to a node and TAG. -/
def grantLine (d : Dev) (n : NodeId) (t : Tag) : Option Nat :=
  (d.coh.tx.find? fun x => match x.2.grant with | some g => g.node == n && g.tag == t && g.since.isSome | none => false).map (·.1)

/-- A grant acknowledgement: the line is stable (R137). -/
def grantAck (line : Nat) (d : Dev) : Dev := ((d.dropTx line).stableResv (BitVec.ofNat 42 line)).itemEnded

/-- Whether a snoop response with data may be used: a line of a confidential extent needs ENC under the partition's entry for the
holder (R506). -/
def responseAllowed (d : Dev) (line : Nat) (n : NodeId) (data : Option Line) (key : Option (BitVec 13)) : Bool :=
  match data, d.extAt (line * 64) with
  | some _, some (_, e) => !d.conf e.part || (key.isSome && key == d.peerKey e.part n)
  | _, _ => true

/-- Record the answer to a snoop: a WB_PENDING answer waits for the STORE unless it came first (R135). -/
def snoopAnswer (t : LineTx) (modified : Bool) (n : NodeId) (tag : Tag) (data : Option Line) (wb bad : Bool) : LineTx :=
  let t := { t with snoops := t.snoops.map fun s =>
      if s.node = n ∧ s.tag = tag ∧ Snoop.open_ s then { s with answered := true, storeWait := wb && !t.stored } else s }
  if modified && !t.stored && (data.isSome || bad) then { t with data := some (if bad then 0 else data.getD 0), owed := true, badData := bad } else t

/-- An ACK on VC3 (R134, R137, R703): a grant acknowledgement or a snoop response, by the one item of its node and TAG. -/
def vc3Ack (via : Via) (n : NodeId) (tag : Tag) (code : BitVec 8) (data : Option Line) (wb bad : Bool) (key : Option (BitVec 13)) (d : Dev) : Dev :=
  match d.grantLine n tag with
  | some line => if data.isSome then d else d.grantAck line
  | none =>
    match d.snoopLine n tag with
    | some (line, t) =>
      if code.toNat > 0x11 then d.logMalformed via (some (d.lineHalf line)) 5 0x20 3 (some n) .malformed
      else if !d.responseAllowed line n data key then d
      else
        let m := match d.dirEnt line with | some e => e.modified | none => false
        ((d.setTx line (snoopAnswer t m n tag data wb bad)).advance line).itemEnded
    | none =>
      match d.coh.late.find? fun l => l.node == n && l.tag == tag with
      | none => d
      | some l =>
        let d := d.modCoh fun c => { c with late := c.late.filter fun x => x ≠ l }
        let part := match d.extAt (lineOff l.line) with | some (_, e) => e.part | none => 0
        (d.logDiscard (d.lineHalf l.line.toNat) Reg.coh 4 ⟨n, part, 0x20, lineOff l.line⟩ .ok).itemEnded

/-- The answer point of a request that waits (R141): it is refused, and the work on the line carries on without it. -/
def answerPoint (line : LineNo) (d : Dev) : Dev :=
  match d.coh.tx.find? fun x => match x.2.req with
      | some r => r.hdr.offset.toNat / 64 == line.toNat && decide (r.arrived + 3500 ≤ d.now)
      | none => false with
  | none => d
  | some (l, t) =>
    match t.req with
    | none => d
    | some r =>
      let d := d.turnAway r (d.lineHint t) (d.lineHalf line.toNat)
      match t.grant with
      | some g =>
        if g.since.isSome then d.setTx l { t with req := none }
        else
          -- the line is not granted: data that its owner gave up goes to DRAM
          let t := { t with req := none }
          let d := match d.extAt (l * 64) with
            | some (_, e) => d.writeBack l t e (t.snoops.head?.elim 0 Snoop.node)
            | none => d
          ((d.dropTx l).stableResv (BitVec.ofNat 42 l)).itemEnded
      | none => (d.setTx l { t with req := none }).advance l

/-- The third attempt of a snoop runs out on a line that another holder's snoop has failed: its host becomes suspect too (R150). -/
def lateDeadline (line : LineNo) (n : NodeId) (d : Dev) : Dev :=
  match d.coh.late.find? fun (l : LateSnoop) => l.line == line && l.node == n && l.due.any fun t => decide (t ≤ d.now) with
  | none => d
  | some l =>
    let d := d.modCoh fun c => { c with late := c.late.map fun (x : LateSnoop) => if x = l then { x with due := none } else x }
    ((d.bump Reg.coh 0x060 1).suspect n 1 line.toNat).itemEnded

/-- An attempt of a snoop passes its deadline of 2 µs (R149, R150): the next attempt is sent, or after the third the snoop has
failed. -/
def snoopDeadline (line : LineNo) (n : NodeId) (d : Dev) : Dev :=
  match d.tx? line.toNat with
  | none => d.lateDeadline line n
  | some t =>
    match t.snoops.find? fun s => s.node == n && !s.answered && decide (s.attempt > 0) && !s.held && decide (s.sentAt + 2000 ≤ d.now) with
    | none => d.lateDeadline line n
    | some s =>
      let d := d.bump Reg.coh 0x060 1
      if s.attempt ≥ 3 then d.failLine line.toNat n 1
      else
        let s' := { s with attempt := s.attempt + 1, sentAt := d.now }
        (d.setTx line.toNat { t with snoops := t.snoops.map fun x => if x = s then s' else x }).sendSnoop line.toNat s'

/-- The STORE awaited after WB_PENDING did not arrive within 6 µs of the first attempt (R135). -/
def storeWaitExpiry (line : LineNo) (d : Dev) : Dev :=
  match d.tx? line.toNat with
  | none => d
  | some t =>
    match t.snoops.find? fun s => s.storeWait && decide (s.firstAt + 6000 ≤ d.now) with
    | none => d
    | some s => d.failLine line.toNat s.node 7

/-- The grant acknowledgement did not arrive within 6 µs (R137). -/
def grantWaitExpiry (line : LineNo) (d : Dev) : Dev :=
  match d.tx? line.toNat with
  | some { grant := some { node := n, since := some t0, .. }, .. } =>
    if t0 + 6000 ≤ d.now then d.failLine line.toNat n 2 else d
  | _ => d

/-- A reservation lapses (R147). -/
def resvLapse (line : LineNo) (n : NodeId) (t : Tag) (d : Dev) : Dev :=
  match d.coh.resv.find? fun r => r.node == n && r.tag == t && r.line == line with
  | none => d
  | some r =>
    if (d.tx? line.toNat).isNone ∧ r.since + min1 (d.fld 0x9130 15 8) * 1000 ≤ d.now then
      ((d.endResv n t line).bump Reg.coh 0x050 1).tryRegion
    else d

/-- A host is declared dead (R152): its grant waits end, its snoops count as answered, it leaves every sharer list, and its
reservations lapse. Lines it holds in M are poisoned at their next lookup or by the sweep. -/
def declareDead (n : NodeId) (cause : Nat) (d : Dev) : Dev :=
  let lines := (d.coh.dir.filter fun x => x.2.modified && x.2.sharers.contains n).length
  let d := d.setHost n { state := .dead, since := d.now, nonces := [], probed := 0, swept := ⟨false, false⟩, serving := ⟨false, false⟩ }
  let d := ((d.bump Reg.coh 0x070 1).logHost n 2 cause lines none).cause Reg.coh 3
  let d := if n = d.compNode ∧ d.compNode ≠ 0xFFFF then d.alert 0 else d
  let gone := (d.coh.resv.filter fun r => r.node == n).length
  let d := (d.modCoh fun c => { c with resv := c.resv.filter (fun r => r.node ≠ n),
                                       late := c.late.map fun l => if l.node = n then { l with due := none } else l }).bump Reg.coh 0x050 gone
  let d := (d.coh.dir.filter fun x => !x.2.modified && !x.2.coarse && x.2.sharers.contains n).foldl (fun d x =>
    match d.dirEnt x.1 with
    | some e => d.setDir x.1 (DirEnt.remove e n)
    | none => d) d
  let grants := (d.coh.tx.filter fun x => match x.2.grant with | some g => g.node == n && g.since.isSome | none => false).map (·.1)
  let d := grants.foldl (fun d l => d.failLine l n 2) d
  let snooped := (d.coh.tx.filter fun x => x.2.snoops.any fun s => s.node == n && (!s.answered || s.storeWait)).map (·.1)
  let d := snooped.foldl (fun d l =>
    match d.tx? l with
    | none => d
    | some t =>
      let owner := match d.dirEnt l with | some e => e.modified && e.sharers.contains n | none => false
      if owner && t.data.isNone && !dropsData { t with stored := true } then d.failLine l n 1
      else
        ((d.setTx l { t with snoops := t.snoops.map fun s => if s.node = n then { s with answered := true, storeWait := false, attempt := max 1 s.attempt } else s }).advance
          l).itemEnded) d
  d.tryRegion

/-- A suspect host is probed again every 100 µs (R151). -/
def probeInterval (n : NodeId) (d : Dev) : Dev :=
  let x := d.host n
  if x.state = .suspect ∧ x.probed + 100000 ≤ d.now ∧ d.now < x.since + 1000000 ∧ !d.cmpHolds n then d.sendProbe n else d

/-- The answer to a probe returns a suspect host to normal (R151); an answer without a matching probe is discarded (R458). -/
def probeAnswer (n : NodeId) (nonce : Word64) (d : Dev) : Dev :=
  let x := d.host n
  if x.state = .suspect ∧ x.nonces.contains nonce ∧ d.now ≤ x.since + 1000000 then
    (d.setHost n { x with state := .normal, since := 0, nonces := [], probed := 0 }).logHost n 0 3 0 none
  else d

/-- A suspect host without a probe answer by 1 ms after suspicion is dead (R152). -/
def suspicionExpiry (n : NodeId) (d : Dev) : Dev :=
  let x := d.host n
  if x.state = .suspect ∧ x.since + 1000000 ≤ d.now then d.declareDead n 4 else d

/-- A PROBE addressed to this node is answered with the same NONCE (R458). -/
def probed (via : Via) (n : NodeId) (tag : Tag) (nonce : Word64) (d : Dev) : Dev :=
  let p := mkPkt d n 0x42 tag nonce.toNat
  match via with
  | .companion => d.emitPkt .companion 6 p
  | .port _ => (d.send 6 p).2

/-- Send a held snoop of a line as a first attempt (R636). -/
def releaseSnoop (line : Nat) (d : Dev) (s : Snoop) : Dev :=
  if s.held then
    let s' := { s with held := false, firstAt := d.now, sentAt := d.now }
    match d.tx? line with
    | none => d
    | some t => (d.setTx line { t with snoops := t.snoops.map fun y => if y = s then s' else y }).sendSnoop line s'
  else d

/-- Send every held snoop of a line (R636). -/
def releaseLine (d : Dev) (line : Nat) : Dev :=
  match d.tx? line with
  | none => d
  | some t => t.snoops.foldl (releaseSnoop line) d

/-- Snoops and probes that the companion link held are sent once it is ACTIVE or has retrained for 2 ms (R636). -/
def releaseHeld (d : Dev) : Dev :=
  if d.cmpHolds d.compNode then d
  else
    let d := (d.coh.tx.map (·.1)).foldl releaseLine d
    let h := d.host d.compNode
    if d.compNode ≠ 0xFFFF ∧ h.state = .suspect ∧ h.nonces.isEmpty then d.sendProbe d.compNode else d

/-- An entry of the reply cache is held for 160 µs (R455). -/
def replyExpiry (h : Half) (src : NodeId) (tag : Tag) (d : Dev) : Dev :=
  d.modCoh fun c => { c with replies := c.replies.filter fun x =>
    !(x.half == h && x.src == src && x.tag == tag && decide (x.time + 160000 ≤ d.now)) }

/-! ### Host commands (R154, R155) -/

/-- A host command: BUSY refuses it (R68); otherwise it runs and completes with HOST_DONE. -/
def hostCmd (f : Dev → Status × Dev) (d : Dev) : Dev :=
  if d.busy 0x9144 then d.illegal Reg.coh
  else
    let (st, d) := f (d.cmdBegin 0x9144)
    d.cmdEnd Reg.coh 0x9144 4 st

/-- The code of a host's state (R154). -/
def hostCode : HostState → Nat
  | .normal => 0 | .suspect => 1 | .dead => 2

/-- HOST_READ sets STATE for NODE (R155). -/
def hostRead (n : NodeId) (d : Dev) : Status × Dev := (.ok, d.setFld 0x9144 17 16 (hostCode (d.host n).state))

/-- CLEAR_DEAD returns a dead host to normal once its sweep has ended (R155). -/
def clearDead (n : NodeId) (d : Dev) : Status × Dev :=
  let x := d.host n
  if x.state = .dead ∧ x.swept.west ∧ x.swept.east then
    (.ok, (d.setHost n { state := .normal, since := 0, nonces := [], probed := 0, swept := ⟨true, true⟩, serving := ⟨false, false⟩ }).logHost
      n 0 6 0 none)
  else (.stateConflict, d)

/-- DECLARE_DEAD (R155). -/
def declareDeadCmd (n : NodeId) (d : Dev) : Status × Dev :=
  if d.isDead n then (.stateConflict, d)
  else if n = d.nodeId then (.malformed, d)
  else (.ok, d.declareDead n 5)

end Dev

/-- SNOOP_RESPONSE. -/
def execSnoopResponse (via : Via) (n : NodeId) (tag : Tag) (st : BitVec 8) (data : Option Line) (wb bad : Bool) (key : Option (BitVec 13)) (s : State) :
    Host.Outcome State Fault Refusal := next (s.onDev (Dev.vc3Ack via n tag st data wb bad key))

/-- GRANT_ACKNOWLEDGEMENT. -/
def execGrantAcknowledgement (n : NodeId) (tag : Tag) (s : State) : Host.Outcome State Fault Refusal :=
  next (s.onDev (Dev.vc3Ack .companion n tag 0 none false false none))

/-- ANSWER_POINT. -/
def execAnswerPoint (line : LineNo) (s : State) : Host.Outcome State Fault Refusal := next (s.onDev (Dev.answerPoint line))

/-- SNOOP_DEADLINE. -/
def execSnoopDeadline (line : LineNo) (n : NodeId) (s : State) : Host.Outcome State Fault Refusal :=
  next (s.onDev (Dev.snoopDeadline line n))

/-- STORE_WAIT_EXPIRY. -/
def execStoreWaitExpiry (line : LineNo) (s : State) : Host.Outcome State Fault Refusal := next (s.onDev (Dev.storeWaitExpiry line))

/-- GRANT_WAIT_EXPIRY. -/
def execGrantWaitExpiry (line : LineNo) (s : State) : Host.Outcome State Fault Refusal := next (s.onDev (Dev.grantWaitExpiry line))

/-- RESERVATION_LAPSE. -/
def execReservationLapse (line : LineNo) (n : NodeId) (tag : Tag) (s : State) : Host.Outcome State Fault Refusal :=
  next (s.onDev (Dev.resvLapse line n tag))

/-- PROBE_INTERVAL. -/
def execProbeInterval (n : NodeId) (s : State) : Host.Outcome State Fault Refusal := next (s.onDev (Dev.probeInterval n))

/-- PROBE_ANSWER. -/
def execProbeAnswer (n : NodeId) (nonce : Word64) (s : State) : Host.Outcome State Fault Refusal :=
  next (s.onDev (Dev.probeAnswer n nonce))

/-- SUSPICION_EXPIRY. -/
def execSuspicionExpiry (n : NodeId) (s : State) : Host.Outcome State Fault Refusal := next (s.onDev (Dev.suspicionExpiry n))

/-- PROBE. -/
def execProbe (via : Via) (n : NodeId) (tag : Tag) (nonce : Word64) (s : State) : Host.Outcome State Fault Refusal :=
  next (s.onDev (Dev.probed via n tag nonce))

/-- REPLY_CACHE_EXPIRY. -/
def execReplyCacheExpiry (h : Half) (src : NodeId) (tag : Tag) (s : State) : Host.Outcome State Fault Refusal :=
  next (s.onDev (Dev.replyExpiry h src tag))

/-- HELD_SNOOP_RELEASE. -/
def execHeldSnoopRelease (s : State) : Host.Outcome State Fault Refusal := next (s.onDev Dev.releaseHeld)

/-- HOST_NOP. -/
def execHostNop (s : State) : Host.Outcome State Fault Refusal := next (s.onDev (Dev.hostCmd fun d => (.ok, d)))

/-- HOST_READ. -/
def execHostRead (n : NodeId) (s : State) : Host.Outcome State Fault Refusal := next (s.onDev (Dev.hostCmd (Dev.hostRead n)))

/-- CLEAR_DEAD. -/
def execClearDead (n : NodeId) (s : State) : Host.Outcome State Fault Refusal := next (s.onDev (Dev.hostCmd (Dev.clearDead n)))

/-- DECLARE_DEAD. -/
def execDeclareDead (n : NodeId) (s : State) : Host.Outcome State Fault Refusal := next (s.onDev (Dev.hostCmd (Dev.declareDeadCmd n)))

end Sys2Proof.Machine
end

