-- ==== Sys2Proof/Machine/ExtCmd.lean ====
section
/-! DEFINITION. The extent commands: extents, host sets and publication regions, restriction and revocation with their directory
sweeps, and scrub (R65 to R84, R500, R510). -/

namespace Sys2Proof.Machine

/-- Clear bytes of memory: every byte and every poison mark for whose byte key the predicate holds. -/
def Mem.clear (m : Mem) (p : Nat → Bool) : Mem :=
  { m with
    cells := m.cells.filter fun c => !p c.1, poison := m.poison.filter fun k => !p (k * 64),
    unc := m.unc.filter fun k => !p (k * 64) }

/-- Number of granule rows an extent takes on each of its channels (R50). -/
def Ext.rows (e : Ext) : Nat := if e.place = 0 then ceilDiv e.granules 24 else ceilDiv e.granules 12

/-- Whether a channel carries granules of a pinned extent (R48). -/
def Ext.uses (e : Ext) (c : Nat) : Bool := e.place == 0 || (if e.place == 1 then decide (c < 12) else decide (12 ≤ c))

/-- Whether a byte key lies in the rows of a pinned extent. -/
def Ext.backs (e : Ext) (a : Nat) : Bool :=
  Ext.uses e (a / 2 ^ 38) && decide (e.backing.toNat * 4096 ≤ a % 2 ^ 38 ∧ a % 2 ^ 38 < (e.backing.toNat + e.rows) * 4096)

/-- Whether two extents overlap in their backing (R70). -/
def backingMeets (a b : Ext) : Bool :=
  if a.tiered != b.tiered then false
  else if a.tiered then
    decide (a.backing.toNat < b.backing.toNat + b.blocks ∧ b.backing.toNat < a.backing.toNat + a.blocks)
  else
    (a.place == 0 || b.place == 0 || a.place == b.place)
      && decide (a.backing.toNat < b.backing.toNat + b.rows ∧ b.backing.toNat < a.backing.toNat + a.rows)

namespace Dev

/-- A command of COH.EXT_CMD (R68): refused while BUSY; a result completes it with EXT_DONE, none leaves it running. -/
def extCmd (f : Dev → Option Status × Dev) (d : Dev) : Dev :=
  if d.busy 0x9104 then d.illegal Reg.coh
  else
    match f (d.cmdBegin 0x9104) with
    | (some st, d) => d.cmdEnd Reg.coh 0x9104 1 st
    | (none, d) => d

/-- COH.EXT_DATA as one number (R65). -/
def extData (d : Dev) : Nat := d.data 0x9110 8

/-- EXT_READ (R69). -/
def extRead (i : ExtIdx) (d : Dev) : Option Status × Dev := (some .ok, d.setData 0x9110 8 (d.ext i.toNat).image)

/-- The checks of EXT_ASSIGN on the image, in the order of R70. -/
def assignChecks (d : Dev) (n : Nat) : Status :=
  let e := extOfImage n
  if e.place = 3 ∨ e.tier.toNat ≥ 2 ∨ (e.tier = 1 ∧ e.place ≠ 0) ∨ extReservedBits n ∨ e.perm.getLsbD 5 ∨
      e.first + e.size > 0xFF0000000000 ∨
      (if e.tiered then e.backing.toNat + e.blocks > d.tier.blocks else e.backing.toNat + e.rows > d.tier.pinRows) then .malformed
  else if d.coh.exts.any fun x => x.2.state != .free &&
      (decide (e.first < x.2.first + x.2.size ∧ x.2.first < e.first + e.size) || backingMeets e x.2) then .stateConflict
  else if !d.partLive e.part || !((d.slots e.hset.toNat).any fun w => w.getLsbD 45) then .stateConflict
  else if e.keySlot.toNat ≠ e.part.toNat then .keyError
  else .ok

/-- EXT_ASSIGN (R70, R71): the entry becomes INIT; the command completes when INIT ends. -/
def extAssign (i : ExtIdx) (d : Dev) : Option Status × Dev :=
  let old := d.ext i.toNat
  if old.state ≠ .free then (some .stateConflict, d)
  else
    match d.assignChecks d.extData with
    | .ok =>
      let e := extOfImage d.extData
      (none, d.setExt i.toNat { e with state := .init, gen := old.gen, accepted := !d.conf e.part })
    | st => (some st, d)

/-- Zero the content of an extent: every line of a pinned one; every thatch block of a tiered one becomes a zero block (R71, R78). -/
def zeroExtent (e : Ext) (d : Dev) : Dev :=
  if e.tiered then
    d.modTier fun t => { t with map := (t.map.map fun x =>
      if e.backing.toNat ≤ x.1 ∧ x.1 < e.backing.toNat + e.blocks ∧ x.2 ≠ 0xFFFFFFFF then (x.1, x.2 &&& ~~~3#32) else x).filter fun x => x.2 ≠ 0 }
  else { d with mem := d.mem.clear e.backs }

/-- INIT ends: every line is a zero line under the extent's key slot, the entry becomes ACTIVE and EXT_ASSIGN completes OK (R71). -/
def extInitDone (i : ExtIdx) (d : Dev) : Dev :=
  let e := d.ext i.toNat
  if e.state = .init then ((d.zeroExtent e).setExt i.toNat { e with state := .active, secret := d.slotSecret e }).cmdEnd Reg.coh 0x9104 1 .ok else d

/-- EXT_GRANT (R69, R71, R500). -/
def extGrant (i : ExtIdx) (d : Dev) : Option Status × Dev :=
  let e := d.ext i.toNat
  let n := extOfImage d.extData
  if e.state ≠ .active then (some .stateConflict, d)
  else if extReservedBits d.extData then (some .malformed, d)
  else if (d.conf e.part && !e.accepted) || e.perm &&& n.perm != e.perm || n.hset != e.hset || n.perm.getLsbD 5 != e.perm.getLsbD 5 then
    (some .stateConflict, d)
  else (some .ok, d.setExt i.toNat { e with perm := n.perm })

/-- Begin a change: its change point has been applied to the entries; drain and sweep follow (R72). -/
def beginChange (why : ChangeWhy) (exts : List (ExtIdx × BitVec 16)) (oldSlots : List Word64) (command : Bool) (d : Dev) : Dev :=
  d.modCoh fun c => { c with
    changes := c.changes ++ [⟨c.nextChange, why, exts, oldSlots, ⟨false, false⟩, ⟨false, false⟩, command, []⟩],
    nextChange := c.nextChange + 1 }

/-- EXT_RESTRICT (R69, R71, R72): GEN increases and the narrower attributes apply. -/
def extRestrict (i : ExtIdx) (d : Dev) : Option Status × Dev :=
  let e := d.ext i.toNat
  let n := extOfImage d.extData
  if e.state ≠ .active then (some .stateConflict, d)
  else if extReservedBits d.extData then (some .malformed, d)
  else if e.perm ||| n.perm != e.perm || n.perm.getLsbD 5 != e.perm.getLsbD 5 ||
      { n with perm := e.perm, hset := e.hset, state := e.state, gen := e.gen, accepted := e.accepted, secret := e.secret } != e then
    (some .stateConflict, d)
  else
    let old := d.slots e.hset.toNat
    (none, (d.setExt i.toNat { e with perm := n.perm, hset := n.hset, gen := e.gen + 1 }).beginChange .restrict [(i, e.gen)] old true)

/-- Destroy a publication region: every PUBLISH in progress or waiting completes CANCELLED (R83, R84). -/
def destroyRegion (n : Nat) (d : Dev) : Dev :=
  match Tbl.find d.coh.regions n with
  | none => d
  | some r =>
    let ops := (r.running.toList ++ r.waiting).map fun p => (p.op, Status.cancelled)
    d.modCoh fun c => { c with regions := Tbl.drop n c.regions, pubEnds := c.pubEnds ++ ops,
                               regionWait := if c.regionWait = some n then none else c.regionWait }

/-- EXT_REVOKE of consecutive extents (R69, R72, R84): GEN increases and STATE becomes REVOKING. R69 does not say what a range that passes
extent 32,767 does; here such a range has no ACTIVE entry there, so the command completes STATE_CONFLICT. DESIGN CHOICE (log 71). -/
def extRevoke (i : ExtIdx) (count : BitVec 8) (d : Dev) : Option Status × Dev :=
  let l := (List.range (count.toNat + 1)).map (i.toNat + ·)
  if l.any fun k => decide (k ≥ 32768) || (d.ext k).state != .active then (some .stateConflict, d)
  else
    let regs := (d.coh.regions.filter fun r => l.any fun k => (d.ext k).holds (r.2.line.toNat * 64)).map (·.1)
    let d := regs.foldl (fun d r => d.destroyRegion r) d
    let exts := l.map fun k => (BitVec.ofNat 15 k, (d.ext k).gen)
    let d := l.foldl (fun d k => let e := d.ext k; d.setExt k { e with state := .revoking, gen := e.gen + 1 }) d
    let hit (p : Publish) : Publish := if p.ext.any fun x => l.contains x.toNat then { p with revoked := true } else p
    let d := d.modCoh fun c => { c with regions := c.regions.map fun r => (r.1, { r.2 with running := r.2.running.map hit }) }
    (none, d.beginChange .revoke exts [] true)

/-! ### The directory sweep (R72 to R76, R152) -/

/-- The holders of an entry that a change recalls, and whether the line's Modified data is to be dropped (R73). -/
def recalled (d : Dev) (c : Change) (i : Nat) (e : Ext) (ent : DirEnt) : List NodeId :=
  let hs := d.holders i e ent none
  match c.why with
  | .revoke => hs
  | _ =>
    let p := d.perm e
    let reads (n : NodeId) : Bool := slotsAdmit (d.slots e.hset.toNat) n none && bits p 0 0 == 1
    if ent.modified then hs.filter fun n => !(reads n && bits p 1 1 == 1) else hs.filter fun n => !reads n

/-- Whether a change that a half's pass serves still has to recall a line: a line with a coarse entry is visited once, since its entry stays
after the snoops (R73, R127). -/
def sweepFinds (d : Dev) (c : Change) (h : Half) (i : Nat) (e : Ext) (line : Nat) (ent : DirEnt) : Bool :=
  c.serving.at h && (c.exts.any fun y => y.1.toNat == i) && !(ent.coarse && c.visited.contains line) && !(d.recalled c i e ent).isEmpty

/-- Visit the entries of a half's slice for the changes that its pass serves: recall what the new attributes no longer grant, and
poison the lines that dead hosts hold in M (R72, R73, R152). -/
def sweepVisit (h : Half) (d : Dev) : Dev :=
  d.coh.dir.foldl (fun d x =>
    match d.dirEnt x.1, d.extAt (x.1 * 64) with
    | some ent, some (i, e) =>
      if homeHalf e (x.1 * 64) ≠ h ∨ (d.tx? x.1).isSome then d
      else
        let d := if ent.modified && (ent.sharers.any fun n => d.isDead n && (d.host n).serving.at h) then d.deadLookup x.1 else d
        match d.dirEnt x.1 with
        | none => d
        | some ent =>
          match d.coh.changes.find? fun c => d.sweepFinds c h i e x.1 ent with
          | none => d
          | some c =>
            if !(d.recalled c i e ent).isEmpty ∧ !d.snoopRoom h then d
            else
              let seen (y : Change) : Change := if y.id = c.id ∧ ent.coarse then { y with visited := x.1 :: y.visited } else y
              ((d.modCoh fun k => { k with changes := k.changes.map seen }).beginTx x.1 (.sweep c.id (c.why == .revoke)) none
                ((d.recalled c i e ent).map fun n => d.selfSnoop n .inv)).advance x.1
    | _, _ => d) d

/-- Whether a half has changes or deaths that no pass has served or serves (R75, R152). -/
def sweepWanted (d : Dev) (h : Half) : Bool :=
  (d.coh.changes.any fun c => !c.swept.at h && !c.serving.at h)
    || (d.coh.hosts.any fun x => x.2.state == .dead && !x.2.swept.at h && !x.2.serving.at h)

/-- A sweep pass of a half starts: it serves up to 256 pending changes (R75). -/
def sweepStart (h : Half) (d : Dev) : Dev :=
  if (d.coh.sweeping.at h).isSome ∨ !d.sweepWanted h then d
  else
    let ids := ((d.coh.changes.filter fun c => !c.swept.at h).map (·.id)).take 256
    (d.modCoh fun c => { c with
      sweeping := c.sweeping.set h (some d.now),
      changes := c.changes.map fun x => if ids.contains x.id then { x with serving := x.serving.set h true } else x,
      hosts := c.hosts.map fun x => if x.2.state == .dead && !x.2.swept.at h then (x.1, { x.2 with serving := x.2.serving.set h true }) else x
      }).sweepVisit h

/-- Whether a half's pass has visited every line that its changes concern: no recall is outstanding or left to send. -/
def sweepClean (d : Dev) (h : Half) : Bool :=
  !(d.coh.tx.any fun x => d.lineHalf x.1 == h && (match x.2.why with | .sweep _ _ => true | _ => false))
    && !(d.coh.dir.any fun x => match d.extAt (x.1 * 64) with
      | some (i, e) => homeHalf e (x.1 * 64) == h && (d.coh.changes.any fun c => d.sweepFinds c h i e x.1 x.2)
      | none => false)

/-- A sweep pass ends, 81.92 µs after its start at the earliest (R75): lines that were in transition are visited again, and the
pass ends once no recall is left. -/
def sweepEnd (h : Half) (d : Dev) : Dev :=
  match d.coh.sweeping.at h with
  | none => d
  | some t0 =>
    if d.now < t0 + 81920 then d
    else
      let d := d.sweepVisit h
      if !d.sweepClean h then d
      else
        d.modCoh fun c => { c with
          sweeping := c.sweeping.set h none,
          changes := c.changes.map fun x =>
            if x.serving.at h then { x with serving := x.serving.set h false, swept := x.swept.set h true } else x,
          hosts := c.hosts.map fun x =>
            if x.2.serving.at h then (x.1, { x.2 with serving := x.2.serving.set h false, swept := x.2.swept.set h true }) else x }

/-- Whether a change has ended: both sweeps have finished and no request with an old GEN is left (R72). -/
def changeOver (d : Dev) (c : Change) : Bool :=
  c.swept.west && c.swept.east
    && !(d.coh.tx.any fun x => match x.2.req with
      | some r => c.exts.any fun y => y.1 == r.ext && y.2 == r.gen
      | none => false)

/-- A change ends (R72, R73): a revoked extent is REVOKED, and the command that waits completes OK. A PUBLISH takes up its own drain
at PUBLISH_DRAIN_END. -/
def changeEnd (id : Nat) (d : Dev) : Dev :=
  match d.coh.changes.find? fun c => c.id == id with
  | none => d
  | some c =>
    if !d.changeOver c then d
    else
      match c.why with
      | .publish _ => d
      | _ =>
        let d := d.modCoh fun x => { x with changes := x.changes.filter fun y => y.id ≠ id }
        let d := if c.why = .revoke then
            c.exts.foldl (fun d x => let e := d.ext x.1.toNat
              if e.state = .revoking then d.setExt x.1.toNat { e with state := .revoked } else d) d
          else d
        if c.command then d.cmdEnd Reg.coh 0x9104 1 .ok else d

/-! ### Scrub (R78, R179, R510) -/

/-- EXT_SCRUB (R69, R78): the entry becomes SCRUBBING. -/
def extScrub (i : ExtIdx) (d : Dev) : Option Status × Dev :=
  let e := d.ext i.toNat
  if e.state ≠ .revoked then (some .stateConflict, d) else (none, d.setExt i.toNat { e with state := .scrubbing })

/-- The scrub ends (R78, R179): every line is zero, or every frame of the extent is invalid and every block a zero block; the
scrub is recorded in the security log, the entry becomes FREE, and the command completes OK. A tiered extent waits for its running
writebacks. -/
def scrubDone (i : ExtIdx) (d : Dev) : Dev :=
  let e := d.ext i.toNat
  if e.state ≠ .scrubbing then d
  else if e.tiered ∧ (d.tier.wbs.any fun w => (d.frame w.frame).ext == i) then d
  else
    let d := (d.tier.frames.filter fun f => e.tiered && f.2.ext == i).foldl (fun d f => d.freeFrame f.1) d
    let d := d.modTier fun t => { t with
      fills := t.fills.filter fun f => !(e.tiered && f.ext == i) }
    let d := d.zeroExtent e
    let d := (d.secLog 4 0 { type := 0, sev := 0, block := 0, part := some e.part,
                             detail := [(41, 2, e.keySlot.toNat), (44, 4, i.toNat), (48, 8, e.size)] }).bump Reg.sec 0x068 1
    (d.setExt i.toNat { extReset with gen := e.gen }).cmdEnd Reg.coh 0x9104 1 .ok

/-! ### Host sets (R56 to R58, R69, R74) -/

/-- HSET_READ (R69). -/
def hsetRead (set : BitVec 12) (sl : BitVec 4) (d : Dev) : Option Status × Dev :=
  (some .ok, d.setData 0x9110 2 (d.slot set.toNat sl.toNat).toNat)

/-- HSET_WRITE (R58, R69, R74, R702): a VALID slot that changes runs the restriction drain on every ACTIVE extent that names the
set. -/
def hsetWrite (set : BitVec 12) (sl : BitVec 4) (d : Dev) : Option Status × Dev :=
  let w : Word64 := BitVec.ofNat 64 (d.data 0x9110 2)
  if bits w.toNat 63 46 ≠ 0 ∨ w.toNat % 65536 + bits w.toNat 31 16 > 0xFFFF then (some .malformed, d)
  else
    let key := set.toNat * 16 + sl.toNat
    let old := d.slot set.toNat sl.toNat
    let slots := d.slots set.toNat
    let d' := d.modCoh fun c => { c with hsets := Tbl.set 0 key w c.hsets }
    if !old.getLsbD 45 ∨ old = w then (some .ok, d')
    else
      let l := d.coh.exts.filter fun x => x.2.state == .active && x.2.hset == set
      if l.isEmpty then (some .ok, d')
      else
        let d' := l.foldl (fun d x => d.setExt x.1 { x.2 with gen := x.2.gen + 1 }) d'
        (none, d'.beginChange .hset (l.map fun x => (BitVec.ofNat 15 x.1, x.2.gen)) slots true)

/-! ### Publication regions (R79) -/

/-- REGION_CREATE (R69, R79): the record line is written with zeros, which invalidates every cached copy. -/
def regionCreate (n : BitVec 12) (d : Dev) : Option Status × Dev :=
  let off := d.data 0x9110 2
  let owner : PartId := BitVec.ofNat 12 (d.data 0x9118 1)
  if (Tbl.find d.coh.regions n.toNat).isSome then (some .stateConflict, d)
  else if off % 64 ≠ 0 then (some .malformed, d)
  else
    match d.extAt off with
    | some (_, e) =>
      if off < 2 ^ 48 ∧ e.state = .active ∧ e.part = owner then
        (none, (d.modCoh fun c => { c with
          regions := Tbl.put n.toNat ⟨owner, BitVec.ofNat 42 (off / 64), 0, none, []⟩ c.regions, regionWait := some n.toNat }).tryRegion)
      else (some .stateConflict, d)
    | none => (some .stateConflict, d)

/-- REGION_DESTROY (R69, R83). -/
def regionDestroy (n : BitVec 12) (d : Dev) : Option Status × Dev :=
  if (Tbl.find d.coh.regions n.toNat).isSome then (some .ok, d.destroyRegion n.toNat) else (some .stateConflict, d)

end Dev

/-- COH_NOP. -/
def execCohNop (s : State) : Host.Outcome State Fault Refusal := next (s.onDev (Dev.extCmd fun d => (some .ok, d)))
/-- EXT_READ. -/
def execExtRead (i : ExtIdx) (s : State) : Host.Outcome State Fault Refusal := next (s.onDev (Dev.extCmd (Dev.extRead i)))
/-- EXT_ASSIGN. -/
def execExtAssign (i : ExtIdx) (s : State) : Host.Outcome State Fault Refusal := next (s.onDev (Dev.extCmd (Dev.extAssign i)))
/-- EXT_INIT_DONE. -/
def execExtInitDone (i : ExtIdx) (s : State) : Host.Outcome State Fault Refusal := next (s.onDev (Dev.extInitDone i))
/-- EXT_GRANT. -/
def execExtGrant (i : ExtIdx) (s : State) : Host.Outcome State Fault Refusal := next (s.onDev (Dev.extCmd (Dev.extGrant i)))
/-- EXT_RESTRICT. -/
def execExtRestrict (i : ExtIdx) (s : State) : Host.Outcome State Fault Refusal := next (s.onDev (Dev.extCmd (Dev.extRestrict i)))
/-- EXT_REVOKE. -/
def execExtRevoke (i : ExtIdx) (count : BitVec 8) (s : State) : Host.Outcome State Fault Refusal :=
  next (s.onDev (Dev.extCmd (Dev.extRevoke i count)))
/-- CHANGE_END. -/
def execChangeEnd (id : Nat) (s : State) : Host.Outcome State Fault Refusal := next (s.onDev (Dev.changeEnd id))
/-- SWEEP_PASS_START. -/
def execSweepPassStart (h : Half) (s : State) : Host.Outcome State Fault Refusal := next (s.onDev (Dev.sweepStart h))
/-- SWEEP_PASS_END. -/
def execSweepPassEnd (h : Half) (s : State) : Host.Outcome State Fault Refusal := next (s.onDev (Dev.sweepEnd h))
/-- EXT_SCRUB. -/
def execExtScrub (i : ExtIdx) (s : State) : Host.Outcome State Fault Refusal := next (s.onDev (Dev.extCmd (Dev.extScrub i)))
/-- SCRUB_DONE. -/
def execScrubDone (i : ExtIdx) (s : State) : Host.Outcome State Fault Refusal := next (s.onDev (Dev.scrubDone i))
/-- HSET_READ. -/
def execHsetRead (set : BitVec 12) (sl : BitVec 4) (s : State) : Host.Outcome State Fault Refusal :=
  next (s.onDev (Dev.extCmd (Dev.hsetRead set sl)))
/-- HSET_WRITE. -/
def execHsetWrite (set : BitVec 12) (sl : BitVec 4) (s : State) : Host.Outcome State Fault Refusal :=
  next (s.onDev (Dev.extCmd (Dev.hsetWrite set sl)))
/-- REGION_CREATE. -/
def execRegionCreate (n : BitVec 12) (s : State) : Host.Outcome State Fault Refusal := next (s.onDev (Dev.extCmd (Dev.regionCreate n)))
/-- REGION_DESTROY. -/
def execRegionDestroy (n : BitVec 12) (s : State) : Host.Outcome State Fault Refusal := next (s.onDev (Dev.extCmd (Dev.regionDestroy n)))

end Sys2Proof.Machine
end

