-- ==== Sys2Proof/Machine/TierCmd.lean ====
section
/-! DEFINITION. The dense tier: TIER commands, fills, evictions, writebacks, the cleaner, drives and rebuild (R157 to R199). -/

namespace Sys2Proof.Machine

/-! ### The erasure code of the thatch (R185) -/

/-- Multiplication by g = 0x02 in GF(2^8) with the polynomial 0x11D. -/
def gfDouble (a : Byte) : Byte := if a.getLsbD 7 then (a <<< 1) ^^^ 0x1D else a <<< 1

/-- Multiplication in GF(2^8). -/
def gfMul (a b : Byte) : Byte :=
  ((List.range 8).foldl (fun (s : Byte × Byte) i => (if b.getLsbD i then s.1 ^^^ s.2 else s.1, gfDouble s.2)) (0, a)).1

/-- g^n. -/
def gfPow : Nat → Byte
  | 0 => 1
  | n + 1 => gfDouble (gfPow n)

/-- The inverse of g^i + g^j or of g^i: a^254. -/
def gfInv (a : Byte) : Byte := (List.range 253).foldl (fun p _ => gfMul p a) a

/-- Byte-wise XOR of units. -/
def xorUnits (a b : List Byte) : List Byte := a.zipWith (· ^^^ ·) b

/-- A unit times a constant. -/
def scaleUnit (c : Byte) (a : List Byte) : List Byte := a.map (gfMul c)

/-- The sum of the present data units other than two positions, each times g^(j·w). -/
def partialSum (n : Nat) (units : List (Option (List Byte))) (skip1 skip2 w : Nat) : List Byte :=
  (List.range 14).foldl (fun acc j =>
    match units[j]? with
    | some (some u) => if j = skip1 ∨ j = skip2 then acc else xorUnits acc (scaleUnit (gfPow (j * w)) u)
    | _ => acc) (List.replicate n 0)

/-- Rebuild the data unit at position j from the other members of its stripe (R185): data units by position, P and Q. Any two
missing members are rebuilt from the other fourteen. -/
def rebuildUnit (n j : Nat) (units : List (Option (List Byte))) (p q : Option (List Byte)) : Option (List Byte) :=
  let missing := (List.range 14).filter fun k => k ≠ j && (match units[k]? with | some (some _) => false | _ => true)
  match missing, p, q with
  | [], some p, _ => some (xorUnits p (partialSum n units j j 0))
  | [], none, some q => some (scaleUnit (gfInv (gfPow j)) (xorUnits q (partialSum n units j j 1)))
  | [k], some p, some q =>
    -- D_j + D_k = A and g^j D_j + g^k D_k = B
    let a := xorUnits p (partialSum n units j k 0)
    let b := xorUnits q (partialSum n units j k 1)
    some (scaleUnit (gfInv (gfPow j ^^^ gfPow k)) (xorUnits b (scaleUnit (gfPow k) a)))
  | _, _, _ => none

namespace Dev

/-- A command of TIER.CMD (R198). -/
def tierCmd (f : Dev → Option Status × Dev) (d : Dev) : Dev :=
  if d.busy 0xA104 then d.illegal Reg.tier
  else
    match f (d.cmdBegin 0xA104) with
    | (some st, d) => d.cmdEnd Reg.tier 0xA104 1 st
    | (none, d) => d

/-- TIER.STATE.STATE (R197). -/
def thatchCode : ThatchState → Nat
  | .uninit => 0 | .healthy => 1 | .degraded => 2 | .failed => 3

/-- A DRIVE_EVENT record (R705). -/
def logDrive (port : Nat) (event cause sev : Nat) (block gran : Nat) (d : Dev) : Dev :=
  let onDtp := event ≠ 5 ∧ event ≠ 6
  let half : Half := if onDtp then (if port < 8 then .west else .east) else if event = 5 then (if port < 8 then .west else .east) else d.strapHalf
  d.log half
    { type := 0x0D, sev := sev, block := if onDtp then blockOf (Reg.dtp port) else blockOf Reg.tier,
      detail := [(40, 1, if event = 6 then 0xFF else port), (41, 1, event), (42, 1, cause), (43, 1, thatchCode d.tier.state),
                 (44, 2, d.tier.failed.toNat), (48, 8, block), (56, 1, gran)] }

/-- Number of set bits. -/
def popCount16 (w : BitVec 16) : Nat := ((List.range 16).filter fun i => w.getLsbD i).length

/-- The thatch state that a failed set gives (R193). -/
def thatchOf (cur : ThatchState) (failed : BitVec 16) : ThatchState :=
  match cur with
  | .uninit => .uninit
  | .failed => .failed
  | _ => if failed = 0 then .healthy else if popCount16 failed ≤ 2 then .degraded else .failed

/-- What a read served goes on from the other members of its stripe (R192). -/
def readLost (port : Nat) (y : DriveIo) (d : Dev) : Dev :=
  match y.cmd with
  | .read lba => d.askMembers y.use (lba / 16) [port]
  | _ => d

/-- A drive fails (R192, R193): it joins the failed set, a rebuild of it ends, the commands that are out end, the event is logged and
DRIVE_FAILED is set. -/
def failDrive (port cause : Nat) (d : Dev) : Dev :=
  let was := d.tier.failed.getLsbD port
  let rebuilding := d.tier.rebuild.any fun r => r.port == port
  if was && !rebuilding then d
  else
    let failed := d.tier.failed ||| (1#16 <<< port)
    let d := d.modTier fun t => { t with failed := failed, state := thatchOf t.state failed, rebuild := if rebuilding then none else t.rebuild }
    let d := if rebuilding then d.driveEnd fun y => y.use == .rebuild else d
    let lost := (d.drive port).io
    let d := lost.foldl (fun d y => d.readLost port y) (d.putDrive port { d.drive port with io := [] })
    let d := if rebuilding then d.logDrive port 4 0 2 0 0 else d
    (d.logDrive port 1 cause 2 0 0).cause Reg.tier 2

/-- Whether an extent that is not FREE is tiered. -/
def anyTiered (d : Dev) : Bool := d.coh.exts.any fun x => x.2.state != .free && x.2.tiered

/-- The reset outputs of some root ports are released (R586): a link that is not ACTIVE trains, where its domain is on (R678). -/
def releasePorts (l : List Nat) (d : Dev) : Dev :=
  l.foldl (fun d p =>
    let x := Tbl.get driveReset d.tier.drives p
    let d := d.modTier fun t => { t with drives := Tbl.set driveReset p { x with released := true } t.drives }
    let live : Bool := match Tbl.find d.pwr.doms (60 + p) with | some y => y.state == .on | none => true
    if x.link != 2 && live then d.rootLink p 1 else d) d

/-- AREA_SET (R159, R198). R198 gives its STATE_CONFLICT and its MALFORMED conditions no order; STATE_CONFLICT goes first here. DESIGN CHOICE
(log 71). -/
def areaSet (d : Dev) : Option Status × Dev :=
  let v := d.data 0xA120 1
  if d.anyTiered ∨ (d.coh.exts.any fun x => x.2.state != .free && !x.2.tiered && decide (x.2.backing.toNat + x.2.rows > v)) then
    (some .stateConflict, d)
  else if v > d.tier.mapFirst ∨ (d.tier.blocks ≠ 0 ∧ d.tier.mapFirst - v < 32) then (some .malformed, d)
  else (some .ok, d.modTier fun t => { t with pinRows := v, frames := [], tags := ⟨[], []⟩, refills := [] })

/-- THATCH_INIT begins: the root-port resets are released and the 16 drives are brought up (R198, R586); TG counts the command
(R507). It completes at DRIVE_BRING_UP_DONE. -/
def thatchInit (d : Dev) : Option Status × Dev :=
  if d.anyTiered then (some .stateConflict, d)
  else
    let cap := d.data 0xA128 2
    let d := { d with sec := { d.sec with tg := d.sec.tg + 1 } }
    let ns := BitVec.ofNat 32 (d.data 0xA120 1)
    (none, (d.modTier fun t => { t with initCap := some cap, nsid := if ns = 0 then 1 else ns }).releasePorts (List.range 16))

/-- A drive's DTP page changes link state: LINK_CHANGE is set (R679). -/
def setDrive (port : Nat) (x : Drive) (d : Dev) : Dev :=
  let old := Tbl.get driveReset d.tier.drives port
  let d := d.modTier fun t => { t with drives := Tbl.set driveReset port x t.drives }
  if old.link = x.link then d else d.cause (Reg.dtp port) 1

/-- Whether a drive meets what R189 and R190 ask of it (R191). -/
def driveSupported (x : DriveInfo) : Bool :=
  x.present && x.classCode == 0x010802 && x.lbaBytes == 4096 && decide (x.metaBytes ≥ 32) && x.separate && x.page4k && decide (x.pairs ≥ 32)
    && decide (x.entries ≥ 256)

/-- The admin commands that bring a drive up (R190). -/
def bringUpCmds : List Nvme :=
  [.identify 1, .identify 0, .setQueues 32] ++ (List.range 32).flatMap fun q => [.createCq (q + 1) 256, .createSq (q + 1) 256]

/-- What the bring-up of a drive found (R190, R191, R678). -/
def bringUp (x : DriveInfo) (d : Dev) : Dev :=
  let d := if x.present then bringUpCmds.foldl (fun d c => d.emit (.drive x.port.val c)) d else d
  d.setDrive x.port.val
    { present := x.present, supported := driveSupported x, lbas := if x.present then x.lbas else 0, serial := if x.present then x.serial else [],
      link := if x.present then 2 else 3, width := if x.present then x.width else 0, rate := if x.present then x.rate else 0,
      released := true, io := [], timeouts := [] }

/-- The thatch and the block cache hold nothing (R188, R198). -/
def emptyThatch (d : Dev) : Dev :=
  (d.driveEnd fun _ => true).modTier fun t => { t with
    failed := 0, map := [], frames := [], fills := [], wbs := [], tags := ⟨[], []⟩, flush := [], refills := [], rebuild := none, cleaning := false }

/-- The bring-up that THATCH_INIT or DRIVE_REBUILD started, or a return from Midnight (R608), has ended (R191, R195, R198). A rebuild runs, and
REBUILDING reads 1, from here on; whether it already does during the drive's bring-up R195 and R197 leave open. DESIGN CHOICE (log 71). -/
def bringUpDone (l : List DriveInfo) (d : Dev) : Dev :=
  match d.tier.initCap, d.tier.rebuildAsk with
  | some cap, _ =>
    let d := l.foldl (fun d x => d.bringUp x) (d.modTier fun t => { t with initCap := none })
    let drive (i : Nat) : Option DriveInfo := l.find? fun x => x.port.val == i && driveSupported x
    let bad := (List.range 16).filter fun i => (drive i).isNone
    if bad.length > 2 then (d.emptyThatch.modTier fun t => { t with state := .uninit, blocks := 0 }).cmdEnd Reg.tier 0xA104 1 .stateConflict
    else
      let stripes := ((List.range 16).filterMap drive).foldl (fun m x => min m (x.lbas.toNat / 16)) (4026531840 / 14 + 1)
      let blocks := min (min (14 * stripes) 4026531840) (if cap = 0 then 4026531840 else cap)
      if ({ d.tier with blocks := blocks }).mapFirst < d.tier.pinRows + 32 then d.cmdEnd Reg.tier 0xA104 1 .malformed
      else
        let d := d.emptyThatch.modTier fun t => { t with blocks := blocks, state := .healthy }
        (bad.foldl (fun d i => d.failDrive i 5) d).cmdEnd Reg.tier 0xA104 1 .ok
  | none, some port =>
    let d := l.foldl (fun d x => if x.port.val = port then d.bringUp x else d) (d.modTier fun t => { t with rebuildAsk := none })
    -- too small: fewer LBAs than the stripes of the thatch need (R191)
    if l.any fun x => x.port.val == port && driveSupported x && decide (16 * ceilDiv d.tier.blocks 14 ≤ x.lbas.toNat) then
      ((d.modTier fun t => { t with rebuild := some ⟨port, 0, none, none⟩ }).logDrive port 2 0 0 0 0).cmdEnd Reg.tier 0xA104 1 .ok
    else d.cmdEnd Reg.tier 0xA104 1 .fenced
  | none, none => l.foldl (fun d x => if (Tbl.get driveReset d.tier.drives x.port.val).link = 1 then d.bringUp x else d) d

/-- FLUSH (R198): it completes when every granule dirty at acceptance has been written back. -/
def flush (d : Dev) : Option Status × Dev :=
  if d.tier.state = .uninit then (some .stateConflict, d)
  else
    let l := (d.tier.frames.filter fun f => f.2.valid && f.2.dirty != 0).map fun f =>
      let early := (d.tier.wbs.find? fun w => w.block == f.2.block && w.snap.isSome).map fun w => (w.id, w.again)
      (⟨f.2.block, f.2.dirty, early⟩ : FlushEnt)
    if l.isEmpty then (some .ok, d) else (none, d.modTier fun t => { t with flush := l })

/-- DRIVE_FAIL (R198); a drive under rebuild counts as failed (R193). -/
def driveFail (port : Nat) (d : Dev) : Option Status × Dev :=
  if d.tier.state = .uninit ∨ d.driveFailed port then (some .stateConflict, d)
  else (some .ok, d.failDrive port 4)

/-- DRIVE_REBUILD begins (R195, R198); the bring-up of the drive follows. -/
def driveRebuild (port : Nat) (d : Dev) : Option Status × Dev :=
  if d.tier.rebuild.isSome ∨ !d.tier.failed.getLsbD port ∨ d.tier.state = .failed ∨ d.tier.state = .uninit then (some .stateConflict, d)
  else (none, (d.modTier fun t => { t with rebuildAsk := some port }).releasePorts [port])

/-- Whether any block of a stripe has content on the drives (R195). -/
def stripeUsed (d : Dev) (s : Nat) : Bool := (List.range 14).any fun j => (d.mapEnt (14 * s + j)).getLsbD 0

/-- The first used stripe from s on, of n. -/
def nextStripe (d : Dev) (s : Nat) : Option Nat :=
  (d.tier.map.filter fun x => x.2.getLsbD 0 && decide (s ≤ x.1 / 14)).head?.map fun x => x.1 / 14

/-! ### The members of a stripe (R185, R193, R195) -/

/-- What the drive of a port holds of granule g of a stripe, as the reads gave it. The manual does not say what the unit of a block that was never
written back counts for in P and Q; it counts as zeros, and so do P and Q of a stripe without content. DESIGN CHOICE (log 74). -/
def oldMember (d : Dev) (stripe g : Nat) (gs : List Granule) (port : Nat) : Option (List Byte) :=
  let zeros := List.replicate 4128 (0 : Byte)
  let unused := match stripePos stripe port with
    | some j => !(d.mapEnt (14 * stripe + j)).getLsbD 0
    | none => !d.stripeUsed stripe
  if unused then some zeros
  else if d.driveFailed port then none
  else match gs[g]? with | some x => (x.members[port]?).join | none => none

/-- The 14 data units of granule g of a stripe, with P and Q, as they are on the drives; a missing data unit is rebuilt where it can be. -/
def oldUnits (d : Dev) (stripe g : Nat) (gs : List Granule) : List (Option (List Byte)) × Option (List Byte) × Option (List Byte) :=
  let sp := stripePlace (14 * stripe)
  let p := d.oldMember stripe g gs sp.p
  let q := d.oldMember stripe g gs sp.q
  let units := (List.range 14).map fun j => d.oldMember stripe g gs ((sp.p + 2 + j) % 16)
  (units.zipIdx.map fun x => match x.1 with | some u => some u | none => rebuildUnit 4128 x.2 units p q, p, q)

/-- P, or Q, of 14 data units. -/
def parityOf (units : List (Option (List Byte))) (w : Nat) : Option (List Byte) :=
  if units.all Option.isSome then some (partialSum 4128 units 14 14 w) else none

/-- The new content of the drive of a port for granule g of a stripe, when the units at some positions are written (R175 step 4, R185, R193): the
written unit; P and Q by the change of the old ones, or from all 14 units where an old one is missing; another data unit as it was. -/
def newMember (d : Dev) (stripe g : Nat) (gs : List Granule) (written : List (Nat × List Byte)) (port : Nat) : Option (List Byte) :=
  let (old, p, q) := d.oldUnits stripe g gs
  let now := old.zipIdx.map fun x => match written.find? fun y => y.1 == x.2 with | some y => some y.2 | none => x.1
  let parity (was : Option (List Byte)) (w : Nat) : Option (List Byte) :=
    let change := written.foldl (fun (a : Option (List Byte)) y =>
      match a, (old[y.1]?).join with
      | some a, some o => some (xorUnits a (scaleUnit (gfPow (y.1 * w)) (xorUnits o y.2)))
      | _, _ => none) was
    match change with
    | some x => some x
    | none => parityOf now w
  match stripePos stripe port with
  | some j => (now[j]?).join
  | none => if port = stripe % 16 then parity p 0 else parity q 1

/-- The write of 16 LBAs of a stripe to the drive of a port, when all of its content is known (R190). -/
def writeMember (use : DriveUse) (stripe port : Nat) (f : Nat → Option (List Byte)) (d : Dev) : Dev :=
  let l := (List.range 16).map f
  if l.all Option.isSome then d.driveCmd port use (.write (stripe * 16) (l.filterMap id)) else d

/-! ### Rebuild (R195) -/

/-- Whether nothing that arrived earlier runs on a stripe or waits for it (R176). -/
def firstOn (d : Dev) (stripe ticket : Nat) : Bool :=
  !(d.tier.wbs.any fun w => w.block / 14 == stripe && decide (w.id < ticket) && (w.lead.getD w.id) != ticket)
    && !(d.tier.rebuild.any fun r => match r.step with | some (s, t, _) => s == stripe && decide (t < ticket) | none => false)

/-- Whether a command of a fill or writeback is out to a drive, so that rebuild writes yield (R195 step 4). -/
def drivesBusy (d : Dev) : Bool := d.tier.drives.any fun x => x.2.io.any fun y => y.use != .rebuild

/-- A step of the rebuild (R195): the next used stripe is read from the survivors, which this command's reads are the answer to when they are out;
its member is rebuilt and written. Writes are paced to REBUILD_RATE. After the last stripe the drive leaves the failed set. A thatch that FAILED
meanwhile has no 14 surviving members, and the step waits. -/
def rebuildStripe (gs : List Granule) (d : Dev) : Dev :=
  match d.tier.rebuild with
  | none => d
  | some r =>
    match r.step with
    | some (s, _, true) =>
      let d := d.driveEnd fun y => y.use == .rebuild
      let d := d.writeMember .rebuild s r.port fun g => d.newMember s g gs [] r.port
      let d := if (stripePos s r.port).isSome then d.bump Reg.tier 0x058 1 else d
      d.modTier fun x => { x with rebuild := some { r with next := s + 1, step := none, lastAt := some d.now } }
    | some (s, t, false) =>
      if d.tier.state = .failed ∨ !d.firstOn s t ∨ d.drivesBusy then d
      else (d.askMembers .rebuild s [r.port]).modTier fun x => { x with rebuild := some { r with step := some (s, t, true) } }
    | none =>
      let d := d.driveEnd fun y => y.use == .rebuild
      let pause := 655360 / min1 (d.fld 0xA110 15 8)
      match d.nextStripe r.next with
      | some s =>
        if r.lastAt.any fun t => decide (d.now < t + pause) then d
        else d.modTier fun x => { x with rebuild := some { r with step := some (s, x.nextWb, false) }, nextWb := x.nextWb + 1 }
      | none =>
        let failed := d.tier.failed &&& ~~~(1#16 <<< r.port)
        ((d.modTier fun t => { t with rebuild := none, failed := failed, state := thatchOf t.state failed }).logDrive r.port 3 0 0 0 0).cause
          Reg.tier 3

/-! ### Fills (R170 to R172) -/

/-- Whether a fill into this block's set must write poison: the set is lost, or the half's table is full (R256). -/
def setLost (d : Dev) (i : Nat) (blk : Nat) : Bool :=
  let p := (blk - (d.ext i).backing.toNat) % 3
  let s := d.tier.setOf blk
  let r := d.ras.at (if s % 2 = 0 then .west else .east)
  r.lostAll || decide (r.lost.length ≥ 256) || r.lost.contains (p * 2 ^ 32 + s)

/-- The plain bytes and the POISON field of stored bytes, when TAG verifies (R186). -/
def openGranule (d : Dev) (e : Ext) (blk g : Nat) (stored : List Byte) : Option (List Byte × Word64) :=
  openStored (d.slotSecret e) d.sec.tg blk g (d.epoch blk) stored

/-- Write one granule of a fill into its frame, encrypted under the extent's key slot (R170 step 5): data with the poisoned lines marked, or every
line poisoned. -/
def fillGranule (e : Ext) (blk k g : Nat) (x : Option (List Byte × Word64)) (d : Dev) : Dev :=
  foldN 64 (fun l d =>
    let key := frameLine d.tier k g l
    let line := (e.first + (blk - e.backing.toNat) * 65536 + g * 4096) / 64 + l
    let w : WriteBy := ⟨d.nodeId, 0, 0, 0⟩
    match x with
    | some (b, bad) =>
      if bad.getLsbD l then d.writeKey key none w
      else d.writeKey key (some (rekey (d.slotSecret e) e.secret line (lineOf (sub b (64 * l) 64)))) w
    | none => d.writeKey key none w) d

/-- One granule that came from the drives (R170 step 4, R171): read, or rebuilt from its stripe, or lost. It says whether the granule was rebuilt, and
what its LBA should hold. -/
def takeGranule (e : Ext) (blk k g : Nat) (gs : List Granule) (d : Dev) : (Bool × Option (List Byte)) × Dev :=
  let sp := stripePlace blk
  let stored := if d.driveFailed sp.data then none else match gs[g]? with | some x => (x.members[sp.data]?).join | none => none
  match stored.bind (d.openGranule e blk g) with
  | some y => ((false, stored), d.fillGranule e blk k g (some y))
  | none =>
    let d := match stored with
      | some _ => d.bump Reg.tier 0x060 1
      | none => if d.driveFailed sp.data then d else d.bump (Reg.dtp sp.data) 0x050 1
    let units := (List.range 14).map fun j => if j = sp.pos then none else d.oldMember sp.stripe g gs ((sp.p + 2 + j) % 16)
    let rebuilt : Option (List Byte) :=
      if d.tier.state == .failed then none
      else rebuildUnit 4128 sp.pos units (d.oldMember sp.stripe g gs sp.p) (d.oldMember sp.stripe g gs sp.q)
    match rebuilt.bind fun s => (d.openGranule e blk g s).map fun y => (s, y) with
    | some (s, y) => ((true, some s), d.fillGranule e blk k g (some y))
    | none => ((false, stored), ((d.bump Reg.tier 0x068 1).logDrive sp.data 5 0 2 blk g).fillGranule e blk k g none)

/-- The granules of a fill from the drives (R170, R171, R199): a unit that needed rebuilding is counted, and written back to its drive when that has
not failed (R192). -/
def takeBlock (e : Ext) (blk k : Nat) (gs : List Granule) (d : Dev) : Dev :=
  let sp := stripePlace blk
  let (l, d) := foldN 16 (fun g (x : List (Bool × Option (List Byte)) × Dev) => let (y, d) := takeGranule e blk k g gs x.2; (x.1 ++ [y], d)) ([], d)
  if l.any (·.1) then
    let d := d.bump Reg.tier 0x058 1
    if d.driveFailed sp.data ∨ l.any fun x => x.2.isNone then d
    else (d.bump (Reg.dtp sp.data) 0x040 1).emit (.drive sp.data (.write (sp.stripe * 16) (l.filterMap (·.2))))
  else d

/-- A block at the EPOCH limit is marked PIN and the event is logged (R177). -/
def pinLimit (k : Nat) (d : Dev) : Dev :=
  let f := d.frame k
  if d.epoch f.block = 0x3FFFFFFF ∧ !f.pin then (d.setFrame k { f with pin := true }).logDrive 0 6 0 2 f.block 0 else d

/-- The read of a fill is complete (R170 steps 3 to 6): the frame becomes IDLE and valid with every dirty bit clear. A zero block
needs no drive; a lost block or set is filled with poison (R187, R256); a block at the EPOCH limit is pinned (R177, R257). -/
def fillDone (blk : Nat) (gs : List Granule) (d : Dev) : Dev :=
  match d.tier.fills.find? fun f => f.block == blk with
  | some { ext := i, frame := some k, .. } =>
    let e := d.ext i.toNat
    let m := d.mapEnt blk
    let d := d.driveEnd fun y => y.use == .fill blk
    let poison (d : Dev) : Dev := foldN 16 (fun g d => d.fillGranule e blk k g none) d
    let d :=
      if d.setLost i.toNat blk then (poison d).setMap blk (m ||| 2)
      else if m.getLsbD 1 then poison d
      else if !m.getLsbD 0 then foldN 16 (fun g d => d.fillGranule e blk k g (some (List.replicate 4096 0, 0))) d
      else d.takeBlock e blk k gs
    let d := if m.getLsbD 1 then d else d.bump Reg.tier (if m.getLsbD 0 then 0x040 else 0x048) 1
    let d := (d.setFrame k { d.frame k with valid := true, state := .idle }).pinLimit k
    (((d.modTier fun t => { t with fills := t.fills.filter fun f => f.block ≠ blk }).tryRegion).tryRetire .west).tryRetire .east
  | _ => d

/-! ### Writebacks (R175 to R178) -/

/-- Whether a block can be part of the writing of its whole stripe: dirty and resident, and not at the EPOCH limit (R175 step 4, R177). -/
def dirtyResident (d : Dev) (blk : Nat) : Bool :=
  match d.frameOf blk with
  | some (_, f) => f.valid && f.dirty != 0 && (f.state == .idle || f.state == .writeback) && d.epoch blk != 0x3FFFFFFF && !(d.tier.wbs.any fun w => w.block == blk && w.snap.isSome)
  | none => false

/-- Whether all 14 data blocks of a stripe are dirty and resident, so that it is written without reading (R175 step 4). -/
def stripeFull (d : Dev) (stripe : Nat) : Bool := (List.range 14).all fun j => d.dirtyResident (14 * stripe + j)

/-- Recall the owners of a writeback's lines in M (R175 step 1), once it is the first of its stripe (R176). -/
def wbRecall (w : BlockWb) (d : Dev) : Dev :=
  if w.evict ∨ !d.firstOn (w.block / 14) (w.lead.getD w.id) then d
  else d.recallBlock (d.frame w.frame).ext.toNat w.block (.writeback w.block) .toShared true

/-- Begin a writeback of an IDLE or EVICTING frame with a dirty granule (R175). A block at the EPOCH limit is never written back: it is marked PIN
(R177). -/
def beginWb (k : Nat) (evict : Bool) (d : Dev) : Dev :=
  let f := d.frame k
  if d.epoch f.block = 0x3FFFFFFF then ((d.setFrame k { f with state := .idle }).pinLimit k).flushDrop f.block
  else
    let w : BlockWb := ⟨d.tier.nextWb, f.block, k, evict, none, none, 0, [], false⟩
    ((d.setFrame k { f with state := .writeback }).modTier fun t => { t with wbs := t.wbs ++ [w], nextWb := t.nextWb + 1 }).wbRecall w

/-- The writebacks that go out with one: itself, and for a whole stripe the others of it. -/
def wbGroup (d : Dev) (id : Nat) : List BlockWb := d.tier.wbs.filter fun w => (w.lead.getD w.id) == id

/-- Take in the other 13 blocks of a stripe that is full, so that it is written as a whole (R175 step 4): each gets a writeback of its own, or one
that waits joins. -/
def takeStripe (w : BlockWb) (d : Dev) : Dev :=
  if !d.stripeFull (w.block / 14) ∨ (d.wbGroup w.id).length > 1 then d
  else
    foldN 14 (fun j d =>
      let blk := 14 * (w.block / 14) + j
      if blk = w.block then d
      else
        let d := if d.tier.wbs.any fun x => x.block == blk then d
          else match d.frameOf blk with
            | some (k, f) => if f.state = .idle then d.beginWb k false else d
            | none => d
        d.modTier fun t => { t with wbs := t.wbs.map fun x => if x.block = blk then { x with lead := some w.id } else x }) d

/-- A block as it goes to the drives: its 16 granules sealed under its new EPOCH, with the poison of their lines in the POISON fields (R186,
R253); an uncorrectable line counts as poisoned. Every granule is sealed, since EPOCH is the block's and a command writes 16 LBAs. DEDUCED (log 74). -/
def stageBlock (d : Dev) (w : BlockWb) : List (List Byte) :=
  let e := d.ext (d.frame w.frame).ext.toNat
  let first := (e.first + (w.block - e.backing.toNat) * 65536) / 64
  (List.range 16).map fun g =>
    let read (l : Nat) : DramRead := d.decrypt e ((first + g * 64 + l) * 64) (d.readKey (frameLine d.tier w.frame g l))
    let data := (List.range 64).flatMap fun l => match read l with | .data x => lineBytes x | _ => List.replicate 64 0
    let bad : Word64 := (List.range 64).foldl (fun a l => match read l with | .data _ => a | _ => a ||| (1#64 <<< l)) 0
    sealGranule (d.slotSecret e) d.sec.tg w.block g (d.epoch w.block) data bad

/-- The snapshot of a writeback (R175 steps 2 and 3): EPOCH increases and the granules are staged. -/
def snapBlock (w : BlockWb) (d : Dev) : Dev :=
  let f := d.frame w.frame
  let d := d.setMap w.block (BitVec.ofNat 32 ((d.mapEnt w.block).toNat + 4))
  let x := { w with snap := some f.dirty, again := 0, staged := d.stageBlock w }
  let keys := (List.range 16).flatMap fun g => (List.range 64).map fun l => frameLine d.tier w.frame g l
  let d := keys.foldl (fun d k => d.noteRead false k) d
  d.modTier fun t => { t with wbs := t.wbs.map fun y => if y.id = w.id then x else y }

/-- Whether a drive takes the writes of a writeback: a surviving one, or the one under rebuild (R193, R195 step 5). -/
def takesWrites (d : Dev) (port : Nat) : Bool := !d.driveFailed port || d.tier.rebuild.any fun r => r.port == port

/-- The writes of a writeback group, once the old content is known (R175 step 4, R193, R195 step 5): the data drives, P and Q, and the new member of
a stripe that is not rebuilt yet. In FAILED only surviving data drives are written; the data of a failed one is discarded and logged, and LOST
set. -/
def sendWrites (id : Nat) (gs : List Granule) (d : Dev) : Dev :=
  let ws := d.wbGroup id
  match ws.head? with
  | none => d
  | some w0 =>
    let stripe := w0.block / 14
    let written (g : Nat) : List (Nat × List Byte) := ws.filterMap fun w => (w.staged[g]?).map fun x => (w.block % 14, x)
    let d := d.driveEnd fun y => y.use == .writeback id
    let d :=
      if d.tier.state = .failed then
        ws.foldl (fun d w =>
          let sp := stripePlace w.block
          if d.driveFailed sp.data then
            let i := (d.frame w.frame).ext.toNat
            let d := d.logDiscard (if sp.data < 8 then .west else .east) Reg.tier 6 ⟨d.nodeId, (d.ext i).part, 0, d.blockOff i w.block⟩ .ok
            d.setMap w.block (d.mapEnt w.block ||| 2)
          else d.writeMember (.writeback id) stripe sp.data fun g => w.staged[g]?) d
      else
        foldN 16 (fun port d =>
          let mine := match stripePos stripe port with | some j => ws.any fun w => w.block % 14 == j | none => true
          let fresh := d.tier.rebuild.any fun r => r.port == port && decide (r.next ≤ stripe)
          if (mine && d.takesWrites port) || fresh then d.writeMember (.writeback id) stripe port fun g => d.newMember stripe g gs (written g) port
          else d) d
    d.modTier fun t => { t with wbs := t.wbs.map fun w => if (w.lead.getD w.id) = id then { w with sent := true } else w }

/-- Whether reads of a block's frame wait: CHECK runs on a channel that holds a granule of it (R233). -/
def frameHeld (d : Dev) (k : Nat) : Bool := (List.range 16).any fun g => (d.chan (framePlace d.tier (k / 2 ^ 32) (k % 2 ^ 32) g).1).cmdWaits

/-- Whether a writeback group knows what it needs without reading: it is a whole stripe, or the thatch has FAILED (R175 step 4, R193). -/
def needsNoRead (d : Dev) (id : Nat) : Bool := (d.wbGroup id).length == 14 || d.tier.state == .failed

/-- The reads of a writeback (R175 step 4): the old data, P and Q; every surviving member where one of these is missing. -/
def readOld (id blk : Nat) (d : Dev) : Dev :=
  let sp := stripePlace blk
  let l := [sp.data, sp.p, sp.q]
  if (l.any d.driveFailed) || (d.tier.rebuild.any fun r => decide (r.next ≤ sp.stripe)) then d.askMembers (.writeback id) sp.stripe []
  else l.foldl (fun d p => d.driveCmd p (.writeback id) (.read (sp.stripe * 16))) d

/-- Carry on a writeback once it is the first of its stripe (R175, R176): the owners of lines in M are recalled; then the snapshot is taken and the
old content read, or the writes go out at once; what the reads gave lets the writes go out. -/
def wbStep (blk : Nat) (gs : List Granule) (d : Dev) : Dev :=
  match d.tier.wbs.find? fun w => w.block == blk with
  | none => d
  | some w =>
    let id := w.lead.getD w.id
    if w.sent then d
    else if w.snap.isSome then d.sendWrites id gs
    else if w.lead.isSome ∨ !d.firstOn (blk / 14) w.id then d
    else
      let d := d.takeStripe w
      let ws := d.wbGroup id
      if ws.any fun x => d.blockBusy (d.frame x.frame).ext.toNat x.block true then ws.foldl (fun d x => d.wbRecall x) d
      else if ws.any fun x => d.epoch x.block == 0x3FFFFFFF then
        -- a lost line of the thatch map has ended it (R177, R257)
        ws.foldl (fun d x => ((d.modTier fun t => { t with wbs := t.wbs.filter fun y => y.id != x.id }).setFrame x.frame
          { d.frame x.frame with state := .idle }).pinLimit x.frame) d
      else if ws.any fun x => d.frameHeld x.frame then d
      else
        let d := ws.foldl (fun d x => d.snapBlock x) d
        if d.needsNoRead id then d.sendWrites id [] else d.readOld id blk

/-- Whether the cleaner would take a frame now (R178): of the dirty IDLE frames whose stripe can be written in full, or of all of them when there is
none, one of the greatest age. -/
def cleanerTakes (d : Dev) (f : Frame) : Bool :=
  let l := (d.tier.frames.map (·.2)).filter fun x => x.valid && x.state == .idle && x.dirty != 0
  let full := l.filter fun x => d.stripeFull (x.block / 14)
  let l := if full.isEmpty then l else full
  d.tier.cleaning && (d.cleanLevels).1 != 0 && l.contains f && l.all fun x => decide (x.age.toNat ≤ f.age.toNat)

/-- WRITEBACK: a writeback starts for the cleaner or FLUSH, or one that is under way goes on with what its reads gave. -/
def writeback (blk : Nat) (gs : List Granule) (d : Dev) : Dev :=
  match d.tier.wbs.find? fun w => w.block == blk with
  | some _ => d.wbStep blk gs
  | none =>
    match d.frameOf blk with
    | none => d
    | some (k, f) =>
      if f.valid ∧ f.state = .idle ∧ f.dirty ≠ 0 ∧ ((d.tier.flush.any fun x => x.block == blk && x.left != 0) ∨ d.cleanerTakes f) then
        (d.beginWb k false).wbStep blk []
      else d

/-- What FLUSH no longer waits for after a writeback (R198): the granules of its snapshot, but for those that were already dirty again when FLUSH
was accepted after it. -/
def flushDone (w : BlockWb) (d : Dev) : Dev :=
  let late (x : FlushEnt) : BitVec 16 := match x.early with | some (id, a) => if id = w.id then a else 0 | none => 0
  let upd (x : FlushEnt) : FlushEnt := if x.block = w.block then { x with left := x.left &&& ~~~((w.snap.getD 0) &&& ~~~late x) } else x
  (d.modTier fun t => { t with flush := t.flush.map upd }).flushCheck

/-- One block of a writeback whose writes have completed (R175 step 5): DATA is set, the dirty bits of the snapshot that were not set again
clear, and an eviction frees the frame (R174 step 4), but for a block that has reached the EPOCH limit, which stays (R177). -/
def wbEnd (w : BlockWb) (d : Dev) : Dev :=
  let f := d.frame w.frame
  let map := d.mapEnt w.block
  let d := if map.getLsbD 1 then d else d.setMap w.block (map ||| 1)
  let d := (d.modTier fun t => { t with wbs := t.wbs.filter fun x => x.id != w.id }).bump Reg.tier 0x050 1
  let d := if w.evict ∧ d.epoch w.block ≠ 0x3FFFFFFF then d.freeFrame w.frame
    else (d.setFrame w.frame { f with state := .idle, dirty := f.dirty &&& ~~~(w.snap.getD 0 &&& ~~~w.again) }).pinLimit w.frame
  d.flushDone w

/-- Every write of a writeback has completed (R175 step 5): the cleaner stops below LOW (R178). -/
def wbDone (blk : Nat) (d : Dev) : Dev :=
  match d.tier.wbs.find? fun w => w.block == blk with
  | some w =>
    if !w.sent then d
    else
      let id := w.lead.getD w.id
      let d := (d.wbGroup id).foldl (fun d x => d.wbEnd x) (d.driveEnd fun y => y.use == .writeback id)
      ((d.cleanerStop).tryRetire .west).tryRetire .east
  | none => d

/-- The block of a frame is filled again in place, which keeps its marks (R172). -/
def refillNow (k : Nat) (d : Dev) : Dev :=
  let f := d.frame k
  let d := (d.setFrame k { f with valid := false, state := .filling }).modTier fun t => { t with
    refills := t.refills.filter fun x => x != k, fills := t.fills.filter (fun x => x.block != f.block) ++ [⟨f.block, f.ext, some k⟩] }
  if d.onDrives f.block then d.readBlock f.block else d

/-- The recall of an eviction has ended (R174): a dirty block is written back, a clean one freed, or filled again in place (R172). Lines that were in
transition are recalled now. -/
def evictRecalled (blk : Nat) (d : Dev) : Dev :=
  match d.frameOf blk with
  | none => d
  | some (k, f) =>
    if f.state ≠ .evicting then d
    else if d.blockBusy f.ext.toNat blk false then d.recallBlock f.ext.toNat blk (.evict blk) .inv false
    else if d.tier.refills.contains k then d.refillNow k
    else if f.dirty = 0 then ((d.freeFrame k).tryRetire .west).tryRetire .east
    else (d.beginWb k true).wbStep blk []

/-- The cleaner starts when the fraction of dirty frames exceeds HIGH (R178, R197). -/
def cleanerStart (d : Dev) : Dev :=
  let hi := d.cleanLevels.1
  if hi ≠ 0 ∧ d.dirtyCount * 100 > hi * d.frameCount then d.modTier fun t => { t with cleaning := true } else d

/-- Ages increase every 100 µs, saturating at 15 (R173). -/
def ageStep (d : Dev) : Dev :=
  if d.tier.ageAt + 100000 ≤ d.now then
    d.modTier fun t => { t with ageAt := d.now, frames := t.frames.map fun f => (f.1, { f.2 with age := satAdd f.2.age 1 }) }
  else d

/-- A drive's command for the stripe of a block reaches TIER.DRV_CFG.TIMEOUT (R192, R197): it is aborted and counted, three within 1 s fail the
drive, and the operation that it served goes on from the other members. -/
def driveTimeout (port blk : Nat) (d : Dev) : Dev :=
  let x := d.drive port
  let limit := min1 (d.fld 0xA110 7 0) * 1000000
  let lba := blk / 14 * 16
  let due (y : DriveIo) : Bool := (y.cmd == .read lba || (match y.cmd with | .write l _ => l == lba | _ => false))
    && y.issued.any fun t => decide (t + limit ≤ d.now)
  match x.io.find? due with
  | none => d
  | some y =>
    let ts := d.now :: x.timeouts.filter fun t => d.now < t + 1000000000
    let d := (d.putDrive port { x with io := x.io.erase y, timeouts := ts }).emit (.drive port (.abort lba (y.cmd != .read lba)))
    let d := ((d.driveIssue port).bump (Reg.dtp port) 0x048 1).readLost port y
    if ts.length ≥ 3 then d.failDrive port 3 else d

/-- A drive's link has been down for 100 ms, or the drive was removed (R192): its identity clears (R679). -/
def driveDown (port : Nat) (d : Dev) : Dev :=
  let x := Tbl.get driveReset d.tier.drives port
  (d.setDrive port { x with present := false, supported := false, lbas := 0, serial := [], link := 3, width := 0, rate := 0 }).failDrive port 1

/-- An AER error of a root port (R189, R680, R705). -/
def aerError (port : Nat) (correctable : Bool) (d : Dev) : Dev :=
  (d.bump (Reg.dtp port) (if correctable then 0x058 else 0x060) 1).logDrive port 7 0 (if correctable then 0 else 1) 0 0

end Dev

/-- TIER_NOP. -/
def execTierNop (s : State) : Host.Outcome State Fault Refusal := next (s.onDev (Dev.tierCmd fun d => (some .ok, d)))
/-- AREA_SET. -/
def execAreaSet (s : State) : Host.Outcome State Fault Refusal := next (s.onDev (Dev.tierCmd Dev.areaSet))
/-- THATCH_INIT. -/
def execThatchInit (s : State) : Host.Outcome State Fault Refusal := next (s.onDev (Dev.tierCmd Dev.thatchInit))
/-- FLUSH. -/
def execFlush (s : State) : Host.Outcome State Fault Refusal := next (s.onDev (Dev.tierCmd Dev.flush))
/-- DRIVE_FAIL. -/
def execDriveFail (p : DriveNo) (s : State) : Host.Outcome State Fault Refusal := next (s.onDev (Dev.tierCmd (Dev.driveFail p.val)))
/-- DRIVE_REBUILD. -/
def execDriveRebuild (p : DriveNo) (s : State) : Host.Outcome State Fault Refusal := next (s.onDev (Dev.tierCmd (Dev.driveRebuild p.val)))
/-- REBUILD_STRIPE. -/
def execRebuildStripe (g : List Granule) (s : State) : Host.Outcome State Fault Refusal := next (s.onDev (Dev.rebuildStripe g))
/-- FILL_FRAME_READY. -/
def execFillFrameReady (b : Nat) (s : State) : Host.Outcome State Fault Refusal := next (s.onDev (Dev.tryFrame b))
/-- DRIVE_READ_COMPLETE. -/
def execDriveReadComplete (b : Nat) (g : List Granule) (s : State) : Host.Outcome State Fault Refusal := next (s.onDev (Dev.fillDone b g))
/-- EVICTION_RECALL_DONE. -/
def execEvictionRecallDone (b : Nat) (s : State) : Host.Outcome State Fault Refusal := next (s.onDev (Dev.evictRecalled b))
/-- WRITEBACK. -/
def execWriteback (b : Nat) (g : List Granule) (s : State) : Host.Outcome State Fault Refusal := next (s.onDev (Dev.writeback b g))
/-- WRITEBACK_COMPLETE. -/
def execWritebackComplete (b : Nat) (s : State) : Host.Outcome State Fault Refusal := next (s.onDev (Dev.wbDone b))
/-- CLEANER_START. -/
def execCleanerStart (s : State) : Host.Outcome State Fault Refusal := next (s.onDev Dev.cleanerStart)
/-- AGE_STEP. -/
def execAgeStep (s : State) : Host.Outcome State Fault Refusal := next (s.onDev Dev.ageStep)
/-- DRIVE_COMMAND_TIMEOUT. -/
def execDriveCommandTimeout (p : DriveNo) (b : Nat) (s : State) : Host.Outcome State Fault Refusal := next (s.onDev (Dev.driveTimeout p.val b))
/-- DRIVE_LINK_DOWN. -/
def execDriveLinkDown (p : DriveNo) (_removed : Bool) (s : State) : Host.Outcome State Fault Refusal := next (s.onDev (Dev.driveDown p.val))
/-- DRIVE_FATAL_STATUS. -/
def execDriveFatalStatus (p : DriveNo) (s : State) : Host.Outcome State Fault Refusal := next (s.onDev (Dev.failDrive p.val 2))
/-- DRIVE_BRING_UP_DONE. -/
def execDriveBringUpDone (l : List DriveInfo) (s : State) : Host.Outcome State Fault Refusal := next (s.onDev (Dev.bringUpDone l))
/-- AER_ERROR. -/
def execAerError (p : DriveNo) (c : Bool) (s : State) : Host.Outcome State Fault Refusal := next (s.onDev (Dev.aerError p.val c))

end Sys2Proof.Machine
end

