-- ==== Sys2Proof/Machine/Rte.lean ====
section
/-! DEFINITION. The router's own work (R448 to R482): protection of arriving packets, meters, device-issued
transactions, batten circuits and rafter trees, and the commands of RTE and SHP. -/

namespace Sys2Proof.Machine

namespace Dev

/-! ### Protection of arriving packets (R503, R505) -/

/-- A SECURITY_EVENT about an entry of the fabric key store, at most one per index and millisecond (R505, R512). -/
def fkeyEvent (i event : Nat) (part : Option PartId) (node : NodeId) (d : Dev) : Dev :=
  match Tbl.find d.sec.fkeyLog i with
  | some t => if d.now < t + 1000000 then d else note d
  | none => note d
where
  /-- Write the record and remember its time. -/
  note (d : Dev) : Dev :=
    ({ d with sec := { d.sec with fkeyLog := Tbl.put i d.now d.sec.fkeyLog } }).secLog event 1
      { type := 0, sev := 1, block := 0, part := part, node := some node, detail := [(41, 2, i)] }

/-- The checks of R505 on a protected payload: the plain payload and the entry, or none. -/
def openEnc (header body : List Byte) (src : NodeId) (tree : Option (BitVec 10)) (d : Dev) : Option (List Byte × BitVec 13) × Dev :=
  let i := bits (leAt body 0 2) 12 0
  let seq := leAt body 2 6
  match d.fkey i with
  | none => (none, d.fkeyEvent i 3 none src)
  | some k =>
    if k.peer ≠ src ∨ (k.tree.isSome ∧ k.tree ≠ tree) then (none, d.fkeyEvent i 3 (some k.part) src)
    else if seq + 1024 ≤ k.top ∨ k.seen.contains seq then (none, (d.bump Reg.sec 0x048 1).fkeyEvent i 2 (some k.part) src)
    else
      match Config.gcmOpen k.rxKey (gcmNonce k.rxSalt seq) (header ++ body.take 8) (body.drop 8) with
      | none => (none, ((d.bump Reg.sec 0x040 1).cause Reg.sec 3).fkeyEvent i 1 (some k.part) src)
      | some plain =>
        let top := max k.top seq
        let k := { k with top := top, seen := (seq :: k.seen).filter fun s => decide (top < s + 1024) }
        (some (plain, BitVec.ofNat 13 i), { d with sec := { d.sec with fkeys := Tbl.put i k d.sec.fkeys } })

end Dev

/-! ### Meters (R472 to R475, R480) -/

/-- A meter at cold reset (R480). -/
def meterReset : Meter :=
  { cir := 0, pir := 0, overhead := 0, en := false, cbs := 0, pbs := 0, tc := 0, tp := 0, tcPart := 0, tpPart := 0, time := 0, red := 0 }

/-- The colours of R473. -/
inductive Colour where
  | green | yellow | red
deriving DecidableEq, Repr

/-- A bucket after a refill (R473): tokens in 2^-16 byte, the carried part in thousandths of that, the size in bytes, the rate in MB/s
and the elapsed ns. -/
def refillBucket (tokens part size rate dt : Nat) : Nat × Nat :=
  let x := tokens * 1000 + part + dt * rate * 65536
  if x / 1000 ≥ size * 65536 then (size * 65536, 0) else (x / 1000, x % 1000)

/-- Meter a packet of B bytes at a global count (R473). -/
def Meter.take (m : Meter) (b : Nat) (count : Word64) : Colour × Meter :=
  if !m.en then (.green, m)
  else
    let dt := count.toNat - m.time.toNat
    let (tp, tpPart) := refillBucket m.tp m.tpPart m.pbs.toNat m.pir.toNat dt
    let (tc, tcPart) := refillBucket m.tc m.tcPart m.cbs.toNat m.cir.toNat dt
    let m := { m with tp := tp, tpPart := tpPart, tc := tc, tcPart := tcPart, time := count }
    let n := b * 65536
    if tp < n then (.red, { m with red := satAdd m.red 1 })
    else if tc < n then (.yellow, { m with tp := tp - n })
    else (.green, { m with tp := tp - n, tc := tc - n })

/-- The hint of a POLICED notice (R474): the time until the peak bucket reaches B, in units of 100 ns, at least 1. -/
def Meter.hint (m : Meter) (b : Nat) : Nat :=
  let need := b * 65536 * 1000 - (m.tp * 1000 + m.tpPart)
  let rate := m.pir.toNat * 65536 * 100
  if rate = 0 then 65535 else min 65535 (max 1 (ceilDiv need rate))

namespace Dev

/-- The meter of a partition and class (R473). -/
def meter (d : Dev) (part cls : Nat) : Meter := Tbl.get meterReset d.fab.meters (part * 4 + cls)

/-- Store a meter. -/
def setMeter (part cls : Nat) (m : Meter) (d : Dev) : Dev :=
  { d with fab := { d.fab with meters := Tbl.set meterReset (part * 4 + cls) m d.fab.meters } }

/-- Meter a packet: its colour and the hint of a notice (R473, R482). -/
def shape (part : PartId) (cls hdr payload : Nat) (d : Dev) : Colour × Nat × Dev :=
  let m := d.meter part.toNat cls
  let b := hdr + payload + m.overhead.toNat
  let (c, m) := m.take b d.gtc.count
  let d := d.setMeter part.toNat cls m
  match c with
  | .green => (c, 0, d.bump Reg.shp 0x040 1)
  | .yellow => (c, 0, d.bump Reg.shp 0x048 1)
  | .red => (c, m.hint b, d.bump Reg.shp 0x050 1)

/-- Send a POLICED notice, at most one per microsecond for each slot of partition and source (R475). -/
def policedNotice (part : PartId) (cls hint : Nat) (src : NodeId) (tag : Tag) (d : Dev) : Dev :=
  let h : Half := if part.toNat % 2 = 0 then .west else .east
  let slot := (src.toNat ^^^ (src.toNat / 2 ^ 13) ^^^ (part.toNat * 2)) % 8192
  let old := match Tbl.find (d.fab.policed.at h) slot with
    | some t => decide (d.now < t + 1000)
    | none => false
  if old then d.bump Reg.shp 0x068 1
  else
    let d := { d with fab := { d.fab with policed := d.fab.policed.mod h (Tbl.put slot d.now) } }
    let word := Status.policed.code.toNat + hint % 65536 * 2 ^ 8 + part.toNat * 2 ^ 24 + cls % 4 * 2 ^ 36
    ((d.bump Reg.shp 0x060 1).send 7 (mkPkt d src 0x31 tag word)).2

/-! ### Device-issued transactions (R454 to R456) -/

/-- The deadline of a device-issued transaction in ns (R476). -/
def dto (d : Dev) : Nat := max 2 (min 64 (d.fld 0xB108 6 0)) * 1000

end Dev

/-- The packet of a device-issued transaction (R118, R120, R443, R444): PV is 1. -/
def devPacket (d : Dev) (t : DevTx) : Packet :=
  let word := requestWord t.offset.toNat t.retry.toNat t.riss t.part
  let p := match t.kind with
    | .read => mkPkt d t.node 0x01 t.tag word [] 1
    | .write x bad => { mkPkt d t.node 0x04 t.tag word (if bad then List.replicate 64 0 else lineBytes x) with poison := bad }
    | .merge x m => mkPkt d t.node 0x05 t.tag word (lineBytes x ++ leBytes 8 m.toNat)
    | .update aop wide o => mkPkt d t.node 0x06 t.tag word o (BitVec.ofNat 5 (aop.toNat + (if wide then 16 else 0)))
    | .doorbell b => mkPkt d t.node 0x30 t.tag word b
  { p with pv := true }

/-- The virtual channel of a device-issued transaction (R442). -/
def devVc (k : DevKind) : BitVec 3 := match k with | .doorbell _ => 7 | _ => 0

namespace Dev

/-- Store a device-issued transaction in place of the one with its node and TAG. -/
def setDevTx (t : DevTx) (d : Dev) : Dev :=
  let go (x : DevTx) : DevTx := if x.node = t.node ∧ x.tag = t.tag then t else x
  { d with fab := { d.fab with dev := d.fab.dev.map go } }

/-- A device-issued transaction ends: its TAG is not used toward the node for 160 µs (R456), and its access ends. -/
def endDevTx (t : DevTx) (st : Status) (data : List Byte) (d : Dev) : Dev :=
  let used := (d.fab.tagsUsed.filter fun x => decide (d.now < x.2.2)) ++ [(t.node, t.tag, d.now + 160000)]
  let keep := d.fab.dev.filter fun x => !(x.node == t.node && x.tag == t.tag)
  ({ d with fab := { d.fab with dev := keep, tagsUsed := used } }).endAcc t.acc st data

/-- Send an issue of a transaction with a fresh deadline. Without a route it completes FENCED at once (R450); without a live entry of a
confidential partition, KEY_ERROR (R499, R504). -/
def issueDevTx (t : DevTx) (d : Dev) : Dev :=
  let t := { t with due := d.now + d.dto, again := none }
  let d := d.setDevTx t
  let pkt := devPacket d t
  match (match t.sendAs with
      | none => some (pkt, d)
      | some i => d.sealPkt i.toNat pkt) with
  | none => d.endDevTx t .keyError []
  | some (pkt, d) =>
    let (ok, d) := d.send (devVc t.kind) pkt
    if ok then d else d.endDevTx t .fenced []

/-- Whether a TAG is free toward a node (R456). -/
def devTagFree (d : Dev) (node : NodeId) (tag : Tag) : Bool :=
  !(d.fab.dev.any fun x => x.node == node && x.tag == tag)
    && !(d.fab.tagsUsed.any fun x => x.1 == node && x.2.1 == tag && decide (d.now < x.2.2))

/-- The TAG that a new transaction takes: the next one below 0x8000, in turn, that is free (R456, R703; log 70). -/
def devTag (d : Dev) (node : NodeId) : Tag :=
  let tag (i : Nat) : Tag := BitVec.ofNat 16 ((d.fab.nextTag + i) % 0x8000)
  match (List.range (d.fab.dev.length + d.fab.tagsUsed.length + 1)).find? fun i => d.devTagFree node (tag i) with
  | some i => tag i
  | none => tag 0

/-- The half whose caches, walkers and transactions serve an engine (R98): that of its cluster, or of its queue. -/
def engHalf (d : Dev) (who : Engine) : Half :=
  match who with
  | .core p _ => halfOfCore p.val
  | .mover c _ => halfOfCore (16 * c.val)
  | .frontEnd q => match Tbl.find d.opq.queues q.toNat with | some x => x.half | none => .west

/-- Issue an engine access to another node as a device-issued transaction; it waits while 4,096 of its half are outstanding (R36). -/
def newDevTx (id : Nat) (node : NodeId) (off : Offset) (kind : DevKind) (d : Dev) : Dev :=
  match d.acc? id with
  | none => d
  | some a =>
    let key := d.peerKey a.part node
    if d.conf a.part ∧ key.isNone then d.endAcc id .keyError []
    else if (d.fab.dev.filter fun x => x.half == d.engHalf a.who).length ≥ 4096 then d.modAcc id fun a => { a with state := .stalled }
    else
      let tag := d.devTag node
      let t : DevTx :=
        { node := node, tag := tag, offset := off, part := a.part, acc := id, kind := kind, riss := false, retry := 0, due := 0, again := none,
          fwdAck := false, fwdData := none, sendAs := if d.conf a.part then key else none, half := d.engHalf a.who }
      let d := d.modAcc id fun a => { a with state := .remote }
      ({ d with fab := { d.fab with dev := d.fab.dev ++ [t], nextTag := tag.toNat + 1 } }).issueDevTx t

/-- The transaction that an answer names. -/
def devTx? (d : Dev) (node : NodeId) (tag : Tag) : Option DevTx := d.fab.dev.find? fun x => x.node == node && x.tag == tag

/-- RETRY of the attempt after a refusal: the one that follows 15 carries 8 (R121). -/
def nextRetry (r : BitVec 4) : BitVec 4 := if r = 15 then 8 else r + 1

/-- A refused transaction waits for its hint (R454): it is sent again as a new arrival, unless its operation is gone (R289). -/
def devAgain (t : DevTx) (nack : Bool) (hint : Nat) (d : Dev) : Dev :=
  let at_ := d.now + hint * 100
  let t := { t with again := some at_, riss := false, retry := if nack then nextRetry t.retry else t.retry, fwdAck := false, fwdData := none }
  if (d.acc? t.acc).isNone then (d.setDevTx t).forgetAgain t.acc
  else (d.setDevTx t).modAcc t.acc fun a => { a with state := .retry at_ }

/-- An answer to a device-issued transaction (R454). An answer that finds no open issue is discarded. -/
def devAnswer (node : NodeId) (tag : Tag) (ans : DevAnswer) (d : Dev) : Dev :=
  match d.devTx? node tag with
  | none => d
  | some t =>
    if t.again.isSome then d
    else
      match ans with
      | .policed hint => d.devAgain t false hint.toNat
      | .forwarded data retry =>
        if retry ≠ t.retry then d
        else if t.fwdAck then d.endDevTx t .ok data
        else d.setDevTx { t with fwdData := some data }
      | .home code data fwd retry hint =>
        if retry ≠ t.retry then d
        else
          match Status.ofCode code with
          | .nackRetry => d.devAgain t true hint.toNat
          | .tierFill => d.devAgain t false hint.toNat
          | .policed => d.devAgain t false hint.toNat
          | .ok =>
            if fwd then
              (match t.fwdData with
               | some x => d.endDevTx t .ok x
               | none => d.setDevTx { t with fwdAck := true })
            else d.endDevTx t .ok data
          | st => d.endDevTx t st []

/-- A peer's answer arrives with its status code: a reserved code is logged (R22). -/
def devAnswerFrom (via : Via) (node : NodeId) (tag : Tag) (ans : DevAnswer) (d : Dev) : Dev :=
  match ans with
  | .home code _ _ _ _ => (if code.toNat > 0x11 then d.logMalformed via none 6 0x20 1 (some node) .malformed else d).devAnswer node tag ans
  | _ => d.devAnswer node tag ans

/-- The deadline of a transaction passes (R454): one reissue with RISS, then TIMEOUT. -/
def dtoExpiry (node : NodeId) (tag : Tag) (d : Dev) : Dev :=
  match d.devTx? node tag with
  | none => d
  | some t =>
    if t.again.isSome ∨ d.now < t.due then d
    else if t.riss then (d.bump Reg.rte 0x060 1).endDevTx t .timeout []
    else (d.bump Reg.rte 0x058 1).issueDevTx { t with riss := true }

/-! ### Batten circuits (R460 to R467) -/

/-- The link frame rate of a port in Gb/s (R399). -/
def portRate (d : Dev) (p : Nat) : Nat :=
  let x := d.port p
  widthLanes x.width * 100 / (if x.half then 2 else 1)

/-- Whether a port can reserve a further rate (R463). -/
def rateFits (d : Dev) (p rate : Nat) : Bool :=
  let used := (d.fab.circuits.filter fun x => match x.2.outPort with | some q => q.val == p | none => false).foldl
    (fun a x => a + x.2.rate.toNat) 0
  decide ((used + rate) * 100 ≤ min 90 (d.fld 0xB108 18 12) * d.portRate p)

/-- The half in whose store an entry holds its frame buffers (R461): that of the out port, at the destination that of the in port. -/
def cktStore (c : Circuit) : Option Half :=
  match c.role with
  | .source => none
  | .transit => c.outPort.map halfOfPort
  | .dest => c.inPort.map halfOfPort

/-- Whether a half's circuit store has room for further buffers (R460). -/
def bufsFit (d : Dev) (h : Half) (n : Nat) : Bool :=
  decide ((d.fab.circuits.filter fun x => cktStore x.2 == some h).foldl (fun a x => a + x.2.bufs.toNat) n ≤ 2048)

/-- A free circuit entry: the lowest label. -/
def freeCkt (d : Dev) : Option Nat := (List.range 1024).find? fun l => (Tbl.find d.fab.circuits l).isNone

/-- The payload of CKT_SETUP (R461). -/
def setupBytes (c : Circuit) : List Byte :=
  leBytes 2 c.srcNode.toNat ++ leBytes 2 c.dstNode.toNat ++ leBytes 2 c.srcCkt.toNat ++ leBytes 2 c.part.toNat ++ leBytes 2 c.rate.toNat
    ++ leBytes 1 c.bufs.toNat ++ List.replicate 5 0

/-- The commands of RTE (R68, R477): none as status means that the command completes later. -/
def rteCmd (f : Dev → Option Status × Dev) (d : Dev) : Dev :=
  if d.busy 0xB104 then d.illegal Reg.rte
  else
    let (st, d) := f (d.cmdBegin 0xB104)
    match st with
    | some st => d.cmdEnd Reg.rte 0xB104 1 st
    | none => d

/-- RTE.DATA0 to DATA7 as one number. -/
def rteData (d : Dev) : Nat := d.data 0xB120 8

/-- CKT_OPEN (R461, R477). -/
def cktOpen (d : Dev) : Option Status × Dev :=
  let x := d.rteData
  let part := bits x 11 0
  let dst : NodeId := BitVec.ofNat 16 (bits x 31 16)
  let rate := bits x 41 32
  let bufs := bits x 54 48
  if rate = 0 ∨ rate > 800 ∨ bufs = 0 ∨ bufs > 64 then (some .malformed, d)
  else if (d.part? (BitVec.ofNat 12 part)).isNone ∨ dst = d.nodeId then (some .stateConflict, d)
  else
    match d.freeCkt with
    | none => (some .quota, d)
    | some l =>
      match d.routeFrom dst none with
      | none => (some .fenced, d)
      | some p =>
        if !d.rateFits p rate then (some .quota, d)
        else
          let c : Circuit := { cktFree with state := .setup, role := .source, outPort := some (portNo p), srcNode := d.nodeId, dstNode := dst,
                                            srcCkt := BitVec.ofNat 10 l, part := BitVec.ofNat 12 part, rate := BitVec.ofNat 10 rate,
                                            bufs := BitVec.ofNat 7 bufs, setupAt := d.now }
          let d := d.setCkt l c
          let d := { d with fab := { d.fab with openWait := some (BitVec.ofNat 10 l) } }
          (none, d.cktMsg p 0x43 (circuitWord 0 l 0 false 0) (setupBytes c))

/-- CKT_SETUP arrives (R461, R462): an entry is allocated and the setup passed on or confirmed, or it is rejected. -/
def cktSetup (p : Nat) (pkt : Packet) (d : Dev) : Dev :=
  let b := pkt.payload
  let prev := bits pkt.word.toNat 19 10
  let dst : NodeId := BitVec.ofNat 16 (leAt b 2 2)
  let bufs := leAt b 10 1
  let reject (st : Status) (d : Dev) : Dev := d.cktMsg p 0x45 (circuitWord prev 0 0 false st.code.toNat) []
  let c : Circuit := { cktFree with inPort := some (portNo p), prevLabel := BitVec.ofNat 10 prev, srcNode := BitVec.ofNat 16 (leAt b 0 2),
                                    dstNode := dst, srcCkt := BitVec.ofNat 10 (leAt b 4 2), part := BitVec.ofNat 12 (leAt b 6 2),
                                    rate := BitVec.ofNat 10 (leAt b 8 2), bufs := BitVec.ofNat 7 bufs, setupAt := d.now }
  match d.freeCkt with
  | none => reject .quota d
  | some l =>
    if dst = d.nodeId then
      if d.bufsFit (halfOfPort (portNo p)) bufs then
        (d.setCkt l { c with state := .opened, role := .dest }).cktMsg p 0x44 (circuitWord prev l 0 false 0) []
      else reject .quota d
    else
      match d.routeFrom dst (some p) with
      | none => reject .fenced d
      | some q =>
        if d.rateFits q (leAt b 8 2) && d.bufsFit (halfOfPort (portNo q)) bufs then
          let c := { c with state := .setup, role := .transit, outPort := some (portNo q) }
          (d.setCkt l c).cktMsg q 0x43 (circuitWord 0 l 0 false 0) (setupBytes c)
        else reject .quota d

/-- Whether a circuit message that comes from downstream names an entry that waits on its port. -/
def fromDown (c : Circuit) (p : Nat) : Bool := match c.outPort with | some q => q.val == p | none => false

/-- CKT_CONFIRM arrives (R461): the entry is OPEN, and the confirm is passed upstream. -/
def cktConfirm (p : Nat) (pkt : Packet) (d : Dev) : Dev :=
  let l := bits pkt.word.toNat 9 0
  let c := d.ckt l
  if c.state = .setup && fromDown c p then
    let c := { c with state := .opened, outLabel := BitVec.ofNat 10 (bits pkt.word.toNat 19 10) }
    let d := d.setCkt l c
    match c.role, c.inPort with
    | .transit, some q => d.cktMsg q.val 0x44 (circuitWord c.prevLabel.toNat l 0 false 0) []
    | .source, _ =>
      let d := { d with fab := { d.fab with openWait := none } }
      (d.setFld 0xB128 9 0 l).cmdEnd Reg.rte 0xB104 1 .ok
    | _, _ => d
  else d

/-- CKT_REJECT arrives (R462): the entry is released and the reject passed upstream; at the source CKT_OPEN completes. A reserved status is logged
and taken for MALFORMED (R21, R22). -/
def cktReject (p : Nat) (pkt : Packet) (d : Dev) : Dev :=
  let l := bits pkt.word.toNat 9 0
  let c := d.ckt l
  let got : BitVec 8 := BitVec.ofNat 8 (bits pkt.word.toNat 31 24)
  let code := (Status.ofCode got).code
  let d := if got.toNat > 0x11 then d.logMalformed (.port (portNo p)) none 6 0x45 6 (some pkt.src) .malformed else d
  if c.state = .setup && fromDown c p then
    let d := d.setCkt l cktFree
    match c.role, c.inPort with
    | .transit, some q => d.cktMsg q.val 0x45 (circuitWord c.prevLabel.toNat l 0 false code.toNat) []
    | .source, _ =>
      ({ d with fab := { d.fab with openWait := none } }).cmdEnd Reg.rte 0xB104 1 (Status.ofCode got)
    | _, _ => d
  else d

/-- The entry that CKT_TEAR names: going upstream it is the receiver's label; going downstream the port and the sender's label, and
otherwise the receiver's label (R466). -/
def tearEntry (d : Dev) (p : Nat) (w : Nat) : Option Nat :=
  let r := bits w 9 0
  let isIn (c : Circuit) : Bool := match c.inPort with | some q => q.val == p | none => false
  if bits w 23 23 = 1 then (if fromDown (d.ckt r) p then some r else none)
  else
    match d.fab.circuits.find? fun x => isIn x.2 && x.2.prevLabel.toNat == bits w 19 10 with
    | some x => some x.1
    | none => if isIn (d.ckt r) then some r else none

/-- CKT_TEAR arrives (R466): it is passed on in its direction, and the entry is released. -/
def cktTear (p : Nat) (pkt : Packet) (d : Dev) : Dev :=
  let w := pkt.word.toNat
  match d.tearEntry p w with
  | none => d
  | some l =>
    let c := d.ckt l
    let up := bits w 23 23 = 1
    let d := if c.role = .transit then d.sendTear l (bits w 22 20) up else d
    d.releaseCkt l (bits w 22 20)

/-- No answer to CKT_SETUP within 1 ms (R462). -/
def cktSetupTimeout (l : Nat) (d : Dev) : Dev :=
  let c := d.ckt l
  if c.state = .setup && c.role == .source && decide (c.setupAt + 1000000 ≤ d.now) then (d.sendTear l 3 false).releaseCkt l 3 else d

/-- Give a circuit frame to a port: it counts as within the reserved rate while the frames already sent have not used it up (R463). -/
def pushFrame (l : Nat) (bytes : List Byte) (d : Dev) : Dev :=
  let c := d.ckt l
  match c.outPort with
  | none => d
  | some p =>
    let start := max c.rateAt d.now
    let cost := ceilDiv (frameCountOf bytes * 2048) (min1 c.rate.toNat)
    (d.setCkt l { c with rateAt := start + cost }).pushItem p.val ⟨4, bytes, decide (c.rateAt ≤ d.now), none, 0⟩

/-- The bytes of a circuit frame (R447). -/
def cktBytes (f : CktFrame) : List Byte :=
  leBytes 8 (f.label.toNat + (if f.poison then 2 ^ 10 else 0) + (if f.enc then 2 ^ 11 else 0) + f.ftag.toNat * 2 ^ 12 + f.line.toNat * 2 ^ 22)
    ++ f.payload

/-- The circuit frame that bytes spell (R447). -/
def cktFrameOf (b : List Byte) : CktFrame :=
  let w := leAt b 0 8
  { label := BitVec.ofNat 10 w, poison := bits w 10 10 = 1, enc := bits w 11 11 = 1, ftag := BitVec.ofNat 10 (bits w 21 12),
    line := BitVec.ofNat 42 (bits w 63 22), payload := b.drop 8 }

/-- Send one frame at the source (R464); the frames of a confidential partition go under its entry for the destination (R499). -/
def cktEmit (l : Nat) (x : CktSent) (d : Dev) : Dev :=
  let c := d.ckt l
  let x := { x with due := d.now + d.dto, again := none }
  let put (c : Circuit) : Circuit := { c with sent := (c.sent.filter fun y => y.ftag != x.ftag) ++ [x] }
  let f : CktFrame := { label := c.outLabel, poison := x.poison, enc := false, ftag := x.ftag, line := x.line, payload := x.data }
  if d.conf c.part then
    match d.peerKey c.part c.dstNode with
    | none => d.endAcc x.acc .keyError []
    | some i =>
      let g := { f with enc := true }
      match d.protect i.toNat ((cktBytes { g with label := 0 }).take 8) x.data with
      | none => d.endAcc x.acc .keyError []
      | some (body, d) => (d.setCkt l (put (d.ckt l))).pushFrame l (cktBytes { g with payload := body })
  else (d.setCkt l (put c)).pushFrame l (cktBytes f)

/-- Send frames that wait while the window has room (R464). -/
def cktPump (l : Nat) (d : Dev) : Dev :=
  foldN (d.ckt l).waiting.length (fun _ d =>
    let c := d.ckt l
    match c.waiting with
    | [] => d
    | x :: t =>
      if c.sent.length < c.bufs.toNat ∧ !c.closing then
        let x := { x with ftag := c.nextFtag }
        (d.setCkt l { c with waiting := t, nextFtag := c.nextFtag + 1 }).cktEmit l x
      else d) d

/-- Give a full-line write of an engine access to a circuit (R329, R464). -/
def cktSend (l acc : Nat) (line : LineNo) (data : Line) (poison : Bool) (d : Dev) : Dev :=
  let bytes := if poison then leBytes 8 1 else lineBytes data
  let x : CktSent := ⟨0, acc, line, bytes, poison, 0, none⟩
  let c := d.ckt l
  ((d.setCkt l { c with waiting := c.waiting ++ [x] }).modAcc acc fun a => { a with state := .circuit }).cktPump l

/-- The source of a circuit that closes sends CKT_TEAR once nothing is left unanswered (R466). -/
def cktCloseStep (l : Nat) (d : Dev) : Dev :=
  let c := d.ckt l
  if c.closing ∧ c.sent.isEmpty then (d.sendTear l 1 false).releaseCkt l 1 else d

/-- CKT_CLOSE (R466, R477). -/
def cktClose (d : Dev) : Option Status × Dev :=
  let l := bits d.rteData 9 0
  let c := d.ckt l
  if c.state = .opened ∧ c.role = .source ∧ !c.closing then
    let d := (d.setCkt l { c with closing := true, command := true, waiting := [] }).reroute (c.waiting.map (·.acc))
    (none, d.cktCloseStep l)
  else (some .stateConflict, d)

/-- CKT_ACK arrives at the source (R465, R474). -/
def cktAck (pkt : Packet) (d : Dev) : Dev :=
  let w := pkt.word.toNat
  let l := bits w 27 18
  let ftag : BitVec 10 := BitVec.ofNat 10 (bits w 17 8)
  let c := d.ckt l
  if c.state = .opened ∧ c.role = .source ∧ c.dstNode = pkt.src then
    match c.sent.find? fun x => x.ftag == ftag with
    | none => d
    | some x =>
      if x.again.isSome then d
      else
        match Status.ofCode (BitVec.ofNat 8 w) with
        | .policed =>
          let again := some (d.now + max 1 (bits w 43 28) * 100)
          d.setCkt l { c with sent := c.sent.map fun y => if y.ftag = ftag then { y with again := again } else y }
        | st =>
          (((d.setCkt l { c with sent := c.sent.filter fun y => y.ftag != ftag }).endAcc x.acc st []).cktPump l).cktCloseStep l
  else d

/-- After POLICED the frame is sent again once its hint has passed (R474). -/
def cktResend (l : Nat) (ftag : BitVec 10) (d : Dev) : Dev :=
  match (d.ckt l).sent.find? fun x => x.ftag == ftag with
  | some x => match x.again with
    | some t => if t ≤ d.now then d.cktEmit l x else d
    | none => d
  | none => d

/-- A frame has no CKT_ACK within DTO (R466): the circuit is torn down with cause TIMEOUT; while it closes, the frame goes on as routed
packets and the close carries on. -/
def cktFrameTimeout (l : Nat) (ftag : BitVec 10) (d : Dev) : Dev :=
  let c := d.ckt l
  match c.sent.find? fun x => x.ftag == ftag with
  | some x =>
    if x.again.isSome ∨ d.now < x.due ∨ c.state ≠ .opened then d
    else if c.closing then
      ((d.setCkt l { c with sent := c.sent.filter fun y => y.ftag != ftag }).reroute [x.acc]).cktCloseStep l
    else (d.sendTear l 3 false).releaseCkt l 3
  | none => d

/-- CKT_ACK with a status and a hint, from the destination of a circuit (R465, R474, R505). -/
def sendCktAck (c : Circuit) (ftag : BitVec 10) (st : Status) (hint : Nat) (d : Dev) : Dev :=
  let word := st.code.toNat + ftag.toNat * 2 ^ 8 + c.srcCkt.toNat * 2 ^ 18 + hint % 65536 * 2 ^ 28
  (d.send 1 (mkPkt d c.srcNode 0x22 0 word)).2

/-- The lines that a circuit frame writes: none for a payload that is no whole number of lines or a line count out of range (R447). -/
def cktLines (f : CktFrame) (plain : List Byte) : Option (List (LineNo × Option Line)) :=
  let at_ (i : Nat) : LineNo := f.line + BitVec.ofNat 42 i
  if f.poison then
    let n := leAt plain 0 1
    if plain.length = 8 ∧ 1 ≤ n ∧ n ≤ 128 then some ((List.range n).map fun i => (at_ i, none)) else none
  else if plain.isEmpty ∨ plain.length % 64 ≠ 0 ∨ plain.length > 8192 then none
  else some ((List.range (plain.length / 64)).map fun i => (at_ i, some (lineOf (plain.drop (64 * i)))))

/-- A batten circuit frame arrives (R464, R465): relabelled and forwarded, or metered, opened and applied at the destination. -/
def cktFrame (p : Nat) (f : CktFrame) (d : Dev) : Dev :=
  let l := f.label.toNat
  let c := d.ckt l
  let drop := d.bump Reg.rte 0x088 1
  if c.state ≠ .opened ∨ c.inPort ≠ some (portNo p) then drop
  else
    match c.role with
    | .source => drop
    | .transit => d.pushFrame l (cktBytes { f with label := c.outLabel })
    | .dest =>
      let (colour, hint, d) := match d.extAt (f.line.toNat * 64) with
        | some (_, e) => d.shape e.part 2 8 f.payload.length
        | none => (Colour.green, 0, d)
      if colour = .red then d.sendCktAck c f.ftag .policed hint
      else
        let (opened, d) := if f.enc then
            (match d.openEnc ((cktBytes { f with label := 0 }).take 8) f.payload c.srcNode none with
             | (some (x, i), d) => (some (x, some i), d)
             | (none, d) => (none, d))
          else (some (f.payload, none), d)
        match opened with
        | none => (d.bump Reg.sec 0x050 1).sendCktAck c f.ftag .keyError 0
        | some (plain, key) =>
          match cktLines f plain with
          | none => d.bump Reg.rte 0x088 1
          | some ls =>
            (d.modCoh fun x => { x with posted := x.posted ++ [⟨c.srcNode, some c.part, key, ls, .ok, some (c.srcCkt, f.ftag)⟩] }).tryPosted

/-! ### Rafter trees (R468 to R471) -/

/-- A tree entry that is not in use. -/
def treeReset : Tree :=
  { root := 0, up := 0, local_ := false, valid := false, part := 0, down := 0, dropped := 0, report := 0, noticeAt := none, counter := 0 }

/-- A tree entry. -/
def tree (d : Dev) (n : Nat) : Tree := Tbl.get treeReset d.fab.trees n

/-- Store a tree entry. -/
def setTree (n : Nat) (t : Tree) (d : Dev) : Dev := { d with fab := { d.fab with trees := Tbl.set treeReset n t d.fab.trees } }

/-- Whether a branch is pruned (R470). -/
def pruned (d : Dev) (p : Nat) : Bool :=
  let x := d.port p
  let v := d.vc p 5
  !d.portUsable p
    || (x.peerKnown && bits (Tbl.get (0 : BitVec 16) d.fab.routes x.peerNode.toNat).toNat 11 11 == 1)
    || (v.credits == 0 && decide (v.dryAt + min1 (d.fld 0xB108 31 24) * 10000 ≤ d.now))

/-- The root of a tree learns how many copies were dropped (R471). -/
def unreached (n count : Nat) (d : Dev) : Dev :=
  let t := d.tree n
  (d.setTree n { t with counter := t.counter + count }).cause Reg.rte 3

/-- Copies of a tree were dropped at this node: they are counted, and the root is told at the first drop and then at most once per
100 µs (R470, R471). -/
def dropCopies (n k : Nat) (d : Dev) : Dev :=
  if k = 0 then d
  else
    let d := d.bump Reg.rte 0x078 k
    let t := d.tree n
    let t := { t with dropped := t.dropped + k, report := t.report + k }
    let due : Bool := match t.noticeAt with
      | none => true
      | some at_ => decide (at_ + 100000 ≤ d.now)
    if due then
      let ports := (List.range 24).filter fun p => t.down.getLsbD p && d.pruned p
      let payload := ports.flatMap fun p => leBytes 2 (if (d.port p).peerKnown then (d.port p).peerNode.toNat else 0xFFFF)
      let word := Status.unreached.code.toNat + min (2 ^ 32 - 1) t.report * 2 ^ 32
      let d := d.setTree n { t with report := 0, noticeAt := some d.now }
      if t.root = d.nodeId then d.unreached n t.report
      else d.sendCtl 7 (mkPkt d t.root 0x31 (BitVec.ofNat 16 n) word payload)
    else d.setTree n t

/-- Copy a tree packet to every branch that is not pruned (R469). -/
def copyDown (n : Nat) (bytes : List Byte) (d : Dev) : Dev :=
  let t := d.tree n
  let ports := (List.range 24).filter fun p => t.down.getLsbD p
  let cut := (ports.filter fun p => d.pruned p).length
  let d := (ports.filter fun p => !d.pruned p).foldl (fun d p => d.pushTx p 5 bytes) d
  d.dropCopies n cut

/-- A branch is pruned: its copies that wait are dropped (R470). -/
def branchPrune (n p : Nat) (d : Dev) : Dev :=
  let t := d.tree n
  if t.valid && t.down.getLsbD p && d.pruned p then
    let mine (x : TxItem) : Bool := x.vc == 5 && x.sent == 0 && leAt x.bytes 0 2 % 1024 == n
    let k := ((d.port p).txq.filter mine).length
    (d.modPort p fun x => { x with txq := x.txq.filter fun y => !mine y }).dropCopies n k
  else d

/-- Give a control message of a tree to its branches (R469, R540, R541): one CSN, and a filter for each port. -/
def copyCtl (n : Nat) (p : Packet) (d : Dev) : Dev :=
  let t := d.tree n
  ((List.range 24).foldl (fun d q => if t.down.getLsbD q && !d.pruned q then d.passCsn q else d) d.nextCsn).copyDown n (pktBytes p)

/-- Originate a control message of a tree on this node (R469, R539): UP is 31 and ROOT is this node. -/
def originate (n : Nat) (p : Packet) (d : Dev) : Dev :=
  let t := d.tree n
  if t.valid && t.root == d.nodeId && t.up == 31 then (if d.orders then d.copyCtl n p else d.holdCtl (.tree n p)) else d.bump Reg.rte 0x080 1

/-- The image of a tree entry (R468). -/
def treeImage (t : Tree) : Nat :=
  t.root.toNat + t.up.toNat * 2 ^ 16 + (if t.local_ then 2 ^ 21 else 0) + (if t.valid then 2 ^ 22 else 0) + t.part.toNat * 2 ^ 23
    + t.down.toNat * 2 ^ 64

/-- TREE_READ (R477). -/
def treeRead (d : Dev) : Option Status × Dev :=
  (some .ok, d.setData 0xB128 4 (treeImage (d.tree (bits d.rteData 9 0))))

/-- TREE_WRITE (R477): a reserved UP or a 1 in a reserved bit is a reserved value. -/
def treeWrite (d : Dev) : Option Status × Dev :=
  let n := bits d.rteData 9 0
  let x := bits d.rteData 191 64
  let up := bits x 20 16
  if (24 ≤ up ∧ up ≤ 30) ∨ bits x 63 35 ≠ 0 ∨ bits x 127 88 ≠ 0 then (some .malformed, d)
  else
    let t := d.tree n
    (some .ok, d.setTree n { t with root := BitVec.ofNat 16 x, up := BitVec.ofNat 5 up, local_ := bits x 21 21 = 1, valid := bits x 22 22 = 1,
                                    part := BitVec.ofNat 12 (bits x 34 23), down := BitVec.ofNat 24 (bits x 87 64) })

/-- RT_READ (R477). -/
def rtRead (d : Dev) : Option Status × Dev :=
  (some .ok, d.setFld 0xB124 15 0 (Tbl.get (0 : BitVec 16) d.fab.routes (bits d.rteData 15 0)).toNat)

/-- RT_WRITE (R477, R448). -/
def rtWrite (d : Dev) : Option Status × Dev :=
  let n := bits d.rteData 15 0
  let e := bits d.rteData 47 32
  let bad (p : Nat) : Bool := decide (24 ≤ p ∧ p ≤ 30)
  if bad (bits e 4 0) || bad (bits e 9 5) || bits e 15 12 != 0 then (some .malformed, d)
  else (some .ok, { d with fab := { d.fab with routes := Tbl.set 0 n (BitVec.ofNat 16 e) d.fab.routes } })

/-- CKT_READ (R477): the manual names what the image holds and not where. -/
def cktRead (d : Dev) : Option Status × Dev :=
  let c := d.ckt (bits d.rteData 9 0)
  let st := match c.state with | .free => 0 | .setup => 1 | .opened => 2
  let role := match c.role with | .source => 0 | .transit => 1 | .dest => 2
  let port (p : Option PortNo) : Nat := match p with | some q => q.val | none => 31
  (some .ok, d.setData 0xB128 4 (Config.cktImage [st, role, port c.inPort, c.prevLabel.toNat, port c.outPort, c.outLabel.toNat, c.srcNode.toNat,
    c.dstNode.toNat, c.srcCkt.toNat, c.part.toNat, c.rate.toNat, c.bufs.toNat]).toNat)

/-- The commands of SHP (R68, R479). -/
def shpCmd (f : Dev → Status × Dev) (d : Dev) : Dev :=
  if d.busy 0xC104 then d.illegal Reg.shp
  else
    let (st, d) := f (d.cmdBegin 0xC104)
    d.cmdEnd Reg.shp 0xC104 1 st

/-- The image of a meter (R480). -/
def meterImage (m : Meter) : Nat :=
  m.cir.toNat + m.pir.toNat * 2 ^ 24 + m.overhead.toNat * 2 ^ 48 + (if m.en then 2 ^ 56 else 0)
    + (m.cbs.toNat + m.pbs.toNat * 2 ^ 32) * 2 ^ 64 + (m.tc / 65536 + m.tp / 65536 * 2 ^ 32) * 2 ^ 128 + m.red.toNat * 2 ^ 192

/-- MTR_READ (R481). -/
def mtrRead (part : PartId) (cls : Nat) (d : Dev) : Status × Dev :=
  if (d.part? part).isNone then (.stateConflict, d) else (.ok, d.setData 0xC110 8 (meterImage (d.meter part.toNat cls)))

/-- MTR_WRITE (R481). -/
def mtrWrite (part : PartId) (cls : Nat) (d : Dev) : Status × Dev :=
  let x := d.data 0xC110 8
  let cir := bits x 23 0
  let pir := bits x 47 24
  let extra := bits x 55 48
  let cbs := bits x 95 64
  let pbs := bits x 127 96
  let least := (if cls = 2 then 8200 else 4112) + extra
  if pir < cir ∨ cbs < least ∨ pbs < least ∨ bits x 63 57 ≠ 0 then (.malformed, d)
  else
    (.ok, d.setMeter part.toNat cls
      { cir := BitVec.ofNat 24 cir, pir := BitVec.ofNat 24 pir, overhead := BitVec.ofNat 8 extra, en := bits x 56 56 = 1,
        cbs := BitVec.ofNat 32 cbs, pbs := BitVec.ofNat 32 pbs, tc := cbs * 65536, tp := pbs * 65536, tcPart := 0, tpPart := 0,
        time := d.gtc.count, red := 0 })

/-- A transit packet has waited longer than RTE.CFG.LIFE (R452). -/
def lifeExpiry (id : Nat) (d : Dev) : Dev :=
  let life := min1 (d.fld 0xB108 11 8) * 250
  let late (t : TxItem) : Bool := match t.transit with | some (i, since) => i == id && t.sent == 0 && decide (since + life < d.now) | none => false
  (List.range 24).foldl (fun d p =>
    if (d.port p).txq.any late then
      (d.modPort p fun x => { x with txq := x.txq.filter fun t => !late t }).bump Reg.rte 0x050 1
    else d) d

end Dev

/-! ### Meanings -/

/-- DEVICE_TRANSACTION_ANSWER (R454). -/
def execDeviceTransactionAnswer (via : Via) (n : NodeId) (t : Tag) (a : DevAnswer) (s : State) : Host.Outcome State Fault Refusal :=
  next (s.onDev (Dev.devAnswerFrom via n t a))
/-- DTO_EXPIRY (R454). -/
def execDtoExpiry (n : NodeId) (t : Tag) (s : State) : Host.Outcome State Fault Refusal := next (s.onDev (Dev.dtoExpiry n t))
/-- TRANSIT_LIFETIME_EXPIRY (R452). -/
def execTransitLifetimeExpiry (i : Nat) (s : State) : Host.Outcome State Fault Refusal := next (s.onDev (Dev.lifeExpiry i))
/-- BRANCH_PRUNE (R470). -/
def execBranchPrune (t : BitVec 10) (p : PortNo) (s : State) : Host.Outcome State Fault Refusal :=
  next (s.onDev (Dev.branchPrune t.toNat p.val))
/-- CKT_SETUP (R461). -/
def execCktSetup (p : PortNo) (k : Packet) (s : State) : Host.Outcome State Fault Refusal := next (s.onDev (Dev.cktSetup p.val k))
/-- CKT_CONFIRM (R461). -/
def execCktConfirm (p : PortNo) (k : Packet) (s : State) : Host.Outcome State Fault Refusal := next (s.onDev (Dev.cktConfirm p.val k))
/-- CKT_REJECT (R462). -/
def execCktReject (p : PortNo) (k : Packet) (s : State) : Host.Outcome State Fault Refusal := next (s.onDev (Dev.cktReject p.val k))
/-- CKT_TEAR (R466). -/
def execCktTear (p : PortNo) (k : Packet) (s : State) : Host.Outcome State Fault Refusal := next (s.onDev (Dev.cktTear p.val k))
/-- CKT_SETUP_TIMEOUT (R462). -/
def execCktSetupTimeout (l : BitVec 10) (s : State) : Host.Outcome State Fault Refusal := next (s.onDev (Dev.cktSetupTimeout l.toNat))
/-- BATTEN_CIRCUIT_FRAME (R464, R465). -/
def execBattenCircuitFrame (p : PortNo) (f : CktFrame) (s : State) : Host.Outcome State Fault Refusal :=
  next (s.onDev (Dev.cktFrame p.val f))
/-- CKT_ACK (R465). -/
def execCktAck (k : Packet) (s : State) : Host.Outcome State Fault Refusal := next (s.onDev (Dev.cktAck k))
/-- CIRCUIT_FRAME_TIMEOUT (R466). -/
def execCircuitFrameTimeout (l t : BitVec 10) (s : State) : Host.Outcome State Fault Refusal :=
  next (s.onDev (Dev.cktFrameTimeout l.toNat t))
/-- CIRCUIT_FRAME_RESEND (R474). -/
def execCircuitFrameResend (l t : BitVec 10) (s : State) : Host.Outcome State Fault Refusal := next (s.onDev (Dev.cktResend l.toNat t))
/-- RTE_NOP (R477). -/
def execRteNop (s : State) : Host.Outcome State Fault Refusal := next (s.onDev (Dev.rteCmd fun d => (some .ok, d)))
/-- RT_READ (R477). -/
def execRtRead (s : State) : Host.Outcome State Fault Refusal := next (s.onDev (Dev.rteCmd Dev.rtRead))
/-- RT_WRITE (R477). -/
def execRtWrite (s : State) : Host.Outcome State Fault Refusal := next (s.onDev (Dev.rteCmd Dev.rtWrite))
/-- TREE_READ (R477). -/
def execTreeRead (s : State) : Host.Outcome State Fault Refusal := next (s.onDev (Dev.rteCmd Dev.treeRead))
/-- TREE_WRITE (R477). -/
def execTreeWrite (s : State) : Host.Outcome State Fault Refusal := next (s.onDev (Dev.rteCmd Dev.treeWrite))
/-- CKT_OPEN (R461). -/
def execCktOpen (s : State) : Host.Outcome State Fault Refusal := next (s.onDev (Dev.rteCmd Dev.cktOpen))
/-- CKT_CLOSE (R466). -/
def execCktClose (s : State) : Host.Outcome State Fault Refusal := next (s.onDev (Dev.rteCmd Dev.cktClose))
/-- CKT_READ (R477). -/
def execCktRead (s : State) : Host.Outcome State Fault Refusal := next (s.onDev (Dev.rteCmd Dev.cktRead))
/-- SHP_NOP (R479). -/
def execShpNop (s : State) : Host.Outcome State Fault Refusal := next (s.onDev (Dev.shpCmd fun d => (.ok, d)))
/-- MTR_READ (R481). -/
def execMtrRead (p : PartId) (c : Fin 4) (s : State) : Host.Outcome State Fault Refusal := next (s.onDev (Dev.shpCmd (Dev.mtrRead p c.val)))
/-- MTR_WRITE (R481). -/
def execMtrWrite (p : PartId) (c : Fin 4) (s : State) : Host.Outcome State Fault Refusal := next (s.onDev (Dev.shpCmd (Dev.mtrWrite p c.val)))

end Sys2Proof.Machine
end

