-- ==== Sys2Proof/Machine/Gutter.lean ====
section
/-! DEFINITION. The gutter pages (R45, R46): doorbells (R270, R542 to R545) and the security mailbox (R496, R497); and the host requests
as they reach this node's homes. -/

namespace Sys2Proof.Machine

/-- The first pool offset of the gutter pages (R45). -/
def gutterBase : Nat := 0xFF0000000000

/-- Whether a pool offset lies in a gutter page (R45). -/
def inGutter (off : Nat) : Bool := decide (gutterBase ≤ off ∧ off < gutterBase + 2 ^ 24)

/-- The partition of a gutter page. -/
def gutterPart (off : Nat) : PartId := BitVec.ofNat 12 ((off - gutterBase) / 4096)

namespace Dev

/-- A queue that is not FREE. -/
def queue? (d : Dev) (q : QueueId) : Option Queue := Tbl.find d.opq.queues q.toNat

/-- Change the front end's record. -/
def modOpq (f : Opq → Opq) (d : Dev) : Dev := { d with opq := f d.opq }

/-- Change a queue. -/
def modQueue (q : QueueId) (f : Queue → Queue) (d : Dev) : Dev := d.modOpq fun o => { o with queues := Tbl.upd q.toNat f o.queues }

/-- A POLICY_EVENT record (R705). -/
def logPolicy (h : Half) (event source queue : Nat) (part : PartId) (node : Option NodeId) (st : Status) (d : Dev) : Dev :=
  d.log h { type := 0x18, sev := 1, block := blockOf (if event ≤ 3 then Reg.irq else Reg.opq), part := some part, node := node,
            status := st.code.toNat, detail := [(40, 1, event), (41, 2, source), (43, 2, queue)] }

/-- A doorbell at its queue (R270). -/
def ringQueue (b : Bell) (d : Dev) : Dev :=
  let ignored := d.bump Reg.opq 0x058 1
  match d.queue? b.queue with
  | none => ignored
  | some q =>
    if q.part ≠ b.part then ignored.logPolicy q.half 2 b.source.toNat b.queue.toNat b.part (some b.node) .ok
    else if q.state = .lost then ignored
    else
      let x := (b.tail - q.sqTail).toNat
      let n := (q.sqTail - q.sqHead).toNat
      if x = 0 ∨ n + x > 2 ^ q.sizeLog2 then ignored
      else
        (d.modOpq fun o => { o with lastUse := o.lastUse + 1 }).modQueue b.queue fun q => { q with sqTail := b.tail, usedAt := d.opq.lastUse + 1 }

/-- Whether a doorbell needs a context that is not on chip (R275): a queue of the partition that is not LOST. -/
def bellWaits (d : Dev) (b : Bell) : Bool :=
  match d.queue? b.queue with
  | some q => q.part == b.part && q.state != .lost && !q.onChip
  | none => false

/-- Handle one doorbell, and answer its write when it is the last (R545); one that needs a context waits for it (R275). -/
def takeBell (b : Bell) (d : Dev) : Dev :=
  let d := d.ringQueue b
  match b.hdr with
  | some h => d.reply h 0x20 (answerWord .ok false false false 0 false h.retry.toNat) []
  | none => d

/-- Carry on doorbells that wait, in arrival order, as far as their contexts are on chip. -/
def tryBells (d : Dev) : Dev :=
  foldN d.opq.bells.length (fun _ d =>
    match d.opq.bells with
    | [] => d
    | b :: t => if d.bellWaits b then d else (d.modOpq fun o => { o with bells := t }).takeBell b) d

/-- Handle the doorbells of an admitted write in byte order (R543, R545). -/
def ring (bells : List Bell) (d : Dev) : Dev :=
  let (_, d) := bells.foldl (fun (a : Bool × Dev) b =>
    let (held, d) := a
    if held || d.bellWaits b || (d.opq.bells.any fun x => x.queue == b.queue) then
      let d := d.modOpq fun o => { o with bells := o.bells ++ [b] }
      (true, if d.bellWaits b ∧ ¬ d.opq.loading.contains b.queue then d.modOpq fun o => { o with loading := o.loading ++ [b.queue] } else d)
    else (false, d.takeBell b)) (false, d)
  d

/-- Whether the host set of at least one ACTIVE extent of a partition admits a node (R544, R496). -/
def admitsNode (d : Dev) (p : PartId) (node : NodeId) (spart : Option PartId) : Bool :=
  d.coh.exts.any fun x => x.2.state == .active && x.2.part == p && slotsAdmit (d.slots x.2.hset.toNat) node spart

end Dev

/-- The doorbell values that a write carries, 8 bytes each; none when its form is not allowed (R543). -/
def doorbellBytes : DoorbellForm → Option (List (List Byte))
  | .packet b => if b.length = 8 then some [b] else none
  | .writePartial x m =>
    (List.range 8).foldl (fun a i =>
      let sel := bits m.toNat (8 * i + 7) (8 * i)
      a.bind fun l => if sel = 255 then some (l ++ [sub (lineBytes x) (8 * i) 8]) else if sel = 0 then some l else none) (some [])

namespace Dev

/-- Whether a partition holds a logical core that is mapped into a cluster (R597). -/
def partInCluster (d : Dev) (p : Part) (n : Nat) : Bool :=
  p.cores.any fun c => match Tbl.find d.lmap c.val with | some x => x / 16 == n | none => false

/-- An admitted doorbell is noted by the sampler of every cluster of the partition (R603). -/
def noteBell (part : PartId) (d : Dev) : Dev :=
  match d.part? part with
  | none => d
  | some p =>
    let go (x : Nat × Domain) : Nat × Domain := if x.1 < 36 ∧ d.partInCluster p x.1 then (x.1, { x.2 with bell := true }) else x
    { d with pwr := { d.pwr with doms := d.pwr.doms.map go } }

/-- Whether a doorbell write comes under a fabric key of a confidential partition (R506, R544). -/
def doorbellKeyed (part : PartId) (own : Bool) (h : ReqHdr) (d : Dev) : Bool :=
  !d.conf part || own && h.spart == part
    || (match h.fkey with
        | some k => (match d.fkey k.toNat with | some f => f.part == part | none => false)
        | none => false)

/-- A doorbell write arrives (R543, R544): admitted and handled, or refused whole. `own` marks a SIGNAL of this device, with its
partition (R337, R499). The status is none when the answer follows the handling. -/
def doorbellWrite (h : ReqHdr) (form : DoorbellForm) (own : Bool) (d : Dev) : Option Status × Dev :=
  let off := h.offset.toNat
  let refused := d.bump Reg.irq 0x048 1
  if ¬ inGutter off ∨ off % 4096 ≥ 2048 then (some .noAccess, refused)
  else
    match doorbellBytes form with
    | none => (some .noAccess, refused)
    | some l =>
      let part := gutterPart off
      let exists_ := (d.part? part).isSome
      let node := d.admitsNode part h.src (ReqHdr.spart? h)
      let keyed := d.doorbellKeyed part own h
      let badRes := l.find? fun b => leAt b 6 2 != 0
      if !exists_ || !node || !keyed || badRes.isSome then
        let pick := if exists_ && node && keyed then badRes else l.head?
        let (src, q) := match pick with | some b => (leAt b 4 2, leAt b 0 2) | none => (0, 0)
        (some .noAccess, refused.logPolicy (viaHalf h.via) (if exists_ && node && !keyed then 3 else 1) src q part (some h.src) .noAccess)
      else
        let d := (d.bump Reg.irq 0x040 l.length).noteBell part
        let mk (b : List Byte) (last : Bool) : Bell :=
          ⟨BitVec.ofNat 16 (leAt b 0 2), part, BitVec.ofNat 16 (leAt b 2 2), BitVec.ofNat 16 (leAt b 4 2), h.src, if last && !own then some h else none⟩
        if l.isEmpty then (some .ok, d)
        else (if own then some .ok else none, d.ring (l.zipIdx.map fun x => mk x.1 (x.2 + 1 == l.length)))

/-- The header of a request with the node that sent it: the companion's packets carry CMP.COMP_NODE (R635). -/
def sentBy (d : Dev) (h : ReqHdr) : ReqHdr := if h.via = .companion then { h with src := d.compNode } else h

/-- DOORBELL_WRITE as a request: answered at once unless its doorbells answer it. The companion's completes NO_ACCESS while no node ID
of the companion is set (R635); a dead host's is answered FENCED (R152). -/
def doorbellReq (h : ReqHdr) (form : DoorbellForm) (d : Dev) : Dev :=
  let unset := h.via == .companion && d.compNode == 0xFFFF
  let h := d.sentBy h
  if !unset ∧ d.isDead h.src then d.nack h .fenced 0 false
  else
    let (st, d) := if unset then (some .noAccess, d) else d.doorbellWrite h form false
    match st with
    | some st => d.reply h 0x20 (answerWord st false false false 0 false h.retry.toNat) []
    | none => d

/-! ### The security mailbox (R496, R497) -/

/-- A line of the mailbox as it reads. -/
def mailboxLine (m : Mailbox) (off : Nat) : Line :=
  if off = 0x800 then
    lineOf (leBytes 2 m.len.toNat ++ [0] ++ leBytes 1 m.state.toNat ++ leBytes 2 m.seq.toNat ++ leBytes 2 m.node.toNat ++ List.replicate 56 0)
  else lineOf ((List.range 64).map fun i => Tbl.get (0 : Byte) m.payload (off - 0x840 + i))

/-- Store bytes of the payload. -/
def putPayload (m : Mailbox) (at_ : Nat) (l : List Byte) : Mailbox :=
  { m with payload := (l.zipIdx).foldl (fun t x => Tbl.set 0 (at_ + x.2) x.1 t) m.payload }

/-- A write of a mailbox line (R497): a header with STATE 1 starts an exchange. False in BUSY. -/
def mailboxWrite (p : PartId) (node : NodeId) (off : Nat) (x : Line) (d : Dev) : Bool × Dev :=
  match d.part? p with
  | none => (true, d)
  | some q =>
    if q.mailbox.state = 2 then (false, d)
    else if off = 0x800 then
      let b := lineBytes x
      if leAt b 3 1 = 1 then
        (true, d.modPart p fun q => { q with mailbox := { q.mailbox with len := BitVec.ofNat 16 (leAt b 0 2), state := 2,
                                                                         seq := BitVec.ofNat 16 (leAt b 4 2), node := node } })
      else (true, d)
    else (true, d.modPart p fun q => { q with mailbox := putPayload q.mailbox (off - 0x840) (lineBytes x) })

/-- The device has processed a message: the response stands in PAYLOAD (R497). A type byte that is neither SPDM nor a secured message
gets the single byte 0xFF. -/
def mailboxResponse (p : PartId) (payload : List Byte) (d : Dev) : Dev :=
  match d.part? p with
  | none => d
  | some q =>
    if q.mailbox.state ≠ 2 then d
    else
      let ty : Byte := Tbl.get 0 q.mailbox.payload 0
      let r := if ty = 5 ∨ ty = 6 then payload.take 1984 else [0xFF]
      d.modPart p fun q => { q with mailbox := { putPayload q.mailbox 0 r with len := BitVec.ofNat 16 r.length, state := 3 } }

/-- A host request to a security mailbox (R496). A write that finds it BUSY is refused like any other request (R145, R497). -/
def mailboxReq (h : ReqHdr) (kind : ReqKind) (d : Dev) : Dev :=
  let off := h.offset.toNat
  let p := gutterPart off
  let ok := d.admitsNode p h.src (ReqHdr.spart? h)
  let line := off % 4096 / 64 * 64
  match kind, d.part? p with
  | .loadShared true, some q => if ok then d.ackData h (lineBytes (mailboxLine q.mailbox line)) else d.ackStatus h .noAccess
  | .writeInval x _, some _ =>
    if ok then
      let no : LineNo := BitVec.ofNat 42 (off / 64)
      if d.heldFor h no then d.refuse h d.now d.baseHint (viaHalf h.via)
      else
        let (done, d) := d.mailboxWrite p h.src line x
        if done then (d.ackStatus h .ok).endResv h.src h.tag no else d.refuse h d.now d.baseHint (viaHalf h.via)
    else d.ackStatus h .noAccess
  | _, _ => d.ackStatus h .noAccess

/-- Whether a request carries a reserved AOP (R122). -/
def badAop : ReqKind → Bool
  | .atomic aop _ _ => decide (aop.toNat ≥ 10)
  | _ => false

/-- A host request arrives at this node's homes, doorbells or mailboxes (R44 to R47, R635): the companion's request completes NO_ACCESS
while no node ID of the companion is set, a dead host's is answered FENCED (R152), and a reserved AOP MALFORMED (R122). -/
def hostRequest (h : ReqHdr) (kind : ReqKind) (d : Dev) : Dev :=
  let off := h.offset.toNat
  if h.via = .companion ∧ d.compNode = 0xFFFF then d.ackStatus h .noAccess
  else
    let h := d.sentBy h
    if d.isDead h.src then d.nack h .fenced 0 false
    else if badAop kind then
      (d.logMalformed h.via (some (d.lineHalf (off / 64))) 4 0x06 0 (some h.src) .malformed).nack h .malformed 0 false
    else if off < gutterBase then d.homeRequest h kind
    else if inGutter off then
      if off % 4096 ≥ 2048 then d.mailboxReq h kind
      else match kind with
        | .writePartial x m => d.doorbellReq h (.writePartial x m)
        | _ => (d.bump Reg.irq 0x048 1).ackStatus h .noAccess
    else d.ackStatus h .noAccess

end Dev

/-! ### Meanings -/

/-- LOAD_SHARED (R130). -/
def execLoadShared (h : ReqHdr) (nc : Bool) (s : State) : Host.Outcome State Fault Refusal :=
  next (s.onDev (Dev.hostRequest h (.loadShared nc)))
/-- LOAD_OWN (R130). -/
def execLoadOwn (h : ReqHdr) (s : State) : Host.Outcome State Fault Refusal := next (s.onDev (Dev.hostRequest h .loadOwn))
/-- STORE (R130). -/
def execStore (h : ReqHdr) (x : Line) (s : State) : Host.Outcome State Fault Refusal := next (s.onDev (Dev.hostRequest h (.store x)))
/-- WRITE_INVAL (R130). -/
def execWriteInval (h : ReqHdr) (x : Line) (bad : Bool) (s : State) : Host.Outcome State Fault Refusal :=
  next (s.onDev (Dev.hostRequest h (.writeInval x bad)))
/-- WRITE_PARTIAL (R139). -/
def execWritePartial (h : ReqHdr) (x : Line) (m : Word64) (s : State) : Host.Outcome State Fault Refusal :=
  next (s.onDev (Dev.hostRequest h (.writePartial x m)))
/-- ATOMIC (R123). -/
def execAtomic (h : ReqHdr) (aop : BitVec 4) (wide : Bool) (o : List Byte) (s : State) : Host.Outcome State Fault Refusal :=
  next (s.onDev (Dev.hostRequest h (.atomic aop wide o)))
/-- DOORBELL_WRITE (R544). -/
def execDoorbellWrite (h : ReqHdr) (f : DoorbellForm) (s : State) : Host.Outcome State Fault Refusal :=
  next (s.onDev (Dev.doorbellReq h f))
/-- MAILBOX_REQUEST (R497). -/
def execMailboxRequest (h : ReqHdr) (x : Line) (s : State) : Host.Outcome State Fault Refusal :=
  next (s.onDev (Dev.hostRequest h (.writeInval x false)))
/-- MAILBOX_RESPONSE (R497). -/
def execMailboxResponse (p : PartId) (b : List Byte) (s : State) : Host.Outcome State Fault Refusal :=
  next (s.onDev (Dev.mailboxResponse p b))

end Sys2Proof.Machine
end

