-- ==== Sys2Proof/Machine/Xlt.lean ====
section
/-! DEFINITION. Engine accesses and engine translation (R86 to R116, R701): the checks at a local home, the translation caches, walks,
stream prefetch, fault records and the fault ring, invalidation, and the commands of XLT. -/

namespace Sys2Proof.Machine

/-! ### Engine accesses at a local home (R60, R77, R118, R167 to R169) -/

/-- Whether an engine access writes (R52). -/
def engWrites : EngKind → Bool
  | .read => false
  | _ => true

/-- An engine access as a request to a home (R118). -/
def engReq : EngKind → ReqKind
  | .read => .loadShared true
  | .write x bad => .writeInval x bad
  | .merge x m => .writePartial x m
  | .update aop wide o => .atomic aop wide o

/-- The OPC of an engine access (R118). -/
def engOpc : EngKind → Nat
  | .read => 0x01 | .write _ _ => 0x04 | .merge _ _ => 0x05 | .update _ _ _ => 0x06

namespace Dev

/-- Checks 2 to 7 of R60 on an engine access of a partition. -/
def engChecks (d : Dev) (part : PartId) (off : Nat) (kind : EngKind) : Except Status (Nat × Ext) :=
  match d.extAt off with
  | none => .error .noAccess
  | some (i, e) =>
    if e.state = .init then .error .noAccess
    else if e.state ≠ .active then .error .revoked
    else if e.part ≠ part then .error .noAccess
    else if bits (d.perm e) 3 3 = 0 && !engWrites kind || bits (d.perm e) 4 4 = 0 && engWrites kind
        || engWrites kind && d.isRecordLine (off / 64) then .error .noAccess
    else if !(match d.part? (BitVec.ofNat 12 e.keySlot.toNat) with | some p => p.slotLive | none => false) then .error .keyError
    else .ok (i, e)

/-- Log a discarded engine write that failed check 3 or 6 (R63). -/
def engDiscard (part : PartId) (off : Nat) (kind : EngKind) (st : Status) (d : Dev) : Dev :=
  match d.extAt off with
  | none => d
  | some (_, e) =>
    let w : WriteBy := ⟨d.nodeId, part, engOpc kind, off / 64 * 64⟩
    if !engWrites kind then d
    else if e.state ≠ .active then d.logDiscard (homeHalf e off) Reg.coh 1 w st
    else if e.part = part && st = .noAccess then d.logDiscard (homeHalf e off) Reg.coh 2 w st
    else d

/-- An engine of a partition makes a request to a pool offset of this node (R44 to R47, R60, R61). A merge into a doorbell area is a doorbell
write of this node (R543); every other access to a gutter page or the reserved range completes NO_ACCESS. -/
def engRequest (b : EngBy) (part : PartId) (off : Nat) (kind : EngKind) (d : Dev) : Dev :=
  let o : Offset := BitVec.ofNat 48 off
  let h : ReqHdr := ⟨.companion, d.nodeId, 0, 0, false, false, part, none, o⟩
  if inGutter off ∧ off % 4096 < 2048 then
    match kind with
    | .merge x m =>
      let (st, d) := d.doorbellWrite { h with pv := true } (.writePartial x m) true
      d.engAnswer b o (st.getD .ok) []
    | _ => d.engAnswer b o .noAccess []
  else if off ≥ gutterBase then d.engAnswer b o .noAccess []
  else if !d.trackerRoom (d.lineHalf (off / 64)) then d.engRefuse b d.baseHint
  else match d.engChecks part off kind with
  | .error st => (d.engDiscard part off kind st).engAnswer b o st []
  | .ok (i, e) => d.admitReq i e { hdr := h, eng := some b, kind := engReq kind, ext := BitVec.ofNat 15 i, gen := e.gen, arrived := d.now }

/-- Take what a home has answered to a walk or to the front end. -/
def takeDone (b : EngBy) (d : Dev) : Option (Offset × Status × List Byte) × Dev :=
  ((d.coh.engDone.find? fun x => x.1 == b).map (·.2), d.modCoh fun c => { c with engDone := c.engDone.filter fun x => x.1 != b })

/-- A walk or the front end reads or writes at a home of this node: the answer, or none while the home holds the request or has refused it. An
answer to an earlier request for another line is dropped. -/
def engLocal (b : EngBy) (part : PartId) (off : Nat) (kind : EngKind) (d : Dev) : Option (Status × List Byte) × Dev :=
  match d.takeDone b with
  | (some (o, st, data), d) => if o = BitVec.ofNat 48 off then (some (st, data), d) else ask d
  | (none, d) => if d.coh.tx.any fun x => match x.2.req with | some r => r.eng == some b | none => false then (none, d) else ask d
where
  /-- Make the request, and take the answer when it comes at once. -/
  ask (d : Dev) : Option (Status × List Byte) × Dev :=
    match (d.engRequest b part off kind).takeDone b with
    | (some (_, st, data), d) => (some (st, data), d)
    | (none, d) => (none, d)

end Dev

/-! ### Table entries (R87 to R89) -/

/-- A page-table entry's V bit. -/
def pteV (e : Nat) : Bool := bits e 0 0 == 1
/-- A page-table entry's LEAF bit. -/
def pteLeaf (e : Nat) : Bool := bits e 1 1 == 1

/-- Whether an entry read at a level is bad (R88). -/
def pteBad (e lvl : Nat) : Bool :=
  if pteLeaf e then bits e 7 4 != 0 || bits e 15 12 != 0 || lvl == 4
  else bits e 7 2 != 0 || bits e 63 48 != 0 || lvl == 1

/-- Whether an entry read at a level is misaligned (R89). -/
def pteMisaligned (e lvl : Nat) : Bool :=
  if pteLeaf e then (lvl == 2 && bits e 20 16 != 0) || (lvl == 3 && bits e 29 16 != 0)
  else decide (lvl ≥ 3) && bits e 11 8 != 0

/-- Number of offset bits of a page at a level (R86). -/
def pageBits (lvl : Nat) : Nat := if lvl = 3 then 30 else if lvl = 2 then 21 else 16

/-- Number of address bits below the index of a level (R86). -/
def levelBits (lvl : Nat) : Nat := if lvl = 4 then 39 else pageBits lvl

/-- The index of a virtual address at a level (R86). -/
def levelIndex (va lvl : Nat) : Nat :=
  if lvl = 4 then bits va 56 39 else if lvl = 3 then bits va 38 30 else if lvl = 2 then bits va 29 21 else bits va 20 16

/-- The fabric address that a leaf gives (R91): node and pool offset. -/
def leafAddr (e lvl va : Nat) : NodeId × Offset :=
  let size := 2 ^ pageBits lvl
  (BitVec.ofNat 16 (bits e 63 48), BitVec.ofNat 48 (bits e 47 16 * 65536 / size * size + va % size))

/-- Whether a leaf permits an access (R87). -/
def leafPermits (e : Nat) (write : Bool) : Bool := if write then bits e 3 3 == 1 else bits e 2 2 == 1

/-- A translation context at cold reset (R92). -/
def ctxReset : XltCtx :=
  { enable := false, park := false, rootLog := 0, root := 0, fqLog := 0, fqEn := false, fqBase := 0, faultVec := 0, vecEn := false, fqIndex := 0,
    fqPhase := true }

namespace Dev

/-- Change the translation unit's record. -/
def modXlt (f : Xlt → Xlt) (d : Dev) : Dev := { d with xlt := f d.xlt }

/-- The translation context of a partition. -/
def ctx (d : Dev) (p : PartId) : XltCtx := match d.part? p with | some x => x.ctx | none => ctxReset

/-! ### Translation caches (R97, R98) -/

/-- The cached entry that serves an address: the leaf, or the deepest table pointer. -/
def cached (l : List TlbEnt) (part : PartId) (va : Nat) : Option TlbEnt :=
  let hit (lvl : Nat) (leaf : Bool) : Option TlbEnt :=
    l.find? fun x => x.part == part && x.level == lvl && x.index == va / 2 ^ levelBits lvl && pteLeaf x.entry.toNat == leaf
  match hit 1 true with
  | some x => some x
  | none => match hit 2 true with
    | some x => some x
    | none => match hit 3 true with
      | some x => some x
      | none => match hit 3 false with
        | some x => some x
        | none => hit 4 false

/-- Point every bit of the replacement tree on the way to a place away from it (R97). -/
def treeTouch (place : Nat) (t : Word64) : Word64 :=
  ((List.range 6).foldl (fun (a : Nat × Word64) i =>
    let right := place / 2 ^ (5 - i) % 2 = 1
    (2 * a.1 + (if right then 1 else 0), if right then a.2 &&& ~~~(1#64 <<< a.1) else a.2 ||| (1#64 <<< a.1))) (1, t)).2

/-- The place that the bits of the replacement tree lead to (R97). -/
def treeVictim (t : Word64) : Nat :=
  (List.range 6).foldl (fun n _ => 2 * n + (if t.getLsbD n then 1 else 0)) 1 - 64

/-- A core's micro-TLB. -/
def microOf (d : Dev) (core : Nat) : MicroTlb := Tbl.get ⟨[], 0⟩ d.xlt.micro core

/-- Put an entry into a micro-TLB (R97): in the lowest free of its 64 places, else in that of the pseudo-LRU victim. R97 names pseudo-LRU; that it
is a binary tree of bits is the model's choice. DESIGN CHOICE (log 72). -/
def microPut (x : TlbEnt) (m : MicroTlb) : MicroTlb :=
  let ents := m.ents.filter fun y => !(y.2.part == x.part && y.2.level == x.level && y.2.index == x.index)
  let p := ((List.range 64).find? fun i => (Tbl.find ents i).isNone).getD (treeVictim m.tree)
  ⟨Tbl.put p x ents, treeTouch p m.tree⟩

/-- A hit in a micro-TLB is its latest use (R97). -/
def microUse (core : Nat) (x : TlbEnt) (d : Dev) : Dev :=
  let m := d.microOf core
  match m.ents.find? fun y => y.2 == x with
  | some (p, _) => d.modXlt fun t => { t with micro := Tbl.set ⟨[], 0⟩ core { m with tree := treeTouch p m.tree } t.micro }
  | none => d

/-- Put an entry into a set of a number of places; a full one replaces an entry that the manual does not name. -/
def insertTlb (x : TlbEnt) (cap draw : Nat) (l : List TlbEnt) : List TlbEnt :=
  let l := l.filter fun y => !(y.part == x.part && y.level == x.level && y.index == x.index)
  if l.length < cap then l ++ [x] else l.eraseIdx (Config.xltVictim draw % cap) ++ [x]

/-- Fill a core's micro-TLB (R97, R98). -/
def fillMicro (core : Nat) (x : TlbEnt) (d : Dev) : Dev :=
  d.modXlt fun t => { t with micro := Tbl.set ⟨[], 0⟩ core (microPut x (d.microOf core)) t.micro }

/-- The set of a half's shared cache that an entry belongs to (R97). -/
def sharedSet (y : TlbEnt) : BitVec 10 := Config.xltSet y.part (y.index * 2 ^ levelBits y.level)

/-- The ways of a set of a half's shared cache in service (R97, R254). -/
def sharedWays (d : Dev) (h : Half) (set : BitVec 10) : Nat :=
  16 - min 8 ((d.ras.at h).waysOff.filter fun w => w.1 == 2 ^ 32 + set.toNat).length

/-- Fill the shared cache of a half (R97): the victim is in the entry's set. -/
def fillShared (h : Half) (x : TlbEnt) (d : Dev) : Dev :=
  let (n, d) := d.draw
  let l := d.xlt.shared.at h
  let own := l.filter fun y => sharedSet y == sharedSet x
  let rest := l.filter fun y => sharedSet y != sharedSet x
  d.modXlt fun t => { t with shared := t.shared.set h (rest ++ insertTlb x (d.sharedWays h (sharedSet x)) n own) }

/-- The operation that an engine works for. -/
def engOp (d : Dev) (who : Engine) : Option Nat :=
  match who with
  | .core _ op => some op
  | .mover _ op => some op
  | .frontEnd q => ((d.opq.ops.filter fun o => o.queue == q).map (·.id)).head?

/-- The tile of a LINEAR stream that holds an address (R101). -/
def tileOf (s : StreamSt) (va : Nat) : Option Nat :=
  let off : Int := (va : Int) - (s.base.toNat : Int)
  let i : Nat := if s.stride > 0 then (off / s.stride).toNat else if s.stride < 0 then ((-off + (-s.stride) - 1) / (-s.stride)).toNat else 0
  let start : Int := (s.base.toNat : Int) + (i : Int) * s.stride
  if i < s.count ∧ start ≤ (va : Int) ∧ (va : Int) < start + (2 ^ s.tileLog2 : Nat) then some i else none

/-- A shared-cache lookup by an engine of an operation starts the tile that holds its address (R102). -/
def startTile (who : Engine) (va : Nat) (d : Dev) : Dev :=
  match d.engOp who with
  | none => d
  | some id =>
    let go (s : StreamSt) : StreamSt :=
      let tile := if s.isList then (s.addrs.find? fun x => decide (x.2 ≤ va ∧ va < x.2 + 2 ^ s.tileLog2)).map (·.1) else tileOf s va
      match tile with
      | some i => { s with wanted := min s.count (max s.wanted (i + (if s.depth = 0 then 4 else s.depth) + 1)) }
      | none => s
    let onOp (o : Op) : Op := if o.id = id then { o with streams := o.streams.map go } else o
    d.modOpq fun o => { o with ops := o.ops.map onOp }

/-! ### Faults (R105 to R112) -/

/-- The outcome of a freed record in its log entry (R262). -/
def faultRec? (d : Dev) (r : Nat) : Option FaultRec := Tbl.find d.xlt.records r

/-- The accesses parked on a record. -/
def waiters (d : Dev) (r : Nat) : List EngAcc := d.xlt.accs.filter fun a => match a.state with | .parked x => x == r | _ => false

/-- A ring entry, or a FAULT_READ image (R110). -/
def faultImage (va : Nat) (rec_ : Option Nat) (part : PartId) (cause lvl : Nat) (write phase : Bool) (waiters : Nat) (count : Word64) : Nat :=
  va / 65536 * 65536 + (rec_.getD 0xFFFF) * 2 ^ 64 + part.toNat * 2 ^ 80 + cause % 256 * 2 ^ 96 + lvl % 256 * 2 ^ 104
    + (if write then 2 ^ 112 else 0) + ((if rec_.isSome then 1 else 0) + (if phase then 128 else 0)) * 2 ^ 120 + waiters % 65536 * 2 ^ 128
    + count.toNat * 2 ^ 192

/-- Give an access to its local home (R60): the home answers it, holds it, or has it try again. -/
def tryLocal (id : Nat) (off : Nat) (d : Dev) : Dev :=
  match d.acc? id with
  | none => d
  | some a => (d.modAcc id fun a => { a with state := .home }).engRequest (.acc id) a.part off a.kind

/-- A new engine access. -/
def newAcc (who : Engine) (part : PartId) (target : Target) (kind : EngKind) (circuit : Option (BitVec 10)) (near : Bool) (why : AccWhy) (d : Dev) :
    Nat × Dev :=
  let id := d.xlt.nextAcc
  let a : EngAcc := ⟨id, who, part, target, kind, circuit, near, why, d.now, .stalled⟩
  (id, d.modXlt fun t => { t with accs := t.accs ++ [a], nextAcc := id + 1 })

/-- Whether an access has to wait for an earlier one: the entries of a partition's fault ring are written in order (R110). -/
def ringWaits (d : Dev) (a : EngAcc) : Bool := a.why == .ring && d.xlt.accs.any fun x => x.why == .ring && x.part == a.part && decide (x.id < a.id)

/-- Write an entry of the partition's fault ring and send FAULT_VEC (R110, R111). An entry waits while an earlier one is being written. -/
def ringFault (part : PartId) (image : Bool → Nat) (d : Dev) : Dev :=
  let c := d.ctx part
  let d := if c.fqEn then
      let n := 2 ^ c.fqLog.toNat
      let off := c.fqBase.toNat * 4096 + c.fqIndex % n * 32
      let bytes := leBytes 32 (image c.fqPhase)
      let hi := off % 64 = 32
      let x := lineOf (if hi then List.replicate 32 0 ++ bytes else bytes ++ List.replicate 32 0)
      let m : Word64 := if hi then 0xFFFFFFFF00000000 else 0x00000000FFFFFFFF
      let d := d.modPart part fun p => { p with ctx := { p.ctx with fqIndex := (c.fqIndex + 1) % n,
                                                                    fqPhase := if c.fqIndex + 1 = n then !c.fqPhase else c.fqPhase } }
      let first := !(d.xlt.accs.any fun x => x.why == .ring && x.part == part)
      let (id, d) := d.newAcc (.frontEnd 0) part (.phys (BitVec.ofNat 48 off)) (.merge x m) none false .ring
      if first then d.tryLocal id off else d
    else d
  if c.vecEn then d.arriveVec c.faultVec.toNat else d

/-- A fault of a walk or of a cached leaf for the accesses that receive it (R106, R107, R110): parked on a record, or ended with
TRANSLATION_FAULT. The read of a stream's list ends without a fault, as its prefetch walks do (R103). -/
def fault (accs : List Nat) (part : PartId) (va cause lvl : Nat) (write : Bool) (d : Dev) : Dev :=
  let lists := accs.filter fun id => match d.acc? id with | some a => a.why == .list | none => false
  let accs := accs.filter fun id => !lists.contains id
  let d := lists.foldl (fun d id => d.endAcc id .translationFault []) d
  if accs.isEmpty ∧ !lists.isEmpty then d
  else
  let c := d.ctx part
  let n := accs.length
  let fail (d : Dev) : Dev := accs.foldl (fun d id => d.endAcc id .translationFault []) d
  let ring (rec_ : Option Nat) (cause lvl : Nat) (d : Dev) : Dev :=
    d.ringFault part fun ph => faultImage va rec_ part cause lvl write ph n d.gtc.count
  if c.park ∧ (cause = 1 ∨ cause = 2) then
    let first := if (bits va 16 16 + part.toNat) % 2 = 0 then 0 else 256
    let park (r : Nat) (d : Dev) : Dev := accs.foldl (fun d id => d.modAcc id fun a => { a with state := .parked r }) d
    match d.xlt.records.find? fun x => decide (first ≤ x.1 ∧ x.1 < first + 256) && x.2.part == part
        && bits x.2.va.toNat 56 16 == bits va 56 16 with
    | some (r, _) =>
      (park r d).modXlt fun t => { t with records := Tbl.upd r (fun x => { x with total := x.total + n }) t.records }
    | none =>
      match (List.range 256).find? fun i => (Tbl.find d.xlt.records (first + i)).isNone with
      | some i =>
        let r := first + i
        let x : FaultRec := ⟨part, BitVec.ofNat 64 va, cause, lvl, write, c.fqEn && c.fqPhase, n, d.now, d.gtc.count⟩
        ring (some r) cause lvl (park r (d.modXlt fun t => { t with records := Tbl.put r x t.records }))
      | none => fail (ring none 0x0A 0 d)
  else fail (ring none cause lvl d)

/-- The status that the waiters of a freed record were given (R108, R260): none on a resume, CANCELLED on a partition reset. -/
def outcomeStatus (outcome : Nat) : Nat :=
  if outcome = 1 then 0 else if outcome = 4 then Status.cancelled.code.toNat else Status.translationFault.code.toNat

/-- Free a fault record and log it with an outcome (R112, R260, R262). No chapter states the severity of this record; the model writes 1 for every
outcome. DESIGN CHOICE (log 72). -/
def freeRecord (r outcome : Nat) (d : Dev) : Dev :=
  match d.faultRec? r with
  | none => d
  | some x =>
    (d.modXlt fun t => { t with records := Tbl.drop r t.records }).log (if r < 256 then .west else .east)
      { type := 0x0B, sev := 1, block := blockOf Reg.xlt, part := some x.part, status := outcomeStatus outcome, addr := x.va.toNat,
        detail := [(40, 1, x.cause), (41, 1, x.level), (42, 1, if x.write then 1 else 0), (43, 1, outcome), (44, 4, x.total)] }

/-- FAULT_ABORT, or the hold limit (R108). -/
def abortRecord (r outcome : Nat) (d : Dev) : Dev :=
  ((d.waiters r).foldl (fun d a => d.endAcc a.id .translationFault []) d).freeRecord r outcome

/-! ### Issue of an access (R44, R98, R99, R104) -/

/-- The line or bytes of an access as a device-issued transaction. -/
def devKind : EngKind → DevKind
  | .read => .read
  | .write x bad => .write x bad
  | .merge x m => .merge x m
  | .update aop wide o => .update aop wide o

/-- A translated access leaves for its home: this node's, the companion's, which is refused (R635), a circuit (R329), or another
node's. A transaction that waits to be sent again goes on when the translation is the same, and otherwise ends (R114, R454). -/
def issueTo (id : Nat) (node : NodeId) (off : Offset) (d : Dev) : Dev :=
  match d.acc? id with
  | none => d
  | some a =>
    let (old, d) := match d.fab.dev.find? fun t => t.acc == id with
      | none => (none, d)
      | some t =>
        if t.node = node ∧ t.offset = off then (some t, d) else (none, d.forgetAgain id)
    match old with
    | some t => (d.modAcc id fun a => { a with state := .remote }).issueDevTx t
    | none =>
      if a.near ∧ node ≠ d.nodeId then d.endAcc id .noAccess []
      else if a.why = .probe then d.endAcc id .ok (leBytes 2 node.toNat ++ leBytes 6 off.toNat)
      else
        let ckt := match a.circuit with
          | some l =>
            let c := d.ckt l.toNat
            if c.state == CktState.opened && c.role == CktRole.source && c.part == a.part && !c.closing then some (l.toNat, c.dstNode) else none
          | none => none
        match ckt with
        | some (l, dst) =>
          if dst ≠ node then d.endAcc id .stateConflict []
          else
            (match a.kind with
             | .write x bad => d.cktSend l id (BitVec.ofNat 42 (off.toNat / 64)) x bad
             | k => d.newDevTx id node off (devKind k))
        | none =>
          if node = d.nodeId then d.tryLocal id off.toNat
          else if node = d.compNode then d.endAcc id .noAccess []
          else d.newDevTx id node off (devKind a.kind)

/-- Use a leaf for an access: it is issued, or faults on its permission (R105). -/
def useLeaf (id : Nat) (x : TlbEnt) (d : Dev) : Dev :=
  match d.acc? id with
  | none => d
  | some a =>
    match a.target with
    | .phys off => d.tryLocal id off.toNat
    | .va v =>
      if leafPermits x.entry.toNat (engWrites a.kind) then
        let (node, off) := leafAddr x.entry.toNat x.level v.toNat
        d.issueTo id node off
      else d.fault [id] a.part v.toNat 2 x.level (engWrites a.kind)

/-- The place at which a walk starts (R98): the deepest cached pointer, or the root. -/
def walkStart (d : Dev) (h : Half) (part : PartId) (va : Nat) (fromRoot : Bool) : Nat × Nat :=
  match (if fromRoot then none else cached (d.xlt.shared.at h) part va) with
  | some x => if pteLeaf x.entry.toNat then (4, (d.ctx part).root.toNat * 4096) else (x.level - 1, bits x.entry.toNat 47 8 * 256)
  | none => (4, (d.ctx part).root.toNat * 4096)

/-- Whether an address cannot be walked under the context (R91, R105): the cause. -/
def walkRefused (d : Dev) (part : PartId) (va : Nat) : Option Nat :=
  let c := d.ctx part
  if !c.enable then some 9 else if va ≥ 2 ^ 57 ∨ bits va 56 39 ≥ 2 ^ c.rootLog.toNat then some 8 else none

/-- An access that missed the caches joins or starts a walk, or stalls on a full walk queue (R99). Whether a request that joins a queued walk takes a
place of the queue R99 does not say; here the 256 places count the queued demand walks, not the requests joined on them. DESIGN CHOICE
(log 72). -/
def missWalk (id : Nat) (h : Half) (part : PartId) (va : Nat) (write : Bool) (d : Dev) : Dev :=
  let joinTo (w : Nat) (d : Dev) : Dev := d.modAcc id fun a => { a with state := .walking w }
  match d.xlt.walks.find? fun w => w.half == h && w.part == part && w.va.toNat / 65536 == va / 65536 with
  | some w =>
    let go (x : Walk) : Walk := if x.id = w.id then (if x.stream.isSome then { x with stream := none, write := write } else x) else x
    joinTo w.id (d.modXlt fun t => { t with walks := t.walks.map go })
  | none =>
    if (d.xlt.walks.filter fun w => w.half == h && !w.running && w.stream.isNone).length ≥ 256 then
      d.modAcc id fun a => { a with state := .stalled }
    else
      let w : Walk := { id := d.xlt.nextWalk, half := h, part := part, va := BitVec.ofNat 64 va, write := write, stream := none, running := false,
                        since := 0, level := 4, table := 0, found := [], restart := false }
      joinTo w.id (d.modXlt fun t => { t with walks := t.walks ++ [w], nextWalk := w.id + 1 })

/-- Look up the translation of an access and issue it, start a walk, or fault (R98, R105). -/
def startAcc (id : Nat) (d : Dev) : Dev :=
  match d.acc? id with
  | none => d
  | some a =>
    match a.target with
    | .phys off => d.tryLocal id off.toNat
    | .va v =>
      let va := v.toNat
      let write := engWrites a.kind
      let h := d.engHalf a.who
      let micro : Option TlbEnt := match a.who with
        | .core p _ => cached ((d.microOf p.val).ents.map (·.2)) a.part va
        | _ => none
      match micro with
      | some x => (match a.who with | .core p _ => d.microUse p.val x | _ => d).useLeaf id x
      | none =>
        let d := if a.why = .list then d else d.startTile a.who va
        match d.walkRefused a.part va with
        | some cause => d.fault [id] a.part va cause 0 write
        | none =>
          match cached (d.xlt.shared.at h) a.part va with
          | some x =>
            if pteLeaf x.entry.toNat then
              let d := match a.who with | .core p _ => d.fillMicro p.val x | _ => d
              d.useLeaf id x
            else d.missWalk id h a.part va write
          | none => d.missWalk id h a.part va write

/-- Whether an engine issues only in the slots of quiet mode (R513). -/
def inQuiet (d : Dev) (who : Engine) (part : PartId) : Bool :=
  match who, d.part? part with
  | .core _ _, some p => p.quiet.on
  | _, _ => false

/-- Whether an engine is parked on a fault record: it issues nothing further for the operation that faulted (R108). -/
def parkedEngine (d : Dev) (who : Engine) : Bool :=
  d.xlt.accs.any fun a => a.who == who && (match a.state with | .parked _ => true | _ => false)

/-- Issue an engine access: at once, or in the next slot of a quiet core (R513). -/
def issueAcc (who : Engine) (part : PartId) (target : Target) (kind : EngKind) (circuit : Option (BitVec 10)) (near : Bool)
    (why : AccWhy) (d : Dev) : Nat × Dev :=
  let (id, d) := d.newAcc who part target kind circuit near why
  if d.inQuiet who part then (id, d.modAcc id fun a => { a with state := .slot }) else (id, d.startAcc id)

/-- An engine access that waits tries again when its time has come (R99, R108, R114, R169); an entry of a fault ring only after the earlier ones
(R110). -/
def engineRetry (id : Nat) (d : Dev) : Dev :=
  match d.acc? id with
  | none => d
  | some a =>
    let ready : Bool := match a.state with
      | .stalled => true
      | .retry t => decide (t ≤ d.now)
      | _ => false
    if !ready ∨ d.ringWaits a then d
    else
      let d := d.modXlt fun t => { t with inval := t.inval.map fun x => { x with accs := x.accs.filter fun i => i != id } }
      match d.fab.dev.find? fun t => t.acc == id with
      | some t =>
        (match t.kind with
         | .doorbell _ => (d.modAcc id fun a => { a with state := .remote }).issueDevTx t
         | _ => d.startAcc id)
      | none => d.startAcc id

/-! ### Walks (R91, R99, R100, R102, R103) -/

/-- Change a walk. -/
def modWalk (id : Nat) (f : Walk → Walk) (d : Dev) : Dev :=
  d.modXlt fun t => { t with walks := t.walks.map fun w => if w.id = id then f w else w }

/-- Forget a walk, and what a home has answered it. -/
def dropWalk (id : Nat) (d : Dev) : Dev :=
  (d.modXlt fun t => { t with walks := t.walks.filter fun w => w.id != id }).modCoh fun c =>
    { c with engDone := c.engDone.filter fun x => x.1 != .walk id }

/-- The accesses joined on a walk. -/
def joined (d : Dev) (id : Nat) : List EngAcc := d.xlt.accs.filter fun a => match a.state with | .walking w => w == id | _ => false

/-- A walk ends in a fault: its requesters receive it; a prefetch walk is dropped (R103). -/
def walkFault (w : Walk) (cause lvl : Nat) (d : Dev) : Dev :=
  let l := d.joined w.id
  let d := d.dropWalk w.id
  if w.stream.isSome ∨ l.isEmpty then d
  else d.fault (l.map (·.id)) w.part w.va.toNat cause lvl (match l.head? with | some a => engWrites a.kind | none => w.write)

/-- Begin or begin again at a place of the table. -/
def beginWalk (w : Walk) (fromRoot : Bool) (d : Dev) : Dev :=
  match d.walkRefused w.part w.va.toNat with
  | some cause => d.walkFault w cause 0
  | none =>
    let (lvl, table) := d.walkStart w.half w.part w.va.toNat fromRoot
    d.modWalk w.id fun w => { w with running := true, since := d.now, level := lvl, table := table, found := [], restart := false }

/-- Number of walkers of a half that work. -/
def busyWalkers (d : Dev) (h : Half) : Nat := (d.xlt.walks.filter fun w => w.half == h && w.running).length

/-- PAGE_TABLE_WALK: a walker starts the oldest demand walk that waits (R99). -/
def pageTableWalk (h : Half) (d : Dev) : Dev :=
  match d.xlt.walks.find? fun w => w.half == h && !w.running && w.stream.isNone with
  | none => d
  | some w => if d.busyWalkers h < 16 then d.beginWalk w false else d

/-- A walk has found its leaf: the shared cache is filled with it and with the pointers read at levels 4 and 3, and the accesses that joined it go on (R98). Those that the leaf does not permit
receive one fault. -/
def walkLeaf (w : Walk) (e : Word64) (d : Dev) : Dev :=
  let l := d.joined w.id
  let x : TlbEnt := ⟨w.part, w.level, w.va.toNat / 2 ^ levelBits w.level, e⟩
  let d := (w.found.foldl (fun d p => d.fillShared w.half p) (d.dropWalk w.id)).fillShared w.half x
  let good := l.filter fun a => leafPermits e.toNat (engWrites a.kind)
  let bad := l.filter fun a => !leafPermits e.toNat (engWrites a.kind)
  let d := good.foldl (fun d a =>
    let d := match a.who with | .core p _ => d.fillMicro p.val x | _ => d
    d.useLeaf a.id x) d
  if bad.isEmpty then d
  else d.fault (bad.map (·.id)) w.part w.va.toNat 2 w.level (match bad.head? with | some a => engWrites a.kind | none => false)

/-- A table line read returns (R91): the walk descends, faults or ends; one that an invalidation has marked restarts instead of
ending. -/
def walkTableRead (id : Nat) (d : Dev) : Dev :=
  match d.xlt.walks.find? fun w => w.id == id with
  | none => d
  | some w =>
    if !w.running then d
    else
      let va := w.va.toNat
      let off := w.table + 8 * levelIndex va w.level
      let ends (d : Dev) (f : Dev → Dev) : Dev := if w.restart then d.beginWalk w true else f d
      let tiered : Bool := match d.extAt off with | some (_, e) => e.tiered && e.state == .active && e.part == w.part | none => false
      if tiered then ends d (walkFault w 5 w.level)
      else
        match d.engLocal (.walk id) w.part off .read with
        | (none, d) => d
        | (some (st, data), d) =>
          if st = .poisoned ∨ st = .uncorrectable then ends d (walkFault w 6 w.level)
          else if st ≠ .ok then ends d (walkFault w 5 w.level)
          else
            let e := leAt data (off % 64) 8
            if pteBad e w.level then ends d (walkFault w 3 w.level)
            else if !pteV e then ends d (walkFault w 1 w.level)
            else if pteMisaligned e w.level then ends d (walkFault w 4 w.level)
            else if pteLeaf e then ends d (walkLeaf w (BitVec.ofNat 64 e))
            else
              let x : TlbEnt := ⟨w.part, w.level, va / 2 ^ levelBits w.level, BitVec.ofNat 64 e⟩
              d.modWalk id fun w => { w with level := w.level - 1, table := bits e 47 8 * 256, found := if w.level ≥ 3 then w.found ++ [x] else w.found }

/-- A walk exceeds 20 µs, a duration that steps and freezes of the count do not touch (R100, R372): its requesters receive WALK_TIMEOUT and are not parked. -/
def walkTimeout (id : Nat) (d : Dev) : Dev :=
  match d.xlt.walks.find? fun w => w.id == id with
  | none => d
  | some w =>
    if w.running ∧ w.since + 20000 < d.now then
      if w.restart then d.beginWalk w true else d.walkFault w 7 w.level
    else d

/-- Change a stream of an operation. -/
def modStream (op i : Nat) (f : StreamSt → StreamSt) (d : Dev) : Dev :=
  let onOp (o : Op) : Op := if o.id = op then { o with streams := o.streams.modify i f } else o
  d.modOpq fun o => { o with ops := o.ops.map onOp }

/-- Read the entry of a LIST stream that names a tile, as an engine read of the partition for a half, translated on demand (R101, R102); an entry
that cannot be read names no tile, and the unit goes on to the next. -/
def listRead (op i : Nat) (h : Half) (part : PartId) (s : StreamSt) (tile : Nat) (d : Dev) : Dev :=
  let skip (d : Dev) : Dev := d.modStream op i fun s => { s with tile := s.tile.set h (tile + 1), page := s.page.set h (0, 0, false), reader := s.reader.set h none }
  match s.reader.at h with
  | none =>
    let va := s.base.toNat + 8 * tile
    let (id, d) := d.newAcc (.mover (match h with | .west => 0 | .east => 18) op) part (.va (BitVec.ofNat 64 va)) .read none false .list
    (d.modStream op i fun s => { s with reader := s.reader.set h (some id) }).startAcc id
  | some id =>
    match d.acc? id with
    | none => skip d
    | some a =>
      match a.state with
      | .ended .ok data =>
        let at_ := (s.base.toNat + 8 * tile) % 64
        (d.dropAcc id).modStream op i fun s => { s with addrs := Tbl.put tile (leAt data at_ 8) s.addrs, reader := s.reader.set h none }
      | .ended _ _ => skip (d.dropAcc id)
      | _ => d

/-- Start a prefetch walk of a page. -/
def startPrefetch (op i : Nat) (h : Half) (part : PartId) (va : Nat) (d : Dev) : Dev :=
  let w : Walk := { id := d.xlt.nextWalk, half := h, part := part, va := BitVec.ofNat 64 va, write := false, stream := some (op, i),
                    running := true, since := d.now, level := 4, table := 0, found := [], restart := false }
  match d.walkRefused part va with
  | some _ => d
  | none =>
    let (lvl, table) := d.walkStart h part va false
    d.modXlt fun t => { t with walks := t.walks ++ [{ w with level := lvl, table := table }], nextWalk := w.id + 1 }

/-- PREFETCH_WALK (R99, R102): the next page of the next tile that may be walked ahead, while at least 4 walkers are idle, no demand
walk waits, and the half holds cores of the operation. -/
def prefetchWalk (op i : Nat) (h : Half) (d : Dev) : Dev :=
  match d.opq.ops.find? fun o => o.id == op with
  | none => d
  | some o =>
    match o.streams[i]? with
    | none => d
    | some s =>
      let tile := s.tile.at h
      let here := o.cores.any fun c => match Tbl.find d.lmap c.val with | some p => halfOfCore p == h | none => false
      let waits := d.xlt.walks.any fun w => w.half == h && !w.running && w.stream.isNone
      if o.state ≠ .running ∨ !here ∨ waits ∨ d.busyWalkers h > 12 ∨ tile ≥ min s.wanted s.count then d
      else
        match (if s.isList then Tbl.find s.addrs tile else some (((s.base.toNat : Int) + (tile : Int) * s.stride).toNat)) with
        | none => d.listRead op i h o.part s tile
        | some a =>
          let (n, at_, tried) := s.page.at h
          let va := if n = 0 ∧ !tried then a / 65536 * 65536 else at_
          let next (va : Nat) (d : Dev) : Dev := d.modStream op i fun s => { s with page := s.page.set h (n + 1, va, false) }
          if va ≥ a + 2 ^ s.tileLog2 ∨ n ≥ 64 then
            d.modStream op i fun s => { s with tile := s.tile.set h (tile + 1), page := s.page.set h (0, 0, false) }
          else match (cached (d.xlt.shared.at h) o.part va).filter fun x => pteLeaf x.entry.toNat with
            -- the page is known: the next one begins where it ends
            | some x => next ((va / 2 ^ pageBits x.level + 1) * 2 ^ pageBits x.level) d
            | none =>
              if d.xlt.walks.any fun w => w.half == h && w.part == o.part && w.va.toNat / 65536 == va / 65536 then d
              else if tried then next (va + 65536) d
              else (d.modStream op i fun s => { s with page := s.page.set h (n, va, true) }).startPrefetch op i h o.part va

/-! ### Invalidation (R113 to R116) -/

/-- Whether a cached entry covers an address of a range of a partition. -/
def tlbHits (part : PartId) (lo hi : Nat) (x : TlbEnt) : Bool :=
  let a := x.index * 2 ^ levelBits x.level
  x.part == part && decide (a < hi ∧ lo < a + 2 ^ levelBits x.level)

/-- The invalidation point on both halves, and the accesses whose drain it waits for. -/
def invalidate (part : PartId) (lo hi : Nat) (d : Dev) : Dev :=
  let keep (l : List TlbEnt) : List TlbEnt := l.filter fun x => !tlbHits part lo hi x
  -- what a leaf that the walk may still read would cover: all of it was translated before the invalidation point
  let reach (w : Walk) : Nat := 2 ^ pageBits (min 3 w.level)
  let hits (w : Walk) : Bool := w.part == part && decide (lo < (w.va.toNat / reach w + 1) * reach w ∧ w.va.toNat / reach w * reach w < hi)
  let walk (w : Walk) : Walk := if hits w && w.running then { w with restart := true } else w
  let flying := d.xlt.accs.filter fun a => a.part == part && (match a.state with | .home => true | .remote => true | .circuit => true | _ => false)
  d.modXlt fun t => { t with
    micro := t.micro.foldl (fun m x => Tbl.set ⟨[], 0⟩ x.1 { x.2 with ents := x.2.ents.filter fun y => !tlbHits part lo hi y.2 } m) [],
    shared := ⟨keep t.shared.west, keep t.shared.east⟩,
    walks := (t.walks.filter fun w => !(hits w && w.stream.isSome)).map walk,
    inval := some ⟨part, flying.map (·.id)⟩ }

/-- Whether any of some accesses is in flight: held by a home of this node, out at another, or on a circuit, even when its operation is gone
(R113, R289, R293). -/
def inFlight (d : Dev) (l : List Nat) : Bool :=
  (d.xlt.accs.any fun a => l.contains a.id && (match a.state with | .home => true | .remote => true | .circuit => true | _ => false))
    || (d.coh.tx.any fun t => match t.2.req with | some r => (match r.eng with | some (.acc id) => l.contains id | _ => false) | none => false)
    || (d.fab.dev.any fun t => l.contains t.acc && t.again.isNone)
    || (d.fab.circuits.any fun c => c.2.sent.any fun f => l.contains f.acc)

/-- Whether the drain of an invalidation has ended (R113). -/
def drained (d : Dev) : Bool := match d.xlt.inval with | none => false | some x => !d.inFlight x.accs

/-- INVALIDATION_DRAIN_END (R113): the command completes. -/
def drainDone (d : Dev) : Dev :=
  if d.drained then
    let d := d.modXlt fun t => { t with inval := none }
    if d.busy 0x8104 then d.cmdEnd Reg.xlt 0x8104 1 .ok else d
  else d

/-! ### Commands of XLT (R93 to R95) -/

/-- A command of XLT (R68): none as status means that it completes when its drain has ended. -/
def xltCmd (f : Dev → Option Status × Dev) (d : Dev) : Dev :=
  if d.busy 0x8104 then d.illegal Reg.xlt
  else
    let (st, d) := f (d.cmdBegin 0x8104)
    match st with
    | some st => d.cmdEnd Reg.xlt 0x8104 1 st
    | none => d

/-- XLT.DATA0 to DATA7 as one number. -/
def xltData (d : Dev) : Nat := d.data 0x8110 8

/-- The image of a context (R92). -/
def ctxImage (c : XltCtx) : Nat :=
  (if c.enable then 1 else 0) + (if c.park then 2 else 0) + c.rootLog.toNat * 4 + c.root.toNat * 2 ^ 12
    + (c.fqLog.toNat + (if c.fqEn then 16 else 0) + c.fqBase.toNat * 2 ^ 12) * 2 ^ 64
    + (c.faultVec.toNat + (if c.vecEn then 2 ^ 11 else 0)) * 2 ^ 128

/-- CTX_READ (R95). -/
def ctxRead (part : PartId) (d : Dev) : Option Status × Dev := (some .ok, d.setData 0x8110 8 (ctxImage (d.ctx part)))

/-- CTX_WRITE (R92, R95, R111): the ring starts on its first lap. -/
def ctxWrite (part : PartId) (x : Nat) (d : Dev) : Option Status × Dev :=
  let w0 := bits x 63 0
  let w1 := bits x 127 64
  let w2 := bits x 191 128
  if bits w0 6 2 < 9 ∨ bits w0 6 2 > 18 ∨ bits w0 11 7 ≠ 0 ∨ bits w0 63 48 ≠ 0 ∨ bits w1 3 0 < 4 ∨ bits w1 3 0 > 12 ∨ bits w1 11 5 ≠ 0
      ∨ bits w1 63 48 ≠ 0 ∨ bits w2 63 12 ≠ 0 ∨ bits x 255 192 ≠ 0 then (some .malformed, d)
  else if (d.part? part).isNone then (some .stateConflict, d)
  else
    let c : XltCtx := { enable := bits w0 0 0 = 1, park := bits w0 1 1 = 1, rootLog := BitVec.ofNat 5 (bits w0 6 2),
                        root := BitVec.ofNat 64 (bits w0 47 12), fqLog := BitVec.ofNat 4 (bits w1 3 0), fqEn := bits w1 4 4 = 1,
                        fqBase := BitVec.ofNat 64 (bits w1 47 12), faultVec := BitVec.ofNat 11 (bits w2 10 0), vecEn := bits w2 11 11 = 1,
                        fqIndex := 0, fqPhase := true }
    (none, (d.modPart part fun p => { p with ctx := c }).invalidate part 0 (2 ^ 64))

/-- INV_PAGE (R95, R113). -/
def invPage (part : PartId) (x : Nat) (d : Dev) : Option Status × Dev :=
  let va := bits x 63 0
  if va ≥ 2 ^ 57 then (some .malformed, d) else (none, d.invalidate part va (va + 1))

/-- INV_RANGE (R95, R113). -/
def invRange (part : PartId) (x : Nat) (d : Dev) : Option Status × Dev :=
  let va := bits x 63 0
  let len := bits x 127 64
  if va % 65536 ≠ 0 ∨ len % 65536 ≠ 0 ∨ len = 0 ∨ va + len > 2 ^ 57 then (some .malformed, d) else (none, d.invalidate part va (va + len))

/-- INV_PART (R95, R113). -/
def invPart (part : PartId) (d : Dev) : Option Status × Dev :=
  if (d.part? part).isNone then (some .stateConflict, d) else (none, d.invalidate part 0 (2 ^ 64))

/-- The image of a record as FAULT_READ shows it: the live count, and no address of a confidential partition to anyone but its tenant
(R95, R499). -/
def recordImage (d : Dev) (r : Nat) (x : FaultRec) (tenant : Bool) : Nat :=
  faultImage (if d.conf x.part && !tenant then 0 else x.va.toNat) (some r) x.part x.cause x.level x.write x.phase (d.waiters r).length x.count

/-- FAULT_READ (R95). -/
def faultRead (r : Nat) (d : Dev) : Option Status × Dev :=
  match d.faultRec? r with
  | none => (some .stateConflict, d)
  | some x => (some .ok, d.setData 0x8110 8 (d.recordImage r x (Tbl.find d.sec.borrow 0x8104).isSome))

/-- FAULT_RESUME (R95, R108). -/
def faultResume (r : Nat) (d : Dev) : Option Status × Dev :=
  match d.faultRec? r with
  | none => (some .stateConflict, d)
  | some _ =>
    (some .ok, ((d.waiters r).foldl (fun d a => d.modAcc a.id fun a => { a with state := .retry d.now }) d).freeRecord r 1)

/-- FAULT_ABORT (R95, R108). -/
def faultAbort (r : Nat) (d : Dev) : Option Status × Dev :=
  match d.faultRec? r with
  | none => (some .stateConflict, d)
  | some _ => (some .ok, d.abortRecord r 2)

/-- A record reaches its hold limit (R108). -/
def faultHold (r : Nat) (d : Dev) : Dev :=
  match d.faultRec? r with
  | none => d
  | some x => if x.since + min1 (d.fld 0x8108 15 0) * 100000 ≤ d.now then d.abortRecord r 3 else d

/-- A register command that names a confidential partition (R499). -/
def unlessConf (part : PartId) (f : Dev → Option Status × Dev) (d : Dev) : Option Status × Dev :=
  if d.conf part then (some .stateConflict, d) else f d

end Dev

/-! ### Meanings -/

/-- ENGINE_ACCESS (R98); a parked engine issues nothing (R108). -/
def execEngineAccess (who : Engine) (p : PartId) (va : Word64) (k : EngKind) (s : State) : Host.Outcome State Fault Refusal :=
  next (s.onDev fun d => if d.parkedEngine who then d else (d.issueAcc who p (.va va) k none false .asked).2)
/-- ENGINE_RETRY (R169). -/
def execEngineRetry (id : Nat) (s : State) : Host.Outcome State Fault Refusal := next (s.onDev (Dev.engineRetry id))
/-- PAGE_TABLE_WALK (R99). -/
def execPageTableWalk (h : Half) (s : State) : Host.Outcome State Fault Refusal := next (s.onDev (Dev.pageTableWalk h))
/-- WALK_TABLE_READ (R91). -/
def execWalkTableRead (w : Nat) (s : State) : Host.Outcome State Fault Refusal := next (s.onDev (Dev.walkTableRead w))
/-- WALK_TIMEOUT (R100). -/
def execWalkTimeout (w : Nat) (s : State) : Host.Outcome State Fault Refusal := next (s.onDev (Dev.walkTimeout w))
/-- PREFETCH_WALK (R102). -/
def execPrefetchWalk (op : Nat) (i : Fin 32) (h : Half) (s : State) : Host.Outcome State Fault Refusal :=
  next (s.onDev (Dev.prefetchWalk op i.val h))
/-- FAULT_HOLD_EXPIRY (R108). -/
def execFaultHoldExpiry (r : BitVec 9) (s : State) : Host.Outcome State Fault Refusal := next (s.onDev (Dev.faultHold r.toNat))
/-- XLT_NOP (R95). -/
def execXltNop (s : State) : Host.Outcome State Fault Refusal := next (s.onDev (Dev.xltCmd fun d => (some .ok, d)))
/-- CTX_READ (R95). -/
def execCtxRead (p : PartId) (s : State) : Host.Outcome State Fault Refusal := next (s.onDev (Dev.xltCmd (Dev.ctxRead p)))
/-- CTX_WRITE (R95). -/
def execCtxWrite (p : PartId) (s : State) : Host.Outcome State Fault Refusal :=
  next (s.onDev (Dev.xltCmd fun d => d.unlessConf p (Dev.ctxWrite p d.xltData)))
/-- INV_PAGE (R113). -/
def execInvPage (p : PartId) (s : State) : Host.Outcome State Fault Refusal := next (s.onDev (Dev.xltCmd fun d => d.invPage p d.xltData))
/-- INV_RANGE (R113). -/
def execInvRange (p : PartId) (s : State) : Host.Outcome State Fault Refusal := next (s.onDev (Dev.xltCmd fun d => d.invRange p d.xltData))
/-- INV_PART (R113). -/
def execInvPart (p : PartId) (s : State) : Host.Outcome State Fault Refusal := next (s.onDev (Dev.xltCmd (Dev.invPart p)))
/-- INVALIDATION_DRAIN_END (R113). -/
def execInvalidationDrainEnd (s : State) : Host.Outcome State Fault Refusal := next (s.onDev Dev.drainDone)
/-- FAULT_READ (R95). -/
def execFaultRead (r : BitVec 9) (s : State) : Host.Outcome State Fault Refusal := next (s.onDev (Dev.xltCmd (Dev.faultRead r.toNat)))
/-- FAULT_RESUME (R108). -/
def execFaultResume (r : BitVec 9) (s : State) : Host.Outcome State Fault Refusal := next (s.onDev (Dev.xltCmd (Dev.faultResume r.toNat)))
/-- FAULT_ABORT (R108). -/
def execFaultAbort (r : BitVec 9) (s : State) : Host.Outcome State Fault Refusal := next (s.onDev (Dev.xltCmd (Dev.faultAbort r.toNat)))

end Sys2Proof.Machine
end

