-- ==== Sys2Proof/Machine/Prog.lean ====
section
/-! DEFINITION. Programs of engine accesses: what a unit, the bulk mover or the front end does, written as a function of the results of its
accesses; and how a program is carried on as its accesses end (R286, R288). -/

namespace Sys2Proof.Machine

/-- What a program asks for: an engine access, whose home must be this node when `near`; a hint on the block of this node's pool that an
address translates to (R181, R335); or the end of a writeback (R181). -/
inductive Req where
  | acc (t : Target) (k : EngKind) (near : Bool)
  | block (va : Nat) (hint : Nat)
  | wbEnd (id : Nat)
deriving DecidableEq, Repr

/-- A program: its result, a failure with a status, or a request and what follows its result. -/
inductive Prog (α : Type) where
  | ret (a : α)
  | fail (st : Status)
  | ask (r : Req) (k : Status × List Byte → Prog α)

namespace Prog

/-- One program after another. -/
def bind {α β : Type} : Prog α → (α → Prog β) → Prog β
  | .ret a, f => f a
  | .fail st, _ => .fail st
  | .ask r k, f => .ask r fun x => (k x).bind f

/-- What is left of a program after the results of its first requests. -/
def after {α : Type} : Prog α → List (Status × List Byte) → Prog α
  | p, [] => p
  | .ask _ k, x :: t => (k x).after t
  | p, _ :: _ => p

/-- A virtual address as an access names it; one beyond 64 bits lies outside the virtual space as well. -/
def at_ (va : Nat) : Target := .va (BitVec.ofNat 64 (min va (2 ^ 63)))

/-- Carry a state through the elements of a list. -/
def each {α σ : Type} : List α → σ → (α → σ → Prog σ) → Prog σ
  | [], s, _ => .ret s
  | a :: t, s, f => (f a s).bind fun s => each t s f

/-- Carry a state through n steps, the first at position i. -/
def loop {σ : Type} : Nat → Nat → σ → (Nat → σ → Prog σ) → Prog σ
  | 0, _, s, _ => .ret s
  | n + 1, i, s, f => (f i s).bind fun s => loop n (i + 1) s f

/-- An access that must end OK. -/
def need (r : Req) : Prog (List Byte) := .ask r fun x => if x.1 = .ok then .ret x.2 else .fail x.1

/-- Read bytes at a virtual address, line by line. -/
def read (va n : Nat) (near : Bool := false) : Prog (List Byte) :=
  if n = 0 then .ret []
  else
    let first := va / 64
    (loop ((va + n - 1) / 64 - first + 1) 0 ([] : List Byte) fun i l =>
      (need (.acc (at_ ((first + i) * 64)) .read near)).bind fun b => .ret (l ++ b)).bind fun l =>
      .ret (sub l (va % 64) n)

/-- Write bytes at a virtual address: whole lines as full-line writes, parts of lines as merges (R330). -/
def write (va : Nat) (bytes : List Byte) : Prog Unit :=
  if bytes.isEmpty then .ret ()
  else
    let first := va / 64
    let last := (va + bytes.length - 1) / 64
    loop (last - first + 1) 0 () fun i _ =>
      let line := (first + i) * 64
      let lo := max va line
      let hi := min (va + bytes.length) (line + 64)
      let data := lineOf (List.replicate (lo - line) 0 ++ sub bytes (lo - va) (hi - lo) ++ List.replicate (line + 64 - hi) 0)
      let k : EngKind := if hi - lo = 64 then .write data false else .merge data (BitVec.ofNat 64 ((2 ^ (hi - lo) - 1) * 2 ^ (lo - line)))
      (need (.acc (at_ line) k false)).bind fun _ => .ret ()

/-- An unsigned little-endian number at a virtual address. -/
def num (va n : Nat) : Prog Nat := (read va n).bind fun b => .ret (leNat b)

end Prog

/-- How far a program has come. -/
inductive ProgEnd (α : Type) where
  | done (a : α)
  | failed (st : Status)
  | waits

/-- Who runs a program: the engine, its partition, and the circuit its remote writes use. -/
structure Runner where
  who  : Engine
  part : PartId
  ckt  : Option (BitVec 10)

namespace Dev

/-- Issue an access, or take over one that ENGINE_ACCESS has issued ahead for the engine. -/
def takeAcc (w : Runner) (t : Target) (k : EngKind) (near : Bool) (d : Dev) : Nat × Dev :=
  match d.xlt.accs.find? fun a => a.why == .asked && a.who == w.who && a.part == w.part && a.target == t && a.kind == k && a.near == near with
  | some a => (a.id, d.modAcc a.id fun a => { a with why := .engine })
  | none => d.issueAcc w.who w.part t k (if engWrites k then w.ckt else none) near .engine

/-- Whether a hint is checked and translated as an engine write: DROP, and the clearing of a source of MOVE. -/
def hintKind (hint : Nat) : EngKind := if hint ≥ 4 then .write 0 false else .read

/-- Whether an engine that runs a program is parked (R108); the front end's programs each wait for their own accesses only. -/
def parkedRun (d : Dev) (w : Runner) : Bool :=
  match w.who with
  | .frontEnd _ => false
  | _ => d.parkedEngine w.who

/-- Carry a program on: accesses that end at once are followed by the next request; `hint` performs a block hint, of which none says that it has
to be asked again, translated afresh (R114). -/
def carry {α : Type} (hint : PartId → Nat → Nat → Dev → Option (Status × List Byte) × Dev) (w : Runner) :
    Nat → Prog α → List (Status × List Byte) → Option Nat → Dev → ProgEnd α × List (Status × List Byte) × Option Nat × Dev
  | 0, _, tr, acc, d => (.waits, tr, acc, d)
  | n + 1, p, tr, acc, d =>
    match p with
    | .ret a => (.done a, tr, none, d)
    | .fail st => (.failed st, tr, none, d)
    | .ask (.wbEnd id) k =>
      if d.tier.wbs.any fun x => x.id == id then (.waits, tr, none, d) else carry hint w n (k (.ok, [])) (tr ++ [(.ok, [])]) none d
    | .ask r k =>
      if acc.isNone ∧ d.parkedRun w then (.waits, tr, none, d)
      else
        let (id, d) := match acc with
          | some id => (id, d)
          | none =>
            (match r with
             | .acc t kd near => d.takeAcc w t kd near
             | .block va h => d.issueAcc w.who w.part (.va (BitVec.ofNat 64 va)) (hintKind h) none true .probe
             | .wbEnd _ => (0, d))
        match d.acc? id with
        | none => (.waits, tr, none, d)
        | some a =>
          (match a.state with
           | .ended st b =>
             let d := d.dropAcc id
             (match r with
              | .block _ h =>
                if st = .ok then
                  (match hint w.part (leAt b 2 6) h d with
                   | (some x, d) => carry hint w n (k x) (tr ++ [x]) none d
                   | (none, d) => (.waits, tr, none, d))
                else carry hint w n (k (st, b)) (tr ++ [(st, b)]) none d
              | _ => carry hint w n (k (st, b)) (tr ++ [(st, b)]) none d)
           | _ => (.waits, tr, some id, d))

/-! ### Hints on blocks (R181 to R184) -/

/-- The frames marked PIN, and those of a set. -/
def pinCount (d : Dev) (keys : Option (List Nat)) : Nat :=
  (d.tier.frames.filter fun f => f.2.pin && (match keys with | some l => l.contains f.1 | none => true)).length

/-- PIN of a resident block (R183): QUOTA when a limit would be passed. -/
def pinBlock (i : Nat) (blk : Nat) (d : Dev) : Option (Status × List Byte) × Dev :=
  match d.frameOf blk with
  | none => (none, d)
  | some (k, f) =>
    if f.pin then (some (.ok, [1]), d)
    else if d.pinCount (some (d.waysOf i blk)) ≥ 12 ∨ 2 * (d.pinCount none + 1) > d.frameCount then (some (.quota, []), d)
    else (some (.ok, [1]), d.setFrame k { f with pin := true })

/-- DROP of a block (R181): its lines are recalled and Modified data discarded; then the frame becomes invalid and the block reads as
zeros. -/
def dropBlock (i : Nat) (blk : Nat) (d : Dev) : Option (Status × List Byte) × Dev :=
  if d.blockBusy i blk false ∨ (d.tier.fills.any fun f => f.block == blk) ∨ (d.tier.wbs.any fun w => w.block == blk) then
    (none, d.recallBlock i blk (.drop blk) .inv false)
  else
    let d := match d.frameOf blk with | some (k, _) => d.freeFrame k | none => d
    (some (.ok, [1]), d.zeroMap blk)

/-- A hint on the block of this node that holds a pool offset: 0 PREFETCH, 1 PIN, 2 UNPIN, 3 COLD, 4 DROP (R181, R182); none while it has to be
tried again. Its first byte is 1 when the block was acted on; after it stands, for COLD, the number of the writeback to wait for, plus 1. -/
def hintBlock (part : PartId) (off hint : Nat) (d : Dev) : Option (Status × List Byte) × Dev :=
  match d.engChecks part off (hintKind hint) with
  | .error st => (some (st, []), d)
  | .ok (i, e) =>
    let blk := blockNo e off
    if !e.tiered then (some (if hint = 4 then .stateConflict else .ok, [0]), d)
    else if hint = 4 then d.dropBlock i blk
    else if hint ≤ 1 ∧ !d.resident e off then (none, d.startFill i blk)
    else if hint = 0 then (some (.ok, [1]), d)
    else if hint = 1 then d.pinBlock i blk
    else
      match d.frameOf blk with
      | none => (some (.ok, [1]), d)
      | some (k, f) =>
        if hint = 2 then (some (.ok, [1]), d.setFrame k { f with pin := d.epoch blk == 0x3FFFFFFF })
        else
          let d := d.setFrame k { f with cold := true }
          match d.tier.wbs.find? fun w => w.block == blk with
          -- what is dirty is in this writeback's snapshot, or will be; what was written after the snapshot needs another
          | some w => if w.snap.isSome ∧ w.again ≠ 0 ∨ w.evict then (none, d) else (some (.ok, 1 :: leBytes 8 (w.id + 1)), d)
          | none =>
            if f.state ≠ .idle then (none, d)
            else if f.dirty ≠ 0 then
              let d := d.beginWb k false
              match d.tier.wbs.find? fun w => w.block == blk with
              | some w => (some (.ok, 1 :: leBytes 8 (w.id + 1)), d)
              | none => (some (.ok, [1]), d)
            else (some (.ok, [1]), d)

/-- Make a source range of MOVE read as zeros on this node (R184): hint 5 tells whether the block is tiered. -/
def clearAsk (part : PartId) (off hint : Nat) (d : Dev) : Option (Status × List Byte) × Dev :=
  if hint = 5 then
    match d.engChecks part off (.write 0 false) with
    | .error st => (some (st, []), d)
    | .ok (_, e) => (some (.ok, [if e.tiered then 1 else 0]), d)
  else d.hintBlock part off hint

/-- The number of requests that one command carries on at most. -/
def carryMax : Nat := 65536

/-- Carry on a program whose earlier results are given. -/
def carryOn {α : Type} (w : Runner) (p : Prog α) (tr : List (Status × List Byte)) (acc : Option Nat) (d : Dev) :
    ProgEnd α × List (Status × List Byte) × Option Nat × Dev :=
  carry clearAsk w carryMax (p.after tr) tr acc d

end Dev

end Sys2Proof.Machine
end

