-- ==== Sys2Proof/Machine/OpqCore.lean ====
section
/-! DEFINITION. The operation front end (R267 to R304): queues and their contexts, the check of descriptors, the start, the units and the end
of operations, completion records, drain, reset and stall. -/

namespace Sys2Proof.Machine

/-- A near-memory core as the Dawn sequence leaves it. -/
def coreReset : Core := { fenced := false, loading := false, resets := [], beatAt := 0, found := false }

/-- A domain at cold reset (R601). -/
def domReset (n : Nat) : Domain :=
  { state := .on, at_ := 0, comp := true, fabmgr := decide (36 ≤ n ∧ n < 60), idleAt := 0, bell := false, wake := false }

/-- The members of an operation as they run: the restored descriptor of a RESTORE_STATE, or its own (R342). -/
def Op.run (o : Op) : List Member := match o.restored with | some m => [m] | none => o.members

/-- The descriptor of a member as it runs. -/
def Op.desc (o : Op) (m : Nat) : List Byte := match o.run[m]? with | some x => x.desc | none => []

/-- Whether an operation has units to run: any but those of the front end, and a RESTORE_STATE that has consumed its image. -/
def Op.unitRun (o : Op) : Bool := o.run.all fun m => Desc.inUnits (Desc.op m.desc)

/-- The shapes of the members. -/
def Op.shapes (o : Op) : List Desc.Shape := (Desc.shapes (o.run.map fun m => m.desc)).getD []

/-- The number of units of an operation. -/
def Op.total (o : Op) : Nat := match o.shapes.head? with | some s => s.passes.sum | none => 0

/-- The first unit of the pass that holds a unit. -/
def passStart : List Nat → Nat → Nat → Nat
  | [], base, _ => base
  | n :: t, base, u => if u < base + n then base else passStart t (base + n) u

/-- Whether the passes before a unit's are done (R308). -/
def Op.passReady (o : Op) (u : Nat) : Bool :=
  o.shapes.all fun s => let f := passStart s.passes 0 u; decide ((o.done.filter fun x => decide (x < f)).length = f)

/-- The lowest-numbered unit that is neither done nor taken (R286). -/
def Op.nextUnit (o : Op) : Option Nat :=
  match (List.range (o.done.length + o.units.length + 1)).find? fun u => !o.done.contains u && (Tbl.find o.units u).isNone with
  | some u => if u < o.total then some u else none
  | none => none

/-- The lowest-numbered unit that is not done (R291). -/
def Op.lowest (o : Op) : Nat :=
  if o.total = 0 then 0
  else ((List.range (o.done.length + 1)).find? fun u => !o.done.contains u).getD 0

/-- Whether an operation is a WAIT_COUNT whose COUNT has passed (R338). -/
def Op.waitsPast (o : Op) (count : Nat) : Bool := Desc.op (o.desc 0) == 0x32 && decide (Desc.u64 (o.desc 0) 48 < count)

/-- RESULT of a member (R291, R308): two saturating halves, or one saturating word. -/
def Op.result (o : Op) (m : Nat) : Word64 :=
  let get (p : Nat) : Nat := ((o.results.filter fun x => x.1 == m && x.2.1 == p).map fun x => x.2.2).sum
  let oc := Desc.op (o.desc m)
  if oc = 2 ∨ oc = 5 then BitVec.ofNat 64 (min (get 0) (2 ^ 32 - 1) + min (get 1) (2 ^ 32 - 1) * 2 ^ 32)
  else BitVec.ofNat 64 (min (get 0) (2 ^ 64 - 1))

namespace Dev

/-- An operation in flight. -/
def op? (d : Dev) (id : Nat) : Option Op := d.opq.ops.find? fun o => o.id == id

/-- Change an operation. -/
def modOp (id : Nat) (f : Op → Op) (d : Dev) : Dev := d.modOpq fun q => { q with ops := q.ops.map fun o => if o.id = id then f o else o }

/-- The operations of a queue, in SQ order. -/
def opsOf (d : Dev) (q : QueueId) : List Op := d.opq.ops.filter fun o => o.queue == q

/-- The performance level (R610, R629). -/
def level (d : Dev) : Nat := d.fld 0x210C 2 0

/-- A core's record. -/
def core (d : Dev) (phys : Nat) : Core := Tbl.get coreReset d.cores phys

/-- Store a core's record. -/
def setCore (phys : Nat) (c : Core) (d : Dev) : Dev := { d with cores := Tbl.set coreReset phys c d.cores }

/-- The physical core of a logical core (R579). -/
def phys (d : Dev) (c : Nat) : Option Nat := Tbl.find d.lmap c

/-- A power domain. -/
def dom (d : Dev) (n : Nat) : Domain := (Tbl.find d.pwr.doms n).getD (domReset n)

/-- Change a power domain. -/
def modDom (n : Nat) (f : Domain → Domain) (d : Dev) : Dev := { d with pwr := { d.pwr with doms := Tbl.put n (f (d.dom n)) d.pwr.doms } }

/-! ### Completion (R282, R291, R294) -/

/-- Whether the CQ is full as the device knows CQ_HEAD (R294). -/
def cqFull (q : Queue) : Bool := decide ((q.cqTail - q.cqHead).toNat ≥ 2 ^ q.sizeLog2)

/-- Note since when a finished record waits for a full CQ (R298). -/
def noteFull (now : Nat) (q : Queue) : Queue :=
  if !q.held.isEmpty ∧ cqFull q then { q with fullSince := some (q.fullSince.getD now) } else { q with fullSince := none }

/-- Finish a descriptor: its record waits to be written. -/
def addHeld (qid : QueueId) (h : Held) (d : Dev) : Dev := d.modQueue qid fun q => noteFull d.now { q with held := q.held ++ [h] }

/-- The record of a descriptor that completes without starting. -/
def heldOf (d : Dev) (m : Member) (st : Status) (flags : Nat) (counts : Bool) : Held :=
  { tag := if m.desc.isEmpty then 0 else Desc.tag m.desc, status := st, flags := BitVec.ofNat 8 (flags + (if m.desc.isEmpty then 16 else 0)),
    index := m.index, result := 0, count := d.gtc.count, detail := 0, level := BitVec.ofNat 8 d.level, cores := 0, since := d.now,
    counts := counts, above := m.above, writes := [] }

/-- Complete fetched descriptors that do not start, each with a status. -/
def endMembers (qid : QueueId) (l : List Member) (counts : Bool) (f : Nat → Status) (d : Dev) : Dev :=
  let flags := if l.length > 1 then 2 else 0
  l.zipIdx.foldl (fun d x => d.addHeld qid (d.heldOf x.1 (f x.2) flags counts)) d

/-- Whether an access was issued for an operation. -/
def accOf (d : Dev) (id : Nat) (a : EngAcc) : Bool :=
  a.why != .ring && match a.who with
    | .core _ o => o == id
    | .mover _ o => o == id
    | .frontEnd _ => (match d.op? id with | some o => o.acc == some a.id | none => false)

/-- The writes of an operation that no home has answered (R293). -/
def openWrites (d : Dev) (id : Nat) : List Nat :=
  (d.xlt.accs.filter fun a => d.accOf id a && (match a.kind with | .read => false | _ => true) && d.inFlight [a.id]).map (·.id)

/-- A unit leaves its core: the time from which the core's cluster is idle (R602). -/
def idleFrom (c : Fin 512) (d : Dev) : Dev :=
  match d.phys c.val with | some ph => d.modDom (ph / 16) fun y => { y with idleAt := d.now } | none => d

/-- Forget an operation, the accesses issued for it and its prefetch walks (R103): what has reached a home completes there (R289). -/
def dropOp (id : Nat) (d : Dev) : Dev :=
  let walks := d.xlt.walks.filter fun w => match w.stream with | some (o, _) => o == id | none => false
  let d := (d.xlt.accs.filter (d.accOf id)).foldl (fun (d : Dev) a => d.dropAcc a.id) d
  let d := match d.op? id with | some o => o.units.foldl (fun (d : Dev) u => d.idleFrom u.2.core) d | none => d
  (walks.foldl (fun (d : Dev) w => d.dropWalk w.id) d).modOpq fun q => { q with ops := q.ops.filter fun o => o.id != id }

/-- An operation ends: each member's record is finished with the status, RESULT and DETAIL given for it (R290, R291). -/
def endOp (id : Nat) (f : Nat → Status × Word64 × Nat) (d : Dev) : Dev :=
  match d.op? id with
  | none => d
  | some o =>
    let chained := if o.members.length > 1 then 2 else 0
    let writes := d.openWrites id
    let d := o.members.zipIdx.foldl (fun d x =>
      let (st, res, det) := f x.2
      let h := d.heldOf x.1 st (chained + (if o.late then 4 else 0) + (if o.paced then 8 else 0)) true
      d.addHeld o.queue { h with result := res, detail := BitVec.ofNat 32 det, writes := writes,
                                 cores := if o.state = .armed then 0 else BitVec.ofNat 16 o.cores.length }) d
    d.dropOp id

/-- An operation ends with one status for every member: DETAIL is the lowest unit not done once it had started (R291). -/
def endAll (id : Nat) (st : Status) (d : Dev) : Dev :=
  match d.op? id with
  | none => d
  | some o =>
    let det := if o.state = .armed ∨ st = .ok then 0 else o.lowest
    d.endOp id fun m => (st, if o.state = .armed then 0 else o.result m, det)

/-- A unit of a member fails: that member completes with its status, the others CANCELLED, and every other unit is abandoned (R290, R309). -/
def failUnit (id m u : Nat) (st : Status) (d : Dev) : Dev :=
  match d.op? id with
  | none => d
  | some o => d.endOp id fun k => if k = m then (st, o.result k, u) else (.cancelled, o.result k, o.lowest)

/-! ### Drain and reset (R296 to R299) -/

/-- Whether a queue has reached its drain mark (R296). -/
def drainPassed (q : Queue) : Bool := match q.drainMark with | none => true | some m => m == q.sqHead

/-- A DRAINING queue whose descriptors below the mark all have their records written becomes STOPPED (R296). -/
def drainCheck (qid : QueueId) (d : Dev) : Dev :=
  match d.queue? qid with
  | none => d
  | some q =>
    if q.state = .draining ∧ drainPassed q ∧ q.chain.isEmpty ∧ (q.fetched.isEmpty ∨ q.drainMark.isNone) ∧ (d.opsOf qid).isEmpty
        ∧ (q.held.all fun h => h.above) then
      (d.modQueue qid fun q => { q with state := .stopped, drainMark := none }).cause Reg.opq 2
    else d

/-- PART_RESET completes when every queue of the partition has been reset and the SRAM of its cores refilled (R299). -/
def partResetCheck (d : Dev) : Dev :=
  match d.opq.waitPart with
  | none => d
  | some p =>
    if (d.opq.queues.any fun x => x.2.part == p && (x.2.state == .resetting || d.opq.loading.contains (BitVec.ofNat 16 x.1)))
        ∨ !d.opq.refill.isEmpty then d
    else (d.modOpq fun o => { o with waitPart := none }).cmdEnd Reg.opq 0x7104 1 .ok

/-- A reset ends once every descriptor is completed and every record written or dropped (R297). -/
def resetCheck (qid : QueueId) (d : Dev) : Dev :=
  match d.queue? qid with
  | none => d
  | some q =>
    if q.state = .resetting ∧ q.sqHead = q.resetMark ∧ q.held.isEmpty then
      let d := d.modQueue qid fun q => { q with state := .stopped, resetWhy := none, failures := 0 }
      let d := if d.opq.waitQueue = some qid then (d.modOpq fun o => { o with waitQueue := none }).cmdEnd Reg.opq 0x7104 1 .ok else d
      d.partResetCheck
    else d

/-- Start a queue reset (R297): operations in flight are abandoned and complete CANCELLED. -/
def resetQueue (qid : QueueId) (why : ResetWhy) (d : Dev) : Dev :=
  match d.queue? qid with
  | none => d
  | some q =>
    let d := match q.fetch with | some a => d.dropAcc a | none => d
    let d := (d.opsOf qid).foldl (fun d o => d.endAll o.id .cancelled) d
    let cur : List Member := if q.fetched.isEmpty then [] else [⟨q.sqHead - 1, q.fetched, [], [], [], false, none⟩]
    let d := d.endMembers qid (q.chain ++ cur) false fun _ => .cancelled
    let d := d.modQueue qid fun q => { q with
      state := .resetting, resetMark := q.sqTail, resetAt := d.now, resetWhy := some why, drainMark := none, aborting := false, failures := 0,
      chain := [], fetched := [], trace := [], fetch := none, held := q.held.map fun h => { h with counts := false } }
    d.resetCheck qid

/-- Records that do not fit 1 ms after a reset began are dropped (R297). -/
def resetTimeout (qid : QueueId) (d : Dev) : Dev :=
  match d.queue? qid with
  | none => d
  | some q =>
    if q.state = .resetting ∧ q.resetAt + 1000000 ≤ d.now ∧ cqFull q then
      ((d.bump Reg.opq 0x050 q.held.length).modQueue qid fun q =>
        { q with dropped := satAdd q.dropped q.held.length, held := [], fullSince := none }).resetCheck qid
    else d

/-- A queue that has held a record for 50 ms because its CQ is full is reset (R298). -/
def queueStall (qid : QueueId) (d : Dev) : Dev :=
  match d.queue? qid with
  | none => d
  | some q =>
    match q.fullSince with
    | none => d
    | some t =>
      if t + 50000000 ≤ d.now ∧ !q.held.isEmpty ∧ cqFull q ∧ q.state ≠ .resetting ∧ q.state ≠ .lost then
        (((d.bump Reg.opq 0x070 1).cause Reg.opq 3).logPolicy q.half 5 0 qid.toNat q.part none .ok).resetQueue qid .stall
      else d

/-! ### Contexts (R272 to R276) -/

/-- The code of a queue's state (R274). -/
def stateCode : QueueState → Nat
  | .active => 1 | .draining => 2 | .stopped => 3 | .resetting => 4 | .lost => 5

/-- The context image of a queue (R273). -/
def queueImage (q : Queue) : Nat :=
  (q.sizeLog2 + stateCode q.state * 2 ^ 5 + q.weight * 2 ^ 8 + q.sqBase / 4096 * 2 ^ 12 + halfIx q.half * 2 ^ 48)
    + (q.maxInflight + q.cqBase / 4096 * 2 ^ 12 + q.part.toNat * 2 ^ 48) * 2 ^ 64
    + (q.headLine / 64 * 2 ^ 6 + q.vec.toNat * 2 ^ 48 + (if q.vecEn then 2 ^ 59 else 0)) * 2 ^ 128
    + (q.sqHead.toNat + q.sqTail.toNat * 2 ^ 16 + q.cqTail.toNat * 2 ^ 32 + q.dropped.toNat * 2 ^ 48) * 2 ^ 192

/-- The 64 bytes of a spilled context: the image, then what the image does not hold. -/
def spillImage (q : Queue) : List Byte :=
  leBytes 32 (queueImage q) ++ leBytes 2 q.cqHead.toNat ++ leBytes 1 ((if q.lap then 1 else 0) + (if q.aborting then 2 else 0)
    + (if q.drainMark.isSome then 4 else 0)) ++ [0] ++ leBytes 2 (q.drainMark.getD 0).toNat ++ leBytes 4 q.failures ++ List.replicate 22 0

/-- The queue that a spilled context restores; partition, slot and half stay on chip (R272). -/
def ofSpill (b : List Byte) (q : Queue) : Queue :=
  let st := bits (leAt b 0 1) 7 5
  { q with
    sizeLog2 := bits (leAt b 0 1) 4 0, state := if st = 1 then .active else if st = 2 then .draining else if st = 3 then .stopped else q.state,
    weight := bits (leAt b 1 1) 3 0, sqBase := bits (leAt b 0 8) 47 12 * 4096, maxInflight := leAt b 8 1, cqBase := bits (leAt b 8 8) 47 12 * 4096,
    headLine := bits (leAt b 16 8) 47 6 * 64, vec := BitVec.ofNat 11 (bits (leAt b 16 8) 58 48), vecEn := bits (leAt b 16 8) 59 59 = 1,
    sqHead := BitVec.ofNat 16 (leAt b 24 2), sqTail := BitVec.ofNat 16 (leAt b 26 2), cqTail := BitVec.ofNat 16 (leAt b 28 2),
    dropped := BitVec.ofNat 16 (leAt b 30 2), cqHead := BitVec.ofNat 16 (leAt b 32 2), lap := bits (leAt b 34 1) 0 0 = 1,
    aborting := bits (leAt b 34 1) 1 1 = 1, drainMark := if bits (leAt b 34 1) 2 2 = 1 then some (BitVec.ofNat 16 (leAt b 36 2)) else none,
    failures := leAt b 38 4 }

/-- A spill or a reload has failed its checks: the queue is LOST (R276). -/
def loseQueue (qid : QueueId) (d : Dev) : Dev :=
  match d.queue? qid with
  | none => d
  | some q =>
    let n := ((d.opsOf qid).map fun o => o.members.length).sum
    let d := (d.opsOf qid).foldl (fun d o => d.dropOp o.id) d
    (((d.modQueue qid fun q => { q with state := .lost, onChip := true, held := [], fullSince := none, dropped := satAdd q.dropped n }).bump
      Reg.opq 0x050 n).logPolicy q.half 4 0 qid.toNat q.part none .ok).cause Reg.opq 4

/-- The pool offset of a queue's spilled context (R275). -/
def spillOff (d : Dev) (q : Queue) : Option Nat :=
  match d.part? q.part with
  | none => none
  | some p => p.spill.map fun i => (d.ext i.toNat).first + 64 * q.slot

/-- The context that a full half spills next (R275): the least recently used one with no operation in flight and no record held. -/
def spillVictim (d : Dev) (h : Half) (keep : QueueId) : Option (QueueId × Queue) :=
  let l := d.opq.queues.filter fun x => x.2.half == h && x.2.onChip && x.2.state != .lost && x.2.state != .resetting && x.2.held.isEmpty
    && x.2.fetched.isEmpty && x.2.chain.isEmpty && x.1 != keep.toNat && (d.opsOf (BitVec.ofNat 16 x.1)).isEmpty
  l.foldl (fun (best : Option (QueueId × Queue)) x =>
    match best with
    | some b => if x.2.usedAt < b.2.usedAt then some (BitVec.ofNat 16 x.1, x.2) else best
    | none => some (BitVec.ofNat 16 x.1, x.2)) none

/-- Write the context of a queue to the partition's spill area (R275): false while its home holds the write. -/
def spillQueue (qid : QueueId) (q : Queue) (d : Dev) : Bool × Dev :=
  let gone (d : Dev) : Dev := d.modOpq fun o => { o with spills := o.spills.filter fun x => x != qid }
  match d.spillOff q with
  | none => (true, gone (d.loseQueue qid))
  | some off =>
    match d.engLocal (.front qid.toNat 4) q.part off (.write (lineOf (spillImage q)) false) with
    | (none, d) => (false, d)
    | (some (.ok, _), d) => (true, gone (d.bump Reg.opq 0x060 1))
    | (some _, d) => (true, gone (d.loseQueue qid))

/-- Make room for one context in a half (R275, R276): false while no context qualifies or a spill waits. A context that is being spilled is not on
chip any longer. -/
def makeRoom (h : Half) (keep : QueueId) (d : Dev) : Bool × Dev :=
  match d.opq.spills.find? fun x => (d.queue? x).any fun q => q.half == h with
  | some x => (match d.queue? x with | some q => d.spillQueue x q | none => (true, d))
  | none =>
    if (d.opq.queues.filter fun x => x.2.half == h && x.2.onChip && x.2.state != .lost).length < 4096 then (true, d)
    else
      match d.spillVictim h keep with
      | none => (false, d)
      | some (qid, q) => ((d.modQueue qid fun q => { q with onChip := false }).modOpq fun o => { o with spills := o.spills ++ [qid] }).spillQueue qid q

/-! ### Commands of OPQ (R301 to R303) -/

/-- A command of OPQ (R68): none as status means that it completes later. -/
def opqCmd (f : Dev → Option Status × Dev) (d : Dev) : Dev :=
  if d.busy 0x7104 then d.illegal Reg.opq
  else
    let (st, d) := f (d.cmdBegin 0x7104)
    match st with
    | some st => d.cmdEnd Reg.opq 0x7104 1 st
    | none => d

/-- OPQ.DATA0 to DATA7 as one number. -/
def opqData (d : Dev) : Nat := d.data 0x7110 8

/-- Whether every byte of a range lies in ACTIVE pinned extents of a partition (R268). -/
def pinnedRange (d : Dev) (p : PartId) (off n : Nat) : Bool :=
  (List.range ((off % 2 ^ 21 + n - 1) / 2 ^ 21 + 1)).all fun k =>
    match d.extAt (off / 2 ^ 21 * 2 ^ 21 + k * 2 ^ 21) with
    | some (_, e) => e.state == .active && !e.tiered && e.part == p
    | none => false

/-- The queues of a partition. -/
def queuesOf (d : Dev) (p : PartId) : List (Nat × Queue) := d.opq.queues.filter fun x => x.2.part == p

/-- Q_CREATE (R272, R273, R303). -/
def qCreate (qid : QueueId) (part : PartId) (x : Nat) (d : Dev) : Option Status × Dev :=
  let w0 := bits x 63 0
  let w1 := bits x 127 64
  let w2 := bits x 191 128
  let n := bits w0 4 0
  if n < 4 ∨ n > 15 ∨ bits w0 11 8 = 0 ∨ bits w0 63 49 ≠ 0 ∨ bits w1 11 8 ≠ 0 ∨ bits w1 63 60 ≠ 0 ∨ bits w2 5 0 ≠ 0 ∨ bits w2 63 60 ≠ 0 then
    (some .malformed, d)
  else
    let sq := bits w0 47 12 * 4096
    let cq := bits w1 47 12 * 4096
    let hl := bits w2 47 6 * 64
    match d.part? part with
    | none => (some .stateConflict, d)
    | some p =>
      if (d.queue? qid).isSome ∨ p.spill.isNone
          ∨ !(d.pinnedRange part sq (128 * 2 ^ n) && d.pinnedRange part cq (32 * 2 ^ n) && d.pinnedRange part hl 64) then (some .stateConflict, d)
      else if (d.queuesOf part).length ≥ p.quota.toNat then (some .quota, d)
      else
        let h : Half := if bits w0 48 48 = 1 then .east else .west
        match d.makeRoom h qid with
        | (false, d) => (none, d.modOpq fun o => { o with waitCmd := some (1, qid, part, x), loading := o.loading ++ [qid] })
        | (true, d) =>
          let slots := (d.queuesOf part).map fun y => y.2.slot
          let slot := ((List.range (slots.length + 1)).find? fun i => !slots.contains i).getD 0
          let q : Queue :=
            { state := .active, part := part, half := h, sizeLog2 := n, weight := bits w0 11 8, sqBase := sq, maxInflight := bits w1 7 0,
              cqBase := cq, headLine := hl, vec := BitVec.ofNat 11 (bits w2 58 48), vecEn := bits w2 59 59 = 1, sqHead := 0, sqTail := 0,
              cqTail := 0, cqHead := 0, lap := true, dropped := 0, drainMark := none, resetMark := 0, resetAt := 0, resetWhy := none,
              slot := slot, onChip := true, usedAt := d.opq.lastUse + 1, held := [], fullSince := none, polledAt := 0, failures := 0,
              aborting := false, chain := [], fetched := [], trace := [], fetch := none }
          (some .ok, d.modOpq fun o => { o with queues := Tbl.put qid.toNat q o.queues, lastUse := o.lastUse + 1 })

/-- Q_READ (R303). -/
def qRead (qid : QueueId) (d : Dev) : Option Status × Dev :=
  match d.queue? qid with
  | none => (some .stateConflict, d)
  | some q => (some .ok, d.setData 0x7110 8 (queueImage q))

/-- Q_DRAIN (R296). -/
def qDrain (qid : QueueId) (d : Dev) : Option Status × Dev :=
  match d.queue? qid with
  | none => (some .stateConflict, d)
  | some q =>
    if q.state ≠ .active then (some .stateConflict, d)
    else (some .ok, (d.modQueue qid fun q => { q with state := .draining, drainMark := some q.sqTail }).drainCheck qid)

/-- Q_ENABLE (R303). -/
def qEnable (qid : QueueId) (d : Dev) : Option Status × Dev :=
  match d.queue? qid with
  | none => (some .stateConflict, d)
  | some q =>
    if q.state ≠ .stopped then (some .stateConflict, d)
    else (some .ok, d.modQueue qid fun q => { q with state := .active, dropped := 0 })

/-- Q_RESET (R297, R303). -/
def qReset (qid : QueueId) (d : Dev) : Option Status × Dev :=
  match d.queue? qid with
  | none => (some .stateConflict, d)
  | some q =>
    if q.state = .resetting ∨ q.state = .lost then (some .stateConflict, d)
    else (none, (d.modOpq fun o => { o with waitQueue := some qid }).resetQueue qid .command)

/-- Q_DESTROY (R303). -/
def qDestroy (qid : QueueId) (d : Dev) : Option Status × Dev :=
  match d.queue? qid with
  | none => (some .stateConflict, d)
  | some q =>
    if q.state = .stopped ∨ q.state = .lost then
      let d := match q.fetch with | some a => d.dropAcc a | none => d
      let d := (d.opsOf qid).foldl (fun d o => d.dropOp o.id) d
      (some .ok, (d.modOpq fun o => { o with queues := Tbl.drop qid.toNat o.queues }).tryBells)
    else (some .stateConflict, d)

/-- The commands on a queue by code, once its context is on chip (R275). -/
def queueCmd (code : Nat) (qid : QueueId) (part : PartId) (x : Nat) (d : Dev) : Option Status × Dev :=
  match code with
  | 1 => d.qCreate qid part x
  | 2 => d.qRead qid
  | 3 => d.qDrain qid
  | 4 => d.qEnable qid
  | 5 => d.qReset qid
  | _ => d.qDestroy qid

/-- A command on a queue with its DATA; one whose context is not on chip waits for it (R275). -/
def queueWith (code : Nat) (qid : QueueId) (part : PartId) (x : Nat) (d : Dev) : Option Status × Dev :=
  match d.queue? qid with
  | some q =>
    if q.onChip then d.queueCmd code qid part x
    else (none, d.modOpq fun o => { o with waitCmd := some (code, qid, part, x),
                                           loading := if o.loading.contains qid then o.loading else o.loading ++ [qid] })
  | none => d.queueCmd code qid part x

/-- A command on a queue. -/
def onQueue (code : Nat) (qid : QueueId) (part : PartId) (d : Dev) : Option Status × Dev := d.queueWith code qid part d.opqData

/-- PART_SET (R300, R303). -/
def partSet (part : PartId) (x : Nat) (d : Dev) : Option Status × Dev :=
  let valid := bits x 15 15 = 1
  let i := bits x 14 0
  let quota := bits x 47 32
  if quota > 32768 then (some .malformed, d)
  else
    match d.part? part with
    | none => (some .stateConflict, d)
    | some p =>
      let e := d.ext i
      let spill : Option ExtIdx := if valid then some (BitVec.ofNat 15 i) else none
      let good := !valid || (e.state == .active && !e.tiered && e.part == part && bits (d.perm e) 4 3 == 3 && decide (e.size ≥ 2 ^ 22))
      let used := (d.queuesOf part).length
      if !good ∨ (spill ≠ p.spill ∧ (used ≠ 0 ∨ p.quiet.on)) ∨ quota < used then (some .stateConflict, d)
      else (some .ok, d.modPart part fun p => { p with spill := spill, spillIx := BitVec.ofNat 15 i, quota := BitVec.ofNat 16 quota })

/-- PART_READ (R303). -/
def partRead (part : PartId) (d : Dev) : Option Status × Dev :=
  match d.part? part with
  | none => (some .stateConflict, d)
  | some p =>
    (some .ok, d.setData 0x7110 3 (p.spillIx.toNat + (if p.spill.isSome then 2 ^ 15 else 0) + p.quota.toNat * 2 ^ 32
      + ((d.queuesOf part).length + p.cores.length * 2 ^ 16) * 2 ^ 64))

/-- The logical cores that CORE_ASSIGN and CORE_RELEASE name; none for MALFORMED (R303). -/
def coreRange (x : Nat) : Option (List (Fin 512)) :=
  let first := bits x 8 0
  let n := bits x 41 32
  if n = 0 ∨ first + n > 512 then none
  else some ((List.finRange 512).filter fun c => decide (first ≤ c.val ∧ c.val < first + n))

/-- Whether a logical core is assigned to a partition. -/
def coreAssigned (d : Dev) (c : Fin 512) : Bool := d.parts.any fun p => p.2.cores.contains c

/-- CORE_ASSIGN (R303): the cores join when their refill has ended; their micro-TLBs are emptied (R96). -/
def coreAssign (part : PartId) (x : Nat) (d : Dev) : Option Status × Dev :=
  match coreRange x with
  | none => (some .malformed, d)
  | some l =>
    let bad (c : Fin 512) : Bool := d.coreAssigned c || decide (c.val ≥ d.fld 0x104 9 0)
      || (match d.phys c.val with | some p => (d.core p).fenced | none => true)
    if (d.part? part).isNone ∨ l.any bad then (some .stateConflict, d)
    else
      let ph := l.filterMap fun c => d.phys c.val
      (none, (d.modXlt fun t => { t with micro := t.micro.filter fun x => !ph.contains x.1 }).modOpq fun o =>
        { o with joins := some (part, l), refill := o.refill ++ ph })

/-- A unit whose core is gone in its compute phase is returned and runs again from its start (R286). -/
def dropUnit (id u : Nat) (d : Dev) : Dev :=
  match d.op? id with
  | none => d
  | some o =>
    match Tbl.find o.units u with
    | none => d
    | some x =>
      let d := match x.acc with | some a => d.dropAcc a | none => d
      ((d.modOp id fun o => { o with units := Tbl.drop u o.units }).bump Reg.opq 0x078 1).idleFrom x.core

/-- A logical core stops running units: those in their compute phase run again elsewhere (R286, R288). -/
def leaveCore (c : Fin 512) (d : Dev) : Dev :=
  d.opq.ops.foldl (fun d o =>
    (o.units.filter fun x => x.2.core == c && x.2.phase != .writing).foldl (fun d x => d.dropUnit o.id x.1) d) d

/-- Operations of a partition that has no core left complete CANCELLED (R286). -/
def cancelCoreless (part : PartId) (d : Dev) : Dev :=
  match d.part? part with
  | none => d
  | some p =>
    if p.cores.isEmpty then
      (d.opq.ops.filter fun o => o.part == part && o.state != .armed && o.unitRun).foldl (fun d o => d.endAll o.id .cancelled) d
    else d

/-- CORE_RELEASE (R286, R303). -/
def coreRelease (part : PartId) (x : Nat) (d : Dev) : Option Status × Dev :=
  match coreRange x with
  | none => (some .malformed, d)
  | some l =>
    match d.part? part with
    | none => (some .stateConflict, d)
    | some p =>
      if l.any fun c => !p.cores.contains c then (some .stateConflict, d)
      else
        let d := d.modPart part fun p => { p with cores := p.cores.filter fun c => !l.contains c }
        let d := l.foldl (fun d c => d.leaveCore c) d
        let ph := l.filterMap fun c => d.phys c.val
        (none, (d.modOpq fun o => { o with leaves := some ph, refill := o.refill ++ ph }).cancelCoreless part)

/-- PART_RESET (R299): queues whose contexts are not on chip are reset when they have been loaded. -/
def partReset (part : PartId) (d : Dev) : Option Status × Dev :=
  match d.part? part with
  | none => (some .stateConflict, d)
  | some p =>
    let l := d.queuesOf part
    let d := d.modOpq fun o => { o with waitPart := some part }
    let d := l.foldl (fun d x =>
      let q : QueueId := BitVec.ofNat 16 x.1
      if x.2.state = .lost ∨ x.2.state = .resetting then d
      else if x.2.onChip then d.resetQueue q .partition
      else if d.opq.loading.contains q then d else d.modOpq fun o => { o with loading := o.loading ++ [q] }) d
    let recs := (d.xlt.records.filter fun r => r.2.part == part).map fun r => r.1
    let d := recs.foldl (fun d r => d.freeRecord r 4) d
    let ph := p.cores.filterMap fun c => d.phys c.val
    (none, (d.modOpq fun o => { o with refill := o.refill ++ ph.filter fun c => !o.refill.contains c }).partResetCheck)

/-- The refill of a core's SRAM ends (R246, R303), once the mover has finished the units of a core that leaves. -/
def coreRefilled (c : Nat) (d : Dev) : Dev :=
  let writing := d.opq.ops.any fun o => o.units.any fun u => u.2.phase == .writing && d.phys u.2.core.val == some c
  let leaving : Bool := match d.opq.leaves with | some l => l.contains c | none => false
  if !d.opq.refill.contains c ∨ (writing && leaving) then d
  else
    let d := d.modOpq fun o => { o with refill := o.refill.filter fun x => x != c }
    let d := match d.opq.joins with
      | some (p, l) =>
        if l.all fun x => (match d.phys x.val with | some y => !d.opq.refill.contains y | none => true) then
          let d := d.modPart p fun x => { x with cores := (List.finRange 512).filter fun k => x.cores.contains k || l.contains k }
          (d.modOpq fun o => { o with joins := none }).cmdEnd Reg.opq 0x7104 1 .ok
        else d
      | none => d
    let d := match d.opq.leaves with
      | some l =>
        if l.all fun x => !d.opq.refill.contains x then (d.modOpq fun o => { o with leaves := none }).cmdEnd Reg.opq 0x7104 1 .ok else d
      | none => d
    d.partResetCheck

/-! ### Reload (R275, R276) -/

/-- A command that waited for a context goes on. -/
def retryCmd (qid : QueueId) (d : Dev) : Dev :=
  match d.opq.waitCmd with
  | some (code, q, part, x) =>
    if q = qid then
      let d := d.modOpq fun o => { o with waitCmd := none }
      let (st, d) := d.queueWith code qid part x
      match st with
      | some st => d.cmdEnd Reg.opq 0x7104 1 st
      | none => d
    else d
  | none => d

/-- What follows when a queue's context is there or the queue is LOST: a command and doorbells that waited, and a partition reset. -/
def reloaded (qid : QueueId) (d : Dev) : Dev :=
  let d := d.modOpq fun o => { o with loading := o.loading.filter fun x => x != qid }
  let d := match d.queue? qid with
    | some q => if d.opq.waitPart = some q.part ∧ q.state ≠ QueueState.lost ∧ q.state ≠ QueueState.resetting then d.resetQueue qid .partition else d
    | none => d
  ((d.retryCmd qid).tryBells).partResetCheck

/-- CONTEXT_RELOAD (R275): another context is spilled when none is free, and the queue's own loaded. -/
def contextReload (qid : QueueId) (d : Dev) : Dev :=
  if !d.opq.loading.contains qid then d
  else
    match d.queue? qid with
    | none => d.reloaded qid
    | some q =>
      if q.onChip then d.reloaded qid
      else if d.opq.spills.contains qid then (d.spillQueue qid q).2
      else
        match d.makeRoom q.half qid with
        | (false, d) => d
        | (true, d) =>
          match d.spillOff q with
          | none => (d.loseQueue qid).reloaded qid
          | some off =>
            match d.engLocal (.front qid.toNat 4) q.part off .read with
            | (none, d) => d
            | (some (.ok, b), d) =>
              (((d.modQueue qid fun q => { ofSpill b q with onChip := true, usedAt := d.opq.lastUse + 1 }).modOpq fun o =>
                { o with lastUse := o.lastUse + 1 }).bump Reg.opq 0x068 1).reloaded qid
            | (some _, d) => (d.loseQueue qid).reloaded qid

/-! ### Fetch and check of descriptors (R271, R281, R282) -/

/-- Read the descriptor at an index of the SQ: none while it waits. -/
def readDesc (qid : QueueId) (q : Queue) (i : BitVec 16) (d : Dev) : Option (Except Status (List Byte)) × Dev :=
  let off := q.sqBase + 128 * (i.toNat % 2 ^ q.sizeLog2)
  match d.engLocal (.front qid.toNat 0) q.part off .read with
  | (none, d) => (none, d)
  | (some (st, a), d) =>
    if st ≠ .ok then (some (.error st), d)
    else match d.engLocal (.front qid.toNat 1) q.part (off + 64) .read with
      | (none, d) => (none, d)
      | (some (st, b), d) => if st ≠ .ok then (some (.error st), d) else (some (.ok (a ++ b)), d)

/-- The further reads and the checks 1 to 3 of a descriptor (R281, R326): its stream table, PROG and AUX, and the status of the first check
that fails. -/
def checkProg (b : List Byte) : Prog (List Byte × List Byte × List Byte × Option Status) :=
  let n := Desc.u8 b 7
  (if Desc.hasStreams b then Prog.read (Desc.u64 b 24) (32 * n) else .ret []).bind fun table =>
  if !(Desc.headerOk b) ∨ !(Desc.tableOk table n) ∨ !(Desc.fieldsOk b) then .ret (table, [], [], some .malformed)
  else if Desc.op b = 7 then
    (Prog.read (Desc.u64 b 48) (4 * Desc.u8 b 112)).bind fun prog =>
    (Prog.read (Desc.u64 b 56) (64 + 4 * Desc.u16 b 120)).bind fun aux =>
    .ret (table, prog, aux, if Desc.mapOk b prog aux then none else some .malformed)
  else .ret (table, [], [], none)

/-- The SRAM that a core has for a unit: 448 KiB and its share of the spill area (R287). -/
def sramLimit (d : Dev) (part : PartId) : Nat :=
  match d.part? part with
  | none => 0
  | some p =>
    let share := match p.spill with
      | some i => if p.cores.isEmpty then 0 else ((d.ext i.toNat).size - 2 ^ 21) / p.cores.length / 65536 * 65536
      | none => 0
    458752 + share

/-- Check 4 on a member (R281, R330). -/
def checkState (d : Dev) (q : Queue) (m : Member) : Bool :=
  let oc := Desc.op m.desc
  let cores := match d.part? q.part with | some p => !p.cores.isEmpty | none => false
  let free := oc == 0x30 || oc == 0x31 || oc == 0x32 || oc == 0x20 || oc == 0x21
  let ckt := Desc.u16 m.desc 72
  let cktOk := !(oc == 0x10 || oc == 0x11) || ckt == 0xFFFF
    || (let c := d.ckt ckt; decide (ckt < 1024) && c.state == .opened && c.role == .source && c.part == q.part && !c.closing)
  q.state != .stopped && !m.above && (cores || free) && cktOk

/-- Arm the operation of a checked descriptor or chain (R283, R383). -/
def armOp (qid : QueueId) (q : Queue) (l : List Member) (d : Dev) : Dev :=
  let b := match l.head? with | some m => m.desc | none => []
  let launch : Option Word64 := if Desc.launchEn b then some (BitVec.ofNat 64 (Desc.u64 b 16)) else none
  let o : Op :=
    { id := d.opq.nextOp, queue := qid, part := q.part, members := l, state := .armed, launch := launch,
      late := match launch with | some t => decide (t.toNat < d.gtc.count.toNat) | none => false, paced := false, startAt := 0,
      budget := Desc.budget b, units := [], done := [], failed := none, cores := [], results := [], poisoned := false,
      streams := l.flatMap fun m => Desc.streams m.table (Desc.u8 m.desc 7), maxima := [], accs := [], tops := [], counts := [],
      ckts := l.zipIdx.filterMap fun x => if (Desc.op x.1.desc = 0x10 ∨ Desc.op x.1.desc = 0x11) ∧ Desc.u16 x.1.desc 72 < 1024
        then some (x.2, BitVec.ofNat 10 (Desc.u16 x.1.desc 72)) else none,
      trace := [], acc := none, target := none, restored := none }
  d.modOpq fun x => { x with ops := x.ops ++ [o], nextOp := x.nextOp + 1 }

/-- A descriptor or a whole chain has been fetched: composition, and checks 4 and 5 (R281, R290). -/
def judge (qid : QueueId) (l : List Member) (d : Dev) : Dev :=
  match d.queue? qid with
  | none => d
  | some q =>
    let descs := l.map fun m => m.desc
    let malformed := d.endMembers qid l true fun _ => .malformed
    let one (i : Nat) (st : Status) : Dev := d.endMembers qid l true fun k => if k = i then st else .cancelled
    if l.length > 8 ∨ (l.length > 1 ∧ (descs.any fun b => !b.isEmpty && Desc.front (Desc.op b))) then malformed
    else
      match l.zipIdx.find? fun x => x.1.bad.isSome with
      | some (m, i) => one i (m.bad.getD .malformed)
      | none =>
        match Desc.shapes descs with
        | none => malformed
        | some ss =>
          match l.zipIdx.find? fun x => !d.checkState q x.1 with
          | some (_, i) => one i .stateConflict
          | none =>
            match (List.range l.length).find? fun i => decide (Desc.needAll (descs.take (i + 1)) (ss.take (i + 1)) > d.sramLimit q.part) with
            | some i => one i .quota
            | none => d.armOp qid q l

/-- A member has been fetched and checked: it waits for the rest of its chain, or is judged with it. -/
def takeMember (qid : QueueId) (m : Member) (d : Dev) : Dev :=
  match d.queue? qid with
  | none => d
  | some q =>
    let l := q.chain ++ [m]
    if !m.desc.isEmpty ∧ Desc.chain m.desc then d.modQueue qid fun q => { q with chain := l, fetched := [], trace := [], fetch := none }
    else (((d.modQueue qid fun q => { q with chain := [], fetched := [], trace := [], fetch := none }).judge qid l)).drainCheck qid

/-- Carry on the check of the descriptor that a queue has fetched. -/
def checkOn (qid : QueueId) (d : Dev) : Dev :=
  match d.queue? qid with
  | none => d
  | some q =>
    let i := q.sqHead - 1
    let above := q.state == .draining && q.drainMark.isNone
    let b := q.fetched
    if q.aborting ∧ Desc.op b ≠ 0x30 then
      ((d.modQueue qid fun q => { q with fetched := [], trace := [], fetch := none }).endMembers qid [⟨i, b, [], [], [], above, none⟩] false
        fun _ => .cancelled).drainCheck qid
    else
      let d := if q.aborting then d.modQueue qid fun q => { q with aborting := false } else d
      match d.carryOn ⟨.frontEnd qid, q.part, none⟩ (checkProg b) q.trace q.fetch with
      | (.waits, tr, acc, d) => d.modQueue qid fun q => { q with trace := tr, fetch := acc }
      | (.failed st, _, _, d) => d.takeMember qid ⟨i, b, [], [], [], above, some st⟩
      | (.done (t, p, a, bad), _, _, d) => d.takeMember qid ⟨i, b, t, p, a, above, bad⟩

/-- Whether a FENCE of the queue is open (R336). -/
def fenceOpen (d : Dev) (qid : QueueId) : Bool := (d.opsOf qid).any fun o => o.members.any fun m => Desc.op m.desc == 0x30

/-- DESCRIPTOR_FETCH (R271, R281, R297): the next descriptor is fetched and checked, or completed in a reset. -/
def descriptorFetch (qid : QueueId) (d : Dev) : Dev :=
  match d.queue? qid with
  | none => d
  | some q =>
    if q.state = .lost then d
    else if !q.onChip then
      if d.opq.loading.contains qid ∨ q.sqHead = q.sqTail then d else d.modOpq fun o => { o with loading := o.loading ++ [qid] }
    else if !q.fetched.isEmpty then d.checkOn qid
    else if q.sqHead = (if q.state = .resetting then q.resetMark else q.sqTail) ∨ (q.state ≠ .resetting ∧ d.fenceOpen qid) then d
    else
      match d.readDesc qid q q.sqHead with
      | (none, d) => d
      | (some r, d) =>
        let i := q.sqHead
        let mark := if q.drainMark = some i then none else q.drainMark
        let above := q.state == .draining && mark.isNone
        let d := d.modQueue qid fun q => { q with sqHead := i + 1, drainMark := mark }
        match r with
        | .error st =>
          if q.state = .resetting then (d.endMembers qid [⟨i, [], [], [], [], above, none⟩] false fun _ => .cancelled).resetCheck qid
          else d.takeMember qid ⟨i, [], [], [], [], above, some st⟩
        | .ok b =>
          let d := d.bump Reg.opq 0x040 1
          if q.state = .resetting then (d.endMembers qid [⟨i, b, [], [], [], above, none⟩] false fun _ => .cancelled).resetCheck qid
          else (d.modQueue qid fun q => { q with fetched := b, trace := [], fetch := none }).checkOn qid

/-! ### Start, units and budget (R283 to R288, R383) -/

/-- Whether the clusters of an operation that was armed for a count are usable (R383, R384). -/
def launchReady (d : Dev) (o : Op) : Bool :=
  o.launch.isNone || (List.range 36).all fun n => (d.dom n).state == .on || !((d.part? o.part).any fun p => d.partInCluster p n)

/-- Whether an operation can start, the choice among queues apart (R283, R294, R336, R338, R384). -/
def canStart (d : Dev) (o : Op) : Bool :=
  match d.queue? o.queue with
  | none => false
  | some q =>
    let l := d.opsOf o.queue
    let before := l.filter fun x => decide (x.id < o.id)
    o.state == .armed && (before.all fun x => x.state != .armed)
      && decide ((l.filter fun x => x.state != .armed).length < q.maxInflight + 1)
      && (match o.launch with | some t => decide (t.toNat ≤ d.gtc.count.toNat) | none => true)
      && !(before.any fun x => x.members.any fun m => Desc.op m.desc == 0x30 || Desc.op m.desc == 0x32)
      && !cqFull q && q.state != .resetting && q.state != .lost && d.launchReady o

/-- The queue of a partition that the weighted round robin serves next (R284). -/
def nextQueue (d : Dev) (p : Part) (part : PartId) : Option QueueId :=
  let ready := (d.queuesOf part).filter fun x => (d.opsOf (BitVec.ofNat 16 x.1)).any d.canStart
  let same := ready.find? fun x => x.1 == p.rrQueue && p.rrLeft > 0
  let after := ready.find? fun x => decide (x.1 > p.rrQueue)
  match same with
  | some x => some (BitVec.ofNat 16 x.1)
  | none => match after with
    | some x => some (BitVec.ofNat 16 x.1)
    | none => ready.head?.map fun x => BitVec.ofNat 16 x.1

/-- OPERATION_START (R283, R284): the translations of the first DEPTH tiles of each stream are to be walked (R102). -/
def operationStart (id : Nat) (d : Dev) : Dev :=
  match d.op? id with
  | none => d
  | some o =>
    match d.part? o.part, d.queue? o.queue with
    | some p, some q =>
      if !d.canStart o ∨ d.nextQueue p o.part ≠ some o.queue then d
      else
        let left := if p.rrQueue = o.queue.toNat ∧ p.rrLeft > 0 then p.rrLeft - 1 else q.weight - 1
        (d.modPart o.part fun p => { p with rrQueue := o.queue.toNat, rrLeft := left }).modOp id fun o =>
          { o with state := .running, startAt := d.now, late := o.late || o.waitsPast d.gtc.count.toNat,
                   streams := o.streams.map fun s => { s with wanted := min s.count (if s.depth = 0 then 4 else s.depth) } }
    | _, _ => d

/-- LAUNCH_COUNT_REACHED (R383): the armed operation starts when the count has reached its LAUNCH. -/
def launchReached (id : Nat) (d : Dev) : Dev :=
  match d.op? id with
  | none => d
  | some o => if o.launch.isSome then d.operationStart id else d

/-- Whether a physical core runs units: its cluster is on and it is neither fenced, reloading nor being refilled. -/
def coreRuns (d : Dev) (phys : Nat) : Bool :=
  (d.dom (phys / 16)).state == .on && !(d.core phys).fenced && !(d.core phys).loading && !d.opq.refill.contains phys

/-- The working SRAM that the units on a logical core use, and the units that occupy its slots (R286, R287). -/
def coreUse (d : Dev) (c : Fin 512) : Nat × Nat :=
  d.opq.ops.foldl (fun (a : Nat × Nat) o =>
    let n := min 458752 (Desc.needAll (o.run.map fun m => m.desc) o.shapes)
    let l := o.units.filter fun u => u.2.core == c
    (a.1 + n * l.length, a.2 + (l.filter fun u => u.2.phase != .writing).length)) (0, 0)

/-- UNIT_TAKE (R286, R287): a core of the partition takes the lowest unit that is not taken. -/
def unitTake (id : Nat) (c : Fin 512) (d : Dev) : Dev :=
  match d.op? id with
  | none => d
  | some o =>
    match d.part? o.part, d.phys c.val, o.nextUnit with
    | some p, some ph, some u =>
      let cap := (match o.members.head? with | some m => Desc.u16 m.desc 4 | none => 0)
      let live := o.cores.filter fun x => p.cores.contains x
      let room := cap == 0 || live.contains c || decide (live.length < cap)
      let need := min 458752 (Desc.needAll (o.run.map fun m => m.desc) o.shapes)
      let use := d.coreUse c
      if o.state = .running ∧ o.unitRun ∧ p.cores.contains c ∧ d.coreRuns ph ∧ room ∧ o.passReady u ∧ use.2 < 32 ∧ use.1 + need ≤ 458752 then
        let x : UnitSt := { core := c, phase := .compute, member := 0, trace := [], acc := none, lbs := [], outs := [], add := [], parts := [],
                            poisoned := false }
        d.modOp id fun o => { o with units := Tbl.put u x o.units, cores := if o.cores.contains c then o.cores else o.cores ++ [c] }
      else d
    | _, _, _ => d

/-- TIME_BUDGET_EXPIRY (R285): FENCE has no budget of its own (R336). -/
def budgetExpiry (id : Nat) (d : Dev) : Dev :=
  match d.op? id with
  | none => d
  | some o =>
    let fence := o.members.any fun m => Desc.op m.desc == 0x30
    if o.state ≠ .armed ∧ !fence ∧ o.startAt + o.budget * 1000 ≤ d.now then d.endAll id .timeout else d

/-! ### Completion records (R291 to R295) -/

/-- The 32 bytes of a record (R291). -/
def recordBytes (q : Queue) (h : Held) : List Byte :=
  leBytes 2 h.tag.toNat ++ leBytes 1 h.status.code.toNat ++ leBytes 1 (h.flags.toNat + (if q.lap then 1 else 0)) ++ leBytes 2 h.index.toNat
    ++ leBytes 2 q.sqHead.toNat ++ leBytes 8 h.result.toNat ++ leBytes 8 h.count.toNat ++ leBytes 4 h.detail.toNat ++ leBytes 1 h.level.toNat
    ++ leBytes 2 h.cores.toNat ++ [0]

/-- COMPLETION_RECORD_WRITE (R293 to R295). -/
def recordWrite (qid : QueueId) (d : Dev) : Dev :=
  match d.queue? qid with
  | none => d
  | some q =>
    match q.held with
    | [] => d
    | h :: rest =>
      if cqFull q ∨ !q.onChip ∨ d.inFlight h.writes then d.modQueue qid (noteFull d.now)
      else
        let n := 2 ^ q.sizeLog2
        let off := q.cqBase + 32 * (q.cqTail.toNat % n)
        let b := recordBytes q h
        let hi := off % 64 ≥ 32
        let x := lineOf (if hi then List.replicate 32 0 ++ b else b ++ List.replicate 32 0)
        match d.engLocal (.front qid.toNat 2) q.part off (.merge x (if hi then 0xFFFFFFFF00000000 else 0x00000000FFFFFFFF)) with
        | (none, d) => d
        | (some (st, _), d) =>
          let d := if st = .ok then
              (d.bump Reg.opq 0x048 1).modQueue qid fun q =>
                { q with held := rest, cqTail := q.cqTail + 1, lap := if (q.cqTail.toNat + 1) % n = 0 then !q.lap else q.lap,
                         failures := if h.status ≠ .ok ∧ h.counts then q.failures + 1 else q.failures }
            else
              ((d.bump Reg.opq 0x050 1).modQueue qid fun q =>
                { q with held := rest, dropped := satAdd q.dropped 1, state := if q.state = .resetting then .resetting else .stopped }).log q.half
                { type := 0x0A, sev := 1, block := blockOf Reg.opq, part := some q.part, node := some d.nodeId, status := st.code.toNat,
                  addr := d.fabAddr (off / 64 * 64), detail := [(40, 1, 8), (42, 2, qid.toNat)] }
          let d := d.modQueue qid fun q => noteFull d.now q
          let d := if q.vecEn then d.arriveVec q.vec.toNat else d
          (d.drainCheck qid).resetCheck qid

/-- HEAD_LINE_POLL (R294): while the CQ appears full the head line is read, at once and then every 1 µs. -/
def headPoll (qid : QueueId) (d : Dev) : Dev :=
  match d.queue? qid with
  | none => d
  | some q =>
    if !cqFull q ∨ !q.onChip ∨ d.now < q.polledAt then d
    else
      match d.engLocal (.front qid.toNat 3) q.part q.headLine .read with
      | (none, d) => d
      | (some (st, b), d) =>
        let v : BitVec 16 := BitVec.ofNat 16 (leAt b 0 2)
        let good := st = .ok ∧ (q.cqTail - v).toNat ≤ 2 ^ q.sizeLog2
        d.modQueue qid fun q =>
          let q := { q with cqHead := if good then v else q.cqHead }
          noteFull d.now { q with polledAt := if cqFull q then d.now + 1000 else 0 }

end Dev

/-! ### Meanings -/

/-- OPQ_NOP (R303). -/
def execOpqNop (s : State) : Host.Outcome State Fault Refusal := next (s.onDev (Dev.opqCmd fun d => (some .ok, d)))
/-- Q_CREATE (R303); not by a register command for a confidential partition (R499). -/
def execQCreate (q : QueueId) (p : PartId) (s : State) : Host.Outcome State Fault Refusal :=
  next (s.onDev (Dev.opqCmd fun d => d.unlessConf p fun d => d.onQueue 1 q p))
/-- Q_READ (R303). -/
def execQRead (q : QueueId) (s : State) : Host.Outcome State Fault Refusal := next (s.onDev (Dev.opqCmd (Dev.onQueue 2 q 0)))
/-- Q_DRAIN (R296). -/
def execQDrain (q : QueueId) (s : State) : Host.Outcome State Fault Refusal := next (s.onDev (Dev.opqCmd (Dev.onQueue 3 q 0)))
/-- Q_ENABLE (R303); not by a register command for a confidential partition (R499). -/
def execQEnable (q : QueueId) (s : State) : Host.Outcome State Fault Refusal :=
  next (s.onDev (Dev.opqCmd fun d => match d.queue? q with
    | some x => d.unlessConf x.part fun d => d.onQueue 4 q 0
    | none => (some .stateConflict, d)))
/-- Q_RESET (R297). -/
def execQReset (q : QueueId) (s : State) : Host.Outcome State Fault Refusal := next (s.onDev (Dev.opqCmd (Dev.onQueue 5 q 0)))
/-- Q_DESTROY (R303). -/
def execQDestroy (q : QueueId) (s : State) : Host.Outcome State Fault Refusal := next (s.onDev (Dev.opqCmd (Dev.onQueue 6 q 0)))
/-- PART_SET (R303); not by a register command for a confidential partition (R499). -/
def execPartSet (p : PartId) (s : State) : Host.Outcome State Fault Refusal :=
  next (s.onDev (Dev.opqCmd fun d => d.unlessConf p (Dev.partSet p d.opqData)))
/-- PART_READ (R303). -/
def execPartRead (p : PartId) (s : State) : Host.Outcome State Fault Refusal := next (s.onDev (Dev.opqCmd (Dev.partRead p)))
/-- CORE_ASSIGN (R303). -/
def execCoreAssign (p : PartId) (s : State) : Host.Outcome State Fault Refusal :=
  next (s.onDev (Dev.opqCmd fun d => d.coreAssign p d.opqData))
/-- CORE_RELEASE (R303). -/
def execCoreRelease (p : PartId) (s : State) : Host.Outcome State Fault Refusal :=
  next (s.onDev (Dev.opqCmd fun d => d.coreRelease p d.opqData))
/-- PART_RESET (R299). -/
def execPartReset (p : PartId) (s : State) : Host.Outcome State Fault Refusal := next (s.onDev (Dev.opqCmd (Dev.partReset p)))
/-- CONTEXT_RELOAD (R275). -/
def execContextReload (q : QueueId) (s : State) : Host.Outcome State Fault Refusal := next (s.onDev (Dev.contextReload q))
/-- DESCRIPTOR_FETCH (R281). -/
def execDescriptorFetch (q : QueueId) (s : State) : Host.Outcome State Fault Refusal := next (s.onDev (Dev.descriptorFetch q))
/-- OPERATION_START (R283). -/
def execOperationStart (o : Nat) (s : State) : Host.Outcome State Fault Refusal := next (s.onDev (Dev.operationStart o))
/-- LAUNCH_COUNT_REACHED (R383). -/
def execLaunchCountReached (o : Nat) (s : State) : Host.Outcome State Fault Refusal := next (s.onDev (Dev.launchReached o))
/-- UNIT_TAKE (R286). -/
def execUnitTake (o : Nat) (c : Fin 512) (s : State) : Host.Outcome State Fault Refusal := next (s.onDev (Dev.unitTake o c))
/-- TIME_BUDGET_EXPIRY (R285). -/
def execTimeBudgetExpiry (o : Nat) (s : State) : Host.Outcome State Fault Refusal := next (s.onDev (Dev.budgetExpiry o))
/-- COMPLETION_RECORD_WRITE (R293). -/
def execCompletionRecordWrite (q : QueueId) (s : State) : Host.Outcome State Fault Refusal := next (s.onDev (Dev.recordWrite q))
/-- HEAD_LINE_POLL (R294). -/
def execHeadLinePoll (q : QueueId) (s : State) : Host.Outcome State Fault Refusal := next (s.onDev (Dev.headPoll q))
/-- RESET_RECORD_TIMEOUT (R297). -/
def execResetRecordTimeout (q : QueueId) (s : State) : Host.Outcome State Fault Refusal := next (s.onDev (Dev.resetTimeout q))
/-- QUEUE_STALL (R298). -/
def execQueueStall (q : QueueId) (s : State) : Host.Outcome State Fault Refusal := next (s.onDev (Dev.queueStall q))
/-- CORE_REFILL_DONE (R246, R303). -/
def execCoreRefillDone (c : Fin 576) (s : State) : Host.Outcome State Fault Refusal := next (s.onDev (Dev.coreRefilled c.val))

end Sys2Proof.Machine
end

