-- ==== Sys2Proof/Machine/UnitProg.lean ====
section
/-! DEFINITION. What a unit of each operation computes, and what the mover does in its write phase (R305 to R333). -/

namespace Sys2Proof.Machine

/-- What the compute phase of a unit leaves for one member: its slices of local buffers, the work of the mover, what it adds to the parts
of RESULT, partial results, whether poison was copied, and the registers of the last element of a MAP. -/
structure UnitOut where
  lbs   : List (Nat × List Byte) := []
  outs  : List WOp := []
  add   : List (Nat × Nat) := []
  parts : List Partial := []
  poisoned : Bool := false
  micro : Option Micro := none

/-- What a unit's program knows beside its descriptor: the operation, the member, the unit, the hash key and the local buffers. -/
structure UnitIn where
  op   : Op
  m    : Nat
  u    : Nat
  key  : BitVec 128
  lbs  : Tbl (List Byte)

namespace UnitIn

/-- The member that runs. -/
def mem (x : UnitIn) : Member := (x.op.run[x.m]?).getD ⟨0, [], [], [], [], false, none⟩
/-- Its descriptor. -/
def b (x : UnitIn) : List Byte := x.mem.desc
/-- Its shape. -/
def shape (x : UnitIn) : Desc.Shape := (x.op.shapes[x.m]?).getD ⟨[], 0⟩
/-- The key of a partial result of the member. -/
def pk (x : UnitIn) (k : Nat) : Nat := x.m * 2 ^ 40 + k

end UnitIn

open Desc in
/-- Put an output where an operand address says: a local buffer or memory (R279, R312). -/
def placeOut (a off : Nat) (bytes : List Byte) (o : UnitOut) : UnitOut :=
  match lb a with
  | some n => { o with lbs := o.lbs ++ [(n, bytes)] }
  | none => { o with outs := o.outs ++ [.put (a + off) bytes] }

/-- Code bytes of an output format (R348). -/
def codeBytes (fmt c : Nat) : List Byte := leBytes (rowEB fmt 1) c

/-- A signed index of 32 or 64 bits at a virtual address. -/
def readIndex (base pos ifmt : Nat) : Prog Int :=
  let n := if ifmt = 1 then 8 else 4
  (Prog.num (base + pos * n) n).bind fun v => .ret (sInt (8 * n) v)

open Desc

/-! ### GATHER_REDUCE (R313, R314) -/

/-- A bag as it is pooled: an accumulator or a maximum for each element, and the indices taken and skipped. -/
structure Bag where
  accs  : List Acc
  maxs  : List XV
  valid : Nat
  skip  : Nat

/-- One index position of a bag. -/
def bagStep (b : List Byte) (pos : Nat) (s : Bag) : Prog Bag :=
  let dim := u32 b 104
  let tf := u8 b 112
  let pool := u8 b 114
  (readIndex (u64 b 56) pos (u8 b 115)).bind fun i =>
  if i < 0 ∨ i ≥ (u64 b 88 : Int) then .ret { s with skip := s.skip + 1 }
  else
    (Prog.read (u64 b 48 + i.toNat * u32 b 108) (rowBytes tf dim)).bind fun row =>
    (if pool = 3 then (Prog.num (u64 b 72 + 4 * pos) 4).bind fun w => .ret (f32 w) else .ret (XV.ofInt 1)).bind fun w =>
    let vals := (List.range dim).map (rowElem tf dim row)
    .ret { s with
      accs := if pool = 2 then s.accs else s.accs.zipWith (fun a v => a.add (if pool = 3 then w.mul v else v)) vals,
      maxs := if pool ≠ 2 then s.maxs else if s.valid = 0 then vals else s.maxs.zipWith XV.maxOf vals,
      valid := s.valid + 1 }

/-- The output bytes of a bag (R314, R361). -/
def bagOut (b : List Byte) (bag : Nat) (s : Bag) : List Byte :=
  let dim := u32 b 104
  let ff := ffOf (u8 b 113)
  (List.range dim).flatMap fun j =>
    let p := bag * dim + j
    codeBytes (u8 b 113) (
      if s.valid = 0 then 0
      else if u8 b 114 = 2 then ff.ofXV (rnd b) p (s.maxs.getD j .nan)
      else (s.accs.getD j Acc.zero).quot ff (rnd b) p (if u8 b 114 = 1 then s.valid else 1) 1)

/-- The extent of a bag: its first index position and their number (R314). -/
def bagRange (b : List Byte) (bag : Nat) : Prog (Nat × Nat) :=
  if u8 b 116 = 0 then .ret (bag * u32 b 100, u32 b 100)
  else
    (readIndex (u64 b 64) bag (u8 b 115)).bind fun lo =>
    (readIndex (u64 b 64) (bag + 1) (u8 b 115)).bind fun hi =>
    if lo < 0 ∨ hi < lo then .fail .malformed else .ret (lo.toNat, (hi - lo).toNat)

/-- A unit of GATHER_REDUCE: 8 consecutive bags. -/
def gatherProg (x : UnitIn) : Prog UnitOut :=
  let b := x.b
  let dim := u32 b 104
  let first := 8 * x.u
  (Prog.loop (min 8 (u32 b 96 - first)) first (([], 0) : List Byte × Nat) fun bag s =>
    (bagRange b bag).bind fun (lo, n) =>
    (Prog.loop n lo (⟨List.replicate dim Acc.zero, [], 0, 0⟩ : Bag) (bagStep b)).bind fun g =>
    .ret (s.1 ++ bagOut b bag g, s.2 + g.skip)).bind fun s =>
  .ret (placeOut (u64 b 80) (first * rowBytes (u8 b 113) dim) s.1 { add := [(0, s.2)] })

/-- The indices that a unit of GATHER_REDUCE skips, without its rows (R342). -/
def gatherSkips (b : List Byte) (u : Nat) : Prog (List (Nat × Nat)) :=
  (Prog.loop (min 8 (u32 b 96 - 8 * u)) (8 * u) 0 fun bag s =>
    (bagRange b bag).bind fun (lo, n) =>
    Prog.loop n lo s fun pos s => (readIndex (u64 b 56) pos (u8 b 115)).bind fun i =>
      .ret (if i < 0 ∨ i ≥ (u64 b 88 : Int) then s + 1 else s)).bind fun s => .ret [(0, s)]

/-! ### SCATTER_UPDATE (R315 to R317) -/

/-- Whether a unit owns a row (R316). -/
def ownsRow (b : List Byte) (u r : Nat) : Bool := r / 256 % groups (u32 b 88) == u

/-- The combined gradients of a unit's rows, and the entries with invalid indices (R316). -/
def scatterGrads (b : List Byte) (u : Nat) : Prog (Tbl (List Acc) × Nat) :=
  let dim := u32 b 92
  let gf := u8 b 125
  Prog.loop (u32 b 88) 0 (([], 0) : Tbl (List Acc) × Nat) fun k s =>
    (readIndex (u64 b 56) k (u8 b 126)).bind fun i =>
    if i < 0 ∨ i ≥ (u64 b 80 : Int) then .ret (s.1, s.2 + 1)
    else if !ownsRow b u i.toNat then .ret s
    else
      (Prog.read (u64 b 64 + k * rowBytes gf dim) (rowBytes gf dim)).bind fun row =>
      let old := Tbl.get (List.replicate dim Acc.zero) s.1 i.toNat
      .ret (Tbl.put i.toNat (old.zipWith Acc.add ((List.range dim).map (rowElem gf dim row))) s.1, s.2)

/-- The update of a row under the rule (R317): the new row codes and the new state words. -/
def updateRow (b : List Byte) (r : Nat) (w : List XV) (g : List Acc) (st : List Nat) : List Nat × List Nat :=
  let dim := u32 b 92
  let ff := ffOf (u8 b 124)
  let lr := f32 (u32 b 104)
  let eps := f32 (u32 b 108)
  let idx := List.range dim
  let final (j : Nat) (x : XV) : Nat := ff.ofXV (rnd b) (r * dim + j) x
  let wj (j : Nat) : XV := w.getD j .nan
  let gx (j : Nat) : XV := (g.getD j Acc.zero).value
  let gr (j : Nat) : XV := f32 ((g.getD j Acc.zero).readout .fp32 .nearest 0)
  let gc (j : Nat) : Nat := (g.getD j Acc.zero).readout .fp32 .nearest 0
  let zero : XV := .fin false 0 0
  match u8 b 127 with
  | 0 => (idx.map fun j => final j ((wj j).plus ((gx j).plus zero)), [])
  | 1 => (idx.map fun j => final j ((wj j).plus ((lr.mul (gx j)).negate)), [])
  | 2 =>
    let sq := (Acc.ofTerms (idx.map fun j => (gr j).mul (gr j))).quot .fp32 .nearest 0 dim 1
    let s := rnSum [f32 (st.getD 0 0), f32 sq]
    let den := rnSum [f32 (sqrt32 s), eps]
    (idx.map fun j => final j ((wj j).plus ((lr.mul (f32 (div32 (gc j) den))).negate)), [s])
  | _ =>
    let be1 := u32 b 112
    let be2 := u32 b 116
    let one := XV.ofInt 1
    let c1 := f32 (rnSum [one, (f32 be1).negate])
    let c2 := f32 (rnSum [one, (f32 be2).negate])
    let b1 := rnSum [one, (f32 (powr32 be1 (u32 b 120))).negate]
    let b2 := rnSum [one, (f32 (powr32 be2 (u32 b 120))).negate]
    let ms := idx.map fun j => rnSum [(f32 be1).mul (f32 (st.getD j 0)), c1.mul (gr j)]
    let vs := idx.map fun j => rnSum [(f32 be2).mul (f32 (st.getD (dim + j) 0)), c2.mul (f32 (rnSum [(gr j).mul (gr j)]))]
    let ws := idx.map fun j =>
      let den := rnSum [f32 (sqrt32 (div32 (vs.getD j 0) b2)), eps]
      final j ((wj j).plus ((lr.mul (f32 (div32 (div32 (ms.getD j 0) b1) den))).negate))
    (ws, ms ++ vs)

/-- A unit of SCATTER_UPDATE: every row it owns, updated once. -/
def scatterProg (x : UnitIn) : Prog UnitOut :=
  let b := x.b
  let dim := u32 b 92
  let tf := u8 b 124
  let words := if u8 b 127 = 2 then 1 else if u8 b 127 = 3 then 2 * dim else 0
  (scatterGrads b x.u).bind fun (rows, skip) =>
  (Prog.each rows ({ add := [(0, rows.length), (1, if x.u = 0 then skip else 0)] } : UnitOut) fun (r, g) o =>
    let wa := u64 b 48 + r * u32 b 96
    let sa := u64 b 72 + r * u32 b 100
    (Prog.read wa (rowBytes tf dim)).bind fun row =>
    (Prog.read sa (4 * words)).bind fun stb =>
    let (ws, ss) := updateRow b r ((List.range dim).map (rowElem tf dim row)) g ((List.range words).map fun i => leAt stb (4 * i) 4)
    let outs : List WOp := [.put wa (ws.flatMap (codeBytes tf))] ++ (if ss.isEmpty then [] else [.put sa (ss.flatMap (leBytes 4))])
    .ret { o with outs := o.outs ++ outs })

/-- What a unit of SCATTER_UPDATE adds to RESULT, without its update (R342). -/
def scatterCounts (b : List Byte) (u : Nat) : Prog (List (Nat × Nat)) :=
  (Prog.loop (u32 b 88) 0 (([], 0) : List Nat × Nat) fun k s =>
    (readIndex (u64 b 56) k (u8 b 126)).bind fun i =>
    .ret (if i < 0 ∨ i ≥ (u64 b 80 : Int) then (s.1, s.2 + 1)
      else if ownsRow b u i.toNat then (NSet.insert i.toNat s.1, s.2) else s)).bind fun s =>
  .ret [(0, s.1.length), (1, if u = 0 then s.2 else 0)]

/-! ### ATTEND (R318, R319) -/

/-- The chunks of 1,024 tokens. -/
def attChunks (b : List Byte) : Nat := ceilDiv (u32 b 80) 1024

/-- The rows of the heads of a KV head's group. -/
def attQueries (b : List Byte) (k : Nat) : Prog (List (Nat × List XV)) :=
  let g := u8 b 88 / u8 b 89
  let hd := u16 b 90
  let rb := rowBytes (u8 b 92) hd
  Prog.loop g (k * g) ([] : List (Nat × List XV)) fun h l =>
    (Prog.read (u64 b 48 + h * rb) rb).bind fun row => .ret (l ++ [(h, (List.range hd).map (rowElem (u8 b 92) hd row))])

/-- The key row, or the value row, of a token for a KV head (R318). -/
def attRow (b : List Byte) (k t : Nat) (value : Bool) : Prog (List XV) :=
  let hd := u16 b 90
  let rb := rowBytes (u8 b 93) hd
  (Prog.num (u64 b 56 + 8 * (t / 64)) 8).bind fun blk =>
  (Prog.read (blk + k * 128 * rb + (if value then 64 * rb else 0) + t % 64 * rb) rb).bind fun row =>
  .ret ((List.range hd).map (rowElem (u8 b 93) hd row))

/-- The dot product of two rows, exact. -/
def dotOf (a c : List XV) : Acc := Acc.ofTerms (a.zipWith XV.mul c)

/-- s[t] of a head (R319): one rounding. -/
def attScore (b : List Byte) (q k : List XV) : Nat := rn32 (((f32 (u32 b 84)).mul (dotOf q k).value).plus (.fin false 0 0))

/-- The greater of two FP32 codes, NaN when either is. -/
def maxCode32 (a c : Nat) : Nat := rn32 ((f32 a).maxOf (f32 c))

/-- A unit of ATTEND. -/
def attendProg (x : UnitIn) : Prog UnitOut :=
  let b := x.b
  let n := attChunks b
  let n1 := u8 b 89 * n
  let hd := u16 b 90
  let g := u8 b 88 / u8 b 89
  let m (h : Nat) : Nat := (Tbl.get 0xFF800000 x.op.maxima (x.pk h)).toNat
  if x.u < 2 * n1 then
    let v := x.u % n1
    let k := v / n
    let t0 := v % n * 1024
    let cnt := min 1024 (u32 b 80 - t0)
    (attQueries b k).bind fun qs =>
    if x.u < n1 then
      (Prog.loop cnt t0 (qs.map fun q => (q.1, 0xFF800000)) fun t l =>
        (attRow b k t false).bind fun kr => .ret ((l.zip qs).map fun (a, q) => (a.1, maxCode32 a.2 (attScore b q.2 kr)))).bind fun l =>
      .ret { parts := l.map fun a => .max a.1 (BitVec.ofNat 32 a.2) }
    else
      (Prog.loop cnt t0 (qs.map fun q => (q.1, List.replicate (hd + 1) Acc.zero)) fun t l =>
        (attRow b k t false).bind fun kr =>
        (attRow b k t true).bind fun vr =>
        .ret ((l.zip qs).map fun (a, q) =>
          let e := f32 (exp32 (rnSum [f32 (attScore b q.2 kr), (f32 (m q.1)).negate]))
          (a.1, a.2.zipWith Acc.add ((vr.map fun y => e.mul y) ++ [e])))).bind fun l =>
      .ret { parts := l.flatMap fun a => a.2.zipIdx.map fun y => .acc (a.1 * (hd + 1) + y.2) y.1 }
  else
    let k := x.u - 2 * n1
    let ff := ffOf (u8 b 94)
    let rb := rowBytes (u8 b 94) hd
    let out (h : Nat) : List Byte :=
      let dead := match f32 (m h) with | .fin _ _ _ => false | _ => true
      let z := Tbl.get Acc.zero x.op.accs (x.pk (h * (hd + 1) + hd))
      (List.range hd).flatMap fun j =>
        let a := Tbl.get Acc.zero x.op.accs (x.pk (h * (hd + 1) + j))
        codeBytes (u8 b 94) (if dead then ff.nanCode else a.quot ff (rnd b) (h * hd + j) z.v.natAbs (2 ^ 320))
    .ret { outs := (List.range g).map fun i => .put (u64 b 64 + (k * g + i) * rb) (out (k * g + i)) }

/-! ### SCAN_SCORE_TOPK (R320, R321) -/

/-- The ID of a vector (R320). -/
def scanId (b : List Byte) (i : Nat) : Nat := (u64 b 72 + i) % 2 ^ 64

/-- Whether an entry ranks before another (R321). -/
def ranksBefore (b : List Byte) (a c : TopEnt) : Bool :=
  let lower := decide (scanId b a.index < scanId b c.index)
  if a.score.isNan then c.score.isNan && lower
  else if c.score.isNan then true
  else if a.score.below c.score then u8 b 101 == 1
  else if c.score.below a.score then u8 b 101 == 0
  else lower

/-- Insert an entry into a ranked list of at most K. -/
def topInsert (b : List Byte) (k : Nat) (e : TopEnt) (l : List TopEnt) : List TopEnt :=
  (l.filter (fun x => ranksBefore b x e) ++ e :: l.filter fun x => !ranksBefore b x e).take k

/-- The rows of the queries. -/
def scanQueries (b : List Byte) : Prog (List (List XV)) :=
  let dim := u32 b 88
  let rb := rowBytes (u8 b 100) dim
  Prog.loop (u8 b 98) 0 ([] : List (List XV)) fun q l =>
    (Prog.read (u64 b 56 + q * rb) rb).bind fun row => .ret (l ++ [(List.range dim).map (rowElem (u8 b 100) dim row)])

/-- The exact score of a vector for a query (R321). -/
def scoreOf (b : List Byte) (q v : List XV) : Acc :=
  if u8 b 101 = 0 then dotOf q v
  else Acc.ofTerms ((q.zip v).flatMap fun (a, c) => [a.mul a, ((XV.ofInt (-2)).mul a).mul c, c.mul c])

/-- A vector's row. -/
def scanRow (b : List Byte) (i : Nat) : Prog (List XV) :=
  let dim := u32 b 88
  (Prog.read (u64 b 48 + i * u32 b 92) (rowBytes (u8 b 99) dim)).bind fun row => .ret ((List.range dim).map (rowElem (u8 b 99) dim row))

/-- The ranked lists of vectors of a range, merged into given lists. -/
def scanRange (b : List Byte) (qs : List (List XV)) (ids : List Nat) (start : List (List TopEnt)) : Prog (List (List TopEnt)) :=
  Prog.each ids start fun i l => (scanRow b i).bind fun v =>
    .ret ((l.zip qs).map fun (t, q) => topInsert b (u16 b 96) ⟨scoreOf b q v, i⟩ t)

/-- A unit of SCAN_SCORE_TOPK. -/
def scanProg (x : UnitIn) : Prog UnitOut :=
  let b := x.b
  let k := u16 b 96
  let n1 := ceilDiv (u64 b 80) 65536
  if x.u < n1 then
    let first := x.u * 65536
    let cnt := min 65536 (u64 b 80 - first)
    (scanQueries b).bind fun qs =>
    (scanRange b qs ((List.range cnt).map fun i => first + i) (qs.map fun _ => [])).bind fun l =>
    .ret { parts := l.zipIdx.map fun y => .top y.2 y.1, add := [(0, cnt)] }
  else
    let entry (q r : Nat) (e : Option TopEnt) : List Byte := match e with
      | some e => leBytes 8 (scanId b e.index) ++ leBytes 4 (e.score.readout .fp32 (rnd b) (q * k + r)) ++ leBytes 4 0
      | none => leBytes 8 (2 ^ 64 - 1) ++ leBytes 4 (if u8 b 101 = 0 then 0xFF800000 else 0x7F800000) ++ leBytes 4 0
    .ret { outs := (List.range (u8 b 98)).map fun q =>
      let l := Tbl.get [] x.op.tops (x.pk q);
      WOp.put (u64 b 64 + 16 * q * k) ((List.range k).flatMap fun r => entry q r l[r]?) }

/-! ### HASH_PROBE (R322, R323) -/

/-- The EMPTY marker. -/
def emptyKey : Nat := 2 ^ 64 - 1
/-- The keyed hash of a key (R323). -/
def keyHash (hk : BitVec 128) (k : Nat) : Nat := (sipHash hk (leBytes 8 k)).toNat
/-- Bytes of a value. -/
def valBytes (b : List Byte) : Nat := 2 ^ u8 b 93 - 8
/-- The number of slots probed. -/
def maxProbe (b : List Byte) : Nat := if u8 b 95 = 0 then 64 else u8 b 95
/-- The slot of a probe. -/
def probeSlot (b : List Byte) (h i : Nat) : Nat := (h + i) % 2 ^ u8 b 92
/-- The address of a slot. -/
def slotVa (b : List Byte) (s : Nat) : Nat := u64 b 48 + s * 2 ^ u8 b 93
/-- Whether a unit handles a key (R323). -/
def ownsKey (b : List Byte) (h u : Nat) : Bool := h / 2 ^ 48 % groups (u32 b 88) == u

/-- The outcome of a probe (R323): ABSENT, FOUND, INSERTED or NOT_DONE, by code, and the slot. -/
abbrev ProbeEnd := Nat × Nat

/-- Probe for a key; INSERT claims an EMPTY slot by CAS and then writes the value (R323). -/
def probeGo (b : List Byte) (key h : Nat) (ins : Option (List Byte)) : Nat → Nat → Prog ProbeEnd
  | 0, _ => .ret (if ins.isSome then (3, 0) else (0, 0))
  | n + 1, i =>
    let s := probeSlot b h i
    (Prog.num (slotVa b s) 8).bind fun v =>
    if v = key then .ret (1, s)
    else if v = emptyKey then
      match ins with
      | none => .ret (0, 0)
      | some value =>
        (Prog.need (.acc (Prog.at_ (slotVa b s)) (.update 2 true (leBytes 8 emptyKey ++ leBytes 8 key)) false)).bind fun old =>
        if leNat old = emptyKey then (Prog.write (slotVa b s + 8) value).bind fun _ => .ret (2, s)
        else if leNat old = key then .ret (1, s)
        else probeGo b key h ins n (i + 1)
    else probeGo b key h ins n (i + 1)

/-- The outcome word and, with VOUT_EN, the value returned for a key (R323). -/
def probeOuts (b : List Byte) (pos : Nat) (e : ProbeEnd) : Prog (List WOp) :=
  let word : WOp := .put (u64 b 72 + 8 * pos) (leBytes 8 ((if e.1 = 1 ∨ e.1 = 2 then e.2 else 0) + e.1 * 2 ^ 40))
  if u8 b 96 = 0 then .ret [word]
  else
    (if e.1 = 1 then Prog.read (slotVa b e.2 + 8) (valBytes b) else .ret (List.replicate (valBytes b) 0)).bind fun v =>
    .ret [word, .put (u64 b 80 + pos * valBytes b) v]

/-- What an outcome adds to RESULT (R308). -/
def probeAdds (e : ProbeEnd) : List (Nat × Nat) := if e.1 = 1 ∨ e.1 = 2 then [(0, 1)] else if e.1 = 3 then [(1, 1)] else []

/-- A unit of HASH_PROBE: LOOKUP probes at once; INSERT leaves the probe to the mover. -/
def hashProg (x : UnitIn) : Prog UnitOut :=
  let b := x.b
  Prog.loop (u32 b 88) 0 ({} : UnitOut) fun k o =>
    (Prog.num (u64 b 56 + 8 * k) 8).bind fun key =>
    let h := keyHash x.key key
    if !ownsKey b h x.u then .ret o
    else if key = emptyKey then (probeOuts b k (3, 0)).bind fun w => .ret { o with outs := o.outs ++ w, add := o.add ++ [(1, 1)] }
    else if u8 b 94 = 1 then
      (Prog.read (u64 b 64 + k * valBytes b) (valBytes b)).bind fun v => .ret { o with outs := o.outs ++ [.insert k (BitVec.ofNat 64 key) v] }
    else
      (probeGo b key h none (maxProbe b) 0).bind fun e =>
      (probeOuts b k e).bind fun w => .ret { o with outs := o.outs ++ w, add := o.add ++ probeAdds e }

/-- What a done unit of HASH_PROBE added to RESULT, from its outcome words (R342). -/
def hashCounts (b : List Byte) (hk : BitVec 128) (u : Nat) : Prog (List (Nat × Nat)) :=
  Prog.loop (u32 b 88) 0 ([] : List (Nat × Nat)) fun k l =>
    (Prog.num (u64 b 56 + 8 * k) 8).bind fun key =>
    if !ownsKey b (keyHash hk key) u then .ret l
    else (Prog.num (u64 b 72 + 8 * k) 8).bind fun w => .ret (l ++ probeAdds (bits w 41 40, 0))

/-! ### FILTER (R324, R325) -/

/-- Whether a comparison holds between two numbers in order. -/
def cmpHolds_ (c : Nat) (lt eq_ : Bool) : Bool :=
  match c with
  | 0 => eq_ | 1 => !eq_ | 2 => lt | 3 => lt || eq_ | 4 => !lt && !eq_ | _ => !lt

/-- Whether a clause holds on a record (R324). -/
def clauseHolds (b : List Byte) (at_ : Nat) (rec_ : List Byte) : Bool :=
  let off := u16 b at_
  let ty := u8 b (at_ + 2)
  let c := u8 b (at_ + 3)
  let size := if ty = 0 ∨ ty = 2 ∨ ty = 4 then 4 else if ty = 5 then 2 else 8
  let v := leAt rec_ off size
  let k := leAt b (at_ + 8) size
  if ty ≥ 4 then
    let f := if ty = 4 then Ff.fp32 else Ff.bf16
    let x := f.value v
    let y := f.value k
    if x.isNan || y.isNan then c == 1
    else
      let same := (x.isZero && y.isZero) || (!x.lt y && !y.lt x)
      cmpHolds_ c (x.lt y && !same) same
  else if c = 6 then v &&& k != 0
  else if c = 7 then v &&& k == 0
  else
    let sg := decide (ty ≤ 1)
    let x : Int := if sg then sInt (8 * size) v else v
    let y : Int := if sg then sInt (8 * size) k else k
    cmpHolds_ c (decide (x < y)) (decide (x = y))

/-- Whether a record survives, its mask byte apart (R325). -/
def recordHolds (b : List Byte) (rec_ : List Byte) : Bool :=
  let n := u8 b 83
  if n = 0 then true
  else
    let a := clauseHolds b 88 rec_
    if n = 1 then a else if bits (u8 b 82) 1 1 = 1 then a || clauseHolds b 104 rec_ else a && clauseHolds b 104 rec_

/-- The survivors among records of a unit: their bytes and number. -/
def survivors (b : List Byte) (first n : Nat) (src : Option (List Byte)) : Prog (List Byte × Nat) :=
  let rb := u16 b 80
  Prog.loop n 0 (([], 0) : List Byte × Nat) fun i s =>
    (match src with
     | some l => Prog.ret (sub l (i * rb) rb)
     | none => Prog.read (u64 b 48 + (first + i) * rb) rb).bind fun r =>
    (if bits (u8 b 82) 0 0 = 1 then Prog.num (u64 b 56 + first + i) 1 else .ret 1).bind fun mk =>
    .ret (if mk ≠ 0 ∧ recordHolds b r then (s.1 ++ r, s.2 + 1) else s)

/-- A unit of FILTER: pass 1 counts; pass 2 writes; a reader of a local buffer does both in its one pass (R312). -/
def filterProg (x : UnitIn) : Prog UnitOut :=
  let b := x.b
  let sl := x.shape.slice
  match lb (u64 b 48) with
  | some n =>
    let first := x.u * sl
    (survivors b first (min sl (u64 b 72 - first)) (some (Tbl.get [] x.lbs n))).bind fun s =>
    .ret { outs := [.tail s.1], parts := [.count x.u s.2], add := [(0, s.2)] }
  | none =>
    let n1 := ceilDiv (u64 b 72) 16384
    let v := x.u % n1
    let first := v * 16384
    (survivors b first (min 16384 (u64 b 72 - first)) none).bind fun s =>
    .ret (if x.u < n1 then { parts := [.count x.u s.2], add := [(0, s.2)] } else { outs := [.tail s.1] })

/-! ### MAP (R326, R327) -/

/-- An input element as a register holds it (R327). -/
def mapLoad (fmt : Nat) (v : Nat) : Word32 :=
  if fmt = 0x0C then BitVec.ofInt 32 (sInt 8 v) else if fmt = 0x0D ∨ fmt = 0 then BitVec.ofNat 32 v
  else BitVec.ofNat 32 (rn32 ((ffOf fmt).value v))

/-- A register as an output element (R327). -/
def mapStore (fmt : Nat) (r : Rnd) (p : Nat) (w : Word32) : Nat :=
  if fmt = 0x0D then w.toNat
  else if fmt = 0x0C then (BitVec.ofInt 8 (max (-128) (min 127 w.toInt))).toNat
  else (ffOf fmt).ofXV r p (f32 w.toNat)

/-- Run the microprogram on one element. -/
def mapElem (x : UnitIn) (regs : Tbl Word32) : Micro :=
  let b := x.b
  let m : Micro := { regs := regs, consts := (List.range 16).map fun i => (i, BitVec.ofNat 32 (leAt x.mem.aux (4 * i) 4)),
                     bounds := (List.range (u16 b 120)).map fun i => BitVec.ofNat 32 (leAt x.mem.aux (64 + 4 * i) 4), part := x.op.part }
  (List.range (u8 b 112)).foldl (fun m i => match Micro.run x.key (leAt x.mem.prog (4 * i) 4) with | some f => f m | none => m) m

/-- A unit of MAP. -/
def mapProg (x : UnitIn) : Prog UnitOut :=
  let b := x.b
  let sl := x.shape.slice
  let first := x.u * sl
  let n := min sl (u64 b 104 - first)
  (Prog.each (mapIns b) ([] : List (Nat × List Byte)) fun (a, f) l =>
    (match lb a with
     | some k => Prog.ret (Tbl.get [] x.lbs k)
     | none => Prog.read (a + first * fmtSize f) (n * fmtSize f)).bind fun bytes => .ret (l ++ [(f, bytes)])).bind fun ins =>
  let elem (i : Nat) : Micro :=
    let regs := ins.zipIdx.foldl (fun (t : Tbl Word32) y => Tbl.set 0 y.2 (mapLoad y.1.1 (leAt y.1.2 (i * fmtSize y.1.1) (fmtSize y.1.1))) t) []
    mapElem x regs
  let ms := (List.range n).map elem
  let outs := (mapOuts b).zipIdx.foldl (fun (o : UnitOut) y =>
    let ((a, f), k) := y
    let bytes := ms.zipIdx.flatMap fun z => codeBytes f (mapStore f (rnd b) (first + z.2 + k * 2 ^ 56) (z.1.r ⟨14 + k % 2, by omega⟩))
    placeOut a (first * fmtSize f) bytes o) ({} : UnitOut)
  .ret { outs with micro := ms.getLast? }

/-! ### COPY, MOVE, FILL and ATOMIC_BATCH (R329 to R333) -/

/-- Read source bytes line by line: none when a line is poisoned (R253). -/
def readPoison (va n : Nat) (near : Bool) : Prog (Option (List Byte)) :=
  let first := va / 64
  (Prog.loop ((va + n - 1) / 64 - first + 1) 0 (some ([] : List Byte)) fun i l =>
    .ask (.acc (Prog.at_ ((first + i) * 64)) .read near) fun x =>
      if x.1 = .ok then .ret (l.map fun y => y ++ x.2) else if x.1 = .poisoned then .ret none else .fail x.1).bind fun l =>
  .ret (l.map fun y => sub y (va % 64) n)

/-- The copy of a range: one entry for each destination line. -/
def copyRange (src dst n : Nat) (near : Bool) : Prog UnitOut :=
  let l0 := dst / 64
  Prog.loop (if n = 0 then 0 else (dst + n - 1) / 64 - l0 + 1) 0 ({} : UnitOut) fun i o =>
    let lo := max dst ((l0 + i) * 64)
    let hi := min (dst + n) ((l0 + i + 1) * 64)
    (readPoison (src + (lo - dst)) (hi - lo) near).bind fun r =>
    .ret (match r with
      | some bytes => { o with outs := o.outs ++ [.put lo bytes] }
      | none => { o with outs := o.outs ++ [.bad ((l0 + i) * 64)], poisoned := true })

/-- A unit of COPY or of pass 1 of MOVE: 1 MiB of destination, or the slice of a local buffer. -/
def copyProg (x : UnitIn) : Prog UnitOut :=
  let b := x.b
  let sl := x.shape.slice
  let first := x.u * sl
  let n := min sl (u64 b 64 - first)
  match lb (u64 b 48) with
  | some k => .ret { outs := [.put (u64 b 56 + first) (Tbl.get [] x.lbs k)], add := [(0, n)] }
  | none => (copyRange (u64 b 48 + first) (u64 b 56 + first) n (op b == 0x11)).bind fun o => .ret { o with add := [(0, n)] }

/-- A unit of MOVE. -/
def moveProg (x : UnitIn) : Prog UnitOut :=
  let b := x.b
  let n1 := ceilDiv (u64 b 64) (2 ^ 20)
  if x.u < n1 then copyProg x
  else
    let first := (x.u - n1) * 2 ^ 20
    Prog.ret { outs := [.clear (u64 b 48 + first) (min (2 ^ 20) (u64 b 64 - first))] }

/-- A unit of FILL. -/
def fillProg (x : UnitIn) : Prog UnitOut :=
  let b := x.b
  let first := x.u * 2 ^ 20
  let n := min (2 ^ 20) (u64 b 56 - first)
  Prog.ret { outs := [.put (u64 b 48 + first) ((List.range n).map fun j => BitVec.ofNat 8 (u8 b (64 + (first + j) % u8 b 72)))], add := [(0, n)] }

/-- A unit of ATOMIC_BATCH. -/
def atomicProg (x : UnitIn) : Prog UnitOut :=
  let b := x.b
  let first := x.u * 4096
  Prog.loop (min 4096 (u32 b 64 - first)) first ({} : UnitOut) fun i o =>
    (Prog.read (u64 b 48 + 16 * i) 16).bind fun e => .ret { o with outs := o.outs ++ [.atomic i (u64 e 0) (sub e 8 8)] }

/-! ### The compute and the write phase -/

/-- The program of a member's compute phase. -/
def unitProg (x : UnitIn) : Prog UnitOut :=
  match op x.b with
  | 0x01 => gatherProg x
  | 0x02 => scatterProg x
  | 0x03 => attendProg x
  | 0x04 => scanProg x
  | 0x05 => hashProg x
  | 0x06 => filterProg x
  | 0x07 => mapProg x
  | 0x10 => copyProg x
  | 0x11 => moveProg x
  | 0x12 => fillProg x
  | _ => atomicProg x

/-- What a done unit added to RESULT, for the operation that a RESTORE_STATE carries on (R342). -/
def unitAdds (b : List Byte) (hk : BitVec 128) (u : Nat) (counts : Tbl Nat) : Prog (List (Nat × Nat)) :=
  match op b with
  | 0x01 => gatherSkips b u
  | 0x02 => scatterCounts b u
  | 0x04 => .ret (if u < ceilDiv (u64 b 80) 65536 then [(0, min 65536 (u64 b 80 - u * 65536))] else [])
  | 0x05 => hashCounts b hk u
  | 0x06 => .ret [(0, Tbl.get 0 counts u)]
  | 0x10 => .ret [(0, min (2 ^ 20) (u64 b 64 - u * 2 ^ 20))]
  | 0x12 => .ret [(0, min (2 ^ 20) (u64 b 56 - u * 2 ^ 20))]
  | 0x13 => .ret [(0, min 4096 (u32 b 64 - u * 4096))]
  | _ => .ret []

/-- Make a range of the source of a MOVE read as zeros (R184): blocks of a tiered extent are dropped, lines of a pinned one written. -/
def clearProg (va len : Nat) : Prog Unit :=
  Prog.loop (len / 65536) 0 () fun i _ =>
    let a := va + i * 65536
    (Prog.need (.block a 5)).bind fun r =>
    if leNat r = 1 then (Prog.need (.block a 4)).bind fun _ => .ret ()
    else Prog.loop 1024 0 () fun j _ => (Prog.need (.acc (Prog.at_ (a + 64 * j)) (.write 0 false) true)).bind fun _ => .ret ()

/-- What the mover does for one piece of a unit's write phase (R288), and what it adds to RESULT. -/
def moverProg (x : UnitIn) (w : WOp) : Prog (List (Nat × Nat)) :=
  let b := x.b
  match w with
  | .put va bytes => (Prog.write va bytes).bind fun _ => .ret []
  | .bad va => (Prog.need (.acc (Prog.at_ va) (.write 0 true) false)).bind fun _ => .ret []
  | .insert pos key value =>
    (probeGo b key.toNat (keyHash x.key key.toNat) (some value) (maxProbe b) 0).bind fun e =>
    (probeOuts b pos e).bind fun l =>
    (Prog.each l () fun w _ => match w with | .put va bytes => Prog.write va bytes | _ => .ret ()).bind fun _ => .ret (probeAdds e)
  | .atomic pos va operand =>
    let wide : Bool := u8 b 69 == 1
    if va % (if wide then 8 else 4) ≠ 0 then .fail .malformed
    else
      (Prog.need (.acc (Prog.at_ va) (.update (BitVec.ofNat 4 (u8 b 68)) wide (operand.take (if wide then 8 else 4))) false)).bind fun old =>
      (if u8 b 70 = 1 then Prog.write (u64 b 56 + 8 * pos) (leBytes 8 (leNat old)) else .ret ()).bind fun _ => .ret [(0, 1)]
  | .clear va len => (clearProg va len).bind fun _ => .ret []
  | .tail bytes =>
    let lower := if x.shape.passes.length = 2 then x.u - ceilDiv (u64 b 72) 16384 else x.u
    let before := ((List.range lower).map fun v => Tbl.get 0 x.op.counts (x.pk v)).sum
    (Prog.write (u64 b 64 + before * u16 b 80) bytes).bind fun _ => .ret []

/-- Whether a piece of a unit's write phase can be done: survivors are placed once every lower unit has been counted (R325). -/
def moverReady (x : UnitIn) : WOp → Bool
  | .tail _ =>
    let lower := if x.shape.passes.length = 2 then x.u - ceilDiv (u64 x.b 72) 16384 else x.u
    (List.range lower).all fun v => (Tbl.find x.op.counts (x.pk v)).isSome
  | _ => true

end Sys2Proof.Machine
end

