-- ==== Sys2Proof/Machine/UnitRun.lean ====
section
/-! DEFINITION. The units of an operation as they run: the compute phase of each operation, the write phase of the mover, and the end of a
unit and of its operation (R286 to R290, R308, R309). -/

namespace Sys2Proof.Machine

namespace Dev

/-- Change a unit that is taken. -/
def modUnit (id u : Nat) (f : UnitSt → UnitSt) (d : Dev) : Dev := d.modOp id fun o => { o with units := Tbl.upd u f o.units }

/-- What a unit's program knows. -/
def unitIn (d : Dev) (o : Op) (m u : Nat) (x : UnitSt) : UnitIn := ⟨o, m, u, d.hashKeyOf o.part, x.lbs⟩

/-- A member's compute phase has ended for a unit: its buffers and the mover's work are kept; the counts of FILTER are known at once. -/
def memberDone (o : Op) (m u : Nat) (r : UnitOut) (d : Dev) : Dev :=
  let counts := r.parts.filterMap fun p => match p with | .count k n => some (m * 2 ^ 40 + k, n) | _ => none
  let d := d.modOp o.id fun o => { o with counts := counts.foldl (fun t y => Tbl.put y.1 y.2 t) o.counts }
  let d := match r.micro with | some mi => { d with micro := mi } | none => d
  d.modUnit o.id u fun x =>
    { x with member := m + 1, trace := [], acc := none, phase := if m + 1 = o.run.length then .ready else .compute,
             lbs := r.lbs.foldl (fun t y => Tbl.put y.1 y.2 t) x.lbs, outs := x.outs ++ r.outs.map fun w => (m, w),
             add := x.add ++ r.add.map fun y => (m, y.1, y.2), parts := x.parts ++ r.parts.map fun p => (m, p),
             poisoned := x.poisoned || r.poisoned }

/-- Carry on the compute phase of a unit in a member of an operation (R288): reads only. -/
def unitCompute (opc id u : Nat) (d : Dev) : Dev :=
  match d.op? id with
  | none => d
  | some o =>
    match Tbl.find o.units u with
    | none => d
    | some x =>
      match d.phys x.core.val with
      | none => d
      | some ph =>
        if x.phase ≠ .compute ∨ o.state ≠ .running ∨ Desc.op (o.desc x.member) ≠ opc ∨ !d.coreRuns ph then d
        else
          let who : Engine := .core ⟨ph % 576, Nat.mod_lt _ (by decide)⟩ id
          match d.carryOn ⟨who, o.part, none⟩ (unitProg (d.unitIn o x.member u x)) x.trace x.acc with
          | (.waits, tr, acc, d) => d.modUnit id u fun x => { x with trace := tr, acc := acc }
          | (.failed st, _, _, d) => d.failUnit id x.member u st
          | (.done r, _, _, d) => d.memberDone o x.member u r

/-- Carry on the write phase of a unit on the bulk mover of its core's cluster (R288): the pieces are done one after another. -/
def moverRun : Nat → Nat → Nat → Dev → Dev
  | 0, _, _, d => d
  | n + 1, id, u, d =>
    match d.op? id with
    | none => d
    | some o =>
      match Tbl.find o.units u with
      | none => d
      | some x =>
        match x.outs with
        | [] => d
        | (m, w) :: rest =>
          let inp := d.unitIn o m u x
          if !moverReady inp w then d
          else
            let ckt := (o.ckts.find? fun y => y.1 == m).map fun y => y.2
            let cluster : Fin 36 := ⟨(d.phys x.core.val).getD 0 / 16 % 36, Nat.mod_lt _ (by decide)⟩
            match d.carryOn ⟨.mover cluster id, o.part, ckt⟩ (moverProg inp w) x.trace x.acc with
            | (.waits, tr, acc, d) => d.modUnit id u fun x => { x with trace := tr, acc := acc }
            | (.failed st, _, _, d) => d.failUnit id m u st
            | (.done l, _, _, d) =>
              moverRun n id u (d.modUnit id u fun x =>
                { x with outs := rest, trace := [], acc := none, add := x.add ++ l.map fun y => (m, y.1, y.2) })

/-- UNIT_WRITE_PHASE (R288): the compute phase is over and the mover issues the unit's writes. -/
def unitWrite (id u : Nat) (d : Dev) : Dev :=
  match d.op? id with
  | none => d
  | some o =>
    match Tbl.find o.units u with
    | none => d
    | some x =>
      if x.phase = .ready ∧ o.state = .running ∨ x.phase = .writing then moverRun carryMax id u (d.modUnit id u fun x => { x with phase := .writing })
      else d

/-- Merge a unit's partial result into its operation's (R352, R366). -/
def mergePart (o : Op) (y : Nat × Partial) : Op :=
  let key (k : Nat) : Nat := y.1 * 2 ^ 40 + k
  match y.2 with
  | .max k w =>
    { o with maxima := Tbl.put (key k) (BitVec.ofNat 32 (maxCode32 (Tbl.get 0xFF800000 o.maxima (key k)).toNat w.toNat)) o.maxima }
  | .acc k a => { o with accs := Tbl.put (key k) ((Tbl.get Acc.zero o.accs (key k)).merge a) o.accs }
  | .top k l =>
    let b := o.desc y.1
    { o with tops := Tbl.put (key k) (l.foldl (fun t e => topInsert b (Desc.u16 b 96) e t) (Tbl.get [] o.tops (key k))) o.tops }
  | .count _ _ => o

/-- An operation whose units are all done completes: OK, or POISONED where COPY or MOVE met poison (R253, R330). -/
def opFinish (id : Nat) (d : Dev) : Dev :=
  match d.op? id with
  | none => d
  | some o =>
    if o.state = .running ∧ o.unitRun ∧ o.done.length = o.total then
      let st (m : Nat) : Status := if o.poisoned ∧ (Desc.op (o.desc m) = 0x10 ∨ Desc.op (o.desc m) = 0x11) then .poisoned else .ok
      d.endOp id fun m => (st m, o.result m, 0)
    else d

/-- UNIT_DONE (R288): every write of the unit has been answered. -/
def unitDone (id u : Nat) (d : Dev) : Dev :=
  match d.op? id with
  | none => d
  | some o =>
    match Tbl.find o.units u with
    | none => d
    | some x =>
      if x.phase = .writing ∧ x.outs.isEmpty then
        let d := d.modOp id fun o =>
          let o := x.parts.foldl mergePart o
          { o with units := Tbl.drop u o.units, done := NSet.insert u o.done, results := o.results ++ x.add, poisoned := o.poisoned || x.poisoned }
        let d := d.idleFrom x.core
        d.opFinish id
      else d

end Dev

/-! ### Meanings -/

/-- UNIT_WRITE_PHASE (R288). -/
def execUnitWritePhase (o u : Nat) (s : State) : Host.Outcome State Fault Refusal := next (s.onDev (Dev.unitWrite o u))
/-- UNIT_DONE (R288). -/
def execUnitDone (o u : Nat) (s : State) : Host.Outcome State Fault Refusal := next (s.onDev (Dev.unitDone o u))
/-- GATHER_REDUCE (R314). -/
def execGatherReduce (o u : Nat) (s : State) : Host.Outcome State Fault Refusal := next (s.onDev (Dev.unitCompute 0x01 o u))
/-- SCATTER_UPDATE (R316). -/
def execScatterUpdate (o u : Nat) (s : State) : Host.Outcome State Fault Refusal := next (s.onDev (Dev.unitCompute 0x02 o u))
/-- ATTEND (R319). -/
def execAttend (o u : Nat) (s : State) : Host.Outcome State Fault Refusal := next (s.onDev (Dev.unitCompute 0x03 o u))
/-- SCAN_SCORE_TOPK (R321). -/
def execScanScoreTopk (o u : Nat) (s : State) : Host.Outcome State Fault Refusal := next (s.onDev (Dev.unitCompute 0x04 o u))
/-- HASH_PROBE (R323). -/
def execHashProbe (o u : Nat) (s : State) : Host.Outcome State Fault Refusal := next (s.onDev (Dev.unitCompute 0x05 o u))
/-- FILTER (R325). -/
def execFilter (o u : Nat) (s : State) : Host.Outcome State Fault Refusal := next (s.onDev (Dev.unitCompute 0x06 o u))
/-- MAP (R327). -/
def execMap (o u : Nat) (s : State) : Host.Outcome State Fault Refusal := next (s.onDev (Dev.unitCompute 0x07 o u))
/-- COPY (R330). -/
def execCopy (o u : Nat) (s : State) : Host.Outcome State Fault Refusal := next (s.onDev (Dev.unitCompute 0x10 o u))
/-- MOVE (R331). -/
def execMove (o u : Nat) (s : State) : Host.Outcome State Fault Refusal := next (s.onDev (Dev.unitCompute 0x11 o u))
/-- FILL (R332). -/
def execFill (o u : Nat) (s : State) : Host.Outcome State Fault Refusal := next (s.onDev (Dev.unitCompute 0x12 o u))
/-- ATOMIC_BATCH (R333). -/
def execAtomicBatch (o u : Nat) (s : State) : Host.Outcome State Fault Refusal := next (s.onDev (Dev.unitCompute 0x13 o u))

end Sys2Proof.Machine
end

