-- ==== Sys2Proof/Machine/OpsCtl.lean ====
section
/-! DEFINITION. The operations that the front end runs itself (R334 to R342): PUBLISH with the home's part of it (R81 to R83), ADVISE, FENCE,
SIGNAL, WAIT_COUNT, SAVE_STATE and RESTORE_STATE. -/

namespace Sys2Proof.Machine

namespace Dev

/-- The single descriptor of a running operation of the front end with an opcode. -/
def frontOp (d : Dev) (id opc : Nat) : Option (Op × Member × List Byte) :=
  match d.op? id with
  | some o =>
    (match o.members.head? with
     | some m => if o.state = .running ∧ Desc.op m.desc = opc ∧ o.restored.isNone then some (o, m, m.desc) else none
     | none => none)
  | none => none

/-- Whether every descriptor of the queue before an operation's has its record written (R336, R337). -/
def earlierWritten (d : Dev) (o : Op) (m : Member) : Bool :=
  let held := match d.queue? o.queue with | some q => q.held | none => []
  !((d.opsOf o.queue).any fun x => decide (x.id < o.id))
    && held.all fun h => let n := (m.index - h.index).toNat; decide (n = 0 ∨ n > 32768)

/-- An operation of the front end completes with a status and RESULT. -/
def frontEnds (id : Nat) (st : Status) (res : Nat) (d : Dev) : Dev := d.endOp id fun _ => (st, BitVec.ofNat 64 res, 0)

/-- The program of an operation of the front end is carried on; `f` follows its end. -/
def frontRun {α : Type} (o : Op) (p : Prog α) (f : α → Dev → Dev) (bad : Status → Dev → Dev) (d : Dev) : Dev :=
  match d.carryOn ⟨.frontEnd o.queue, o.part, none⟩ p o.trace o.acc with
  | (.waits, tr, acc, d) => d.modOp o.id fun o => { o with trace := tr, acc := acc }
  | (.failed st, _, _, d) => bad st (d.modOp o.id fun o => { o with trace := [], acc := none })
  | (.done a, _, _, d) => f a (d.modOp o.id fun o => { o with trace := [], acc := none })

/-! ### PUBLISH at the home (R81 to R83) -/

/-- Change a region. -/
def modRegion (n : Nat) (f : Region → Region) (d : Dev) : Dev := d.modCoh fun c => { c with regions := Tbl.upd n f c.regions }

/-- A PUBLISH has ended; its operation is told if it is still there. -/
def pubEnd (p : Publish) (st : Status) (d : Dev) : Dev :=
  if (d.op? p.op).isSome then d.modCoh fun c => { c with pubEnds := c.pubEnds ++ [(p.op, st)] } else d

/-- Steps 4 and 5 (R81): the snapshot extent is frozen and its restriction drain begins, or the PUBLISH fails. -/
def pubFreeze (n : Nat) (r : Region) (p : Publish) (d : Dev) : Bool × Dev :=
  match d.extAt p.base.toNat with
  | none => (false, d.pubEnd p .noAccess)
  | some (i, e) =>
    if e.first ≠ p.base.toNat ∨ e.part ≠ r.owner then (false, d.pubEnd p .noAccess)
    else if e.state ≠ .active ∨ bits e.perm.toNat 5 5 = 1 then (false, d.pubEnd p .stateConflict)
    else
      let id := d.coh.nextChange
      let frozen := { e with perm := e.perm ||| 0x20, gen := e.gen + 1 }
      let d := (d.setExt i frozen).beginChange (.publish (BitVec.ofNat 12 n)) [(BitVec.ofNat 15 i, e.gen)] [] false
      (true, d.modRegion n fun r => { r with running := some { p with ext := some (BitVec.ofNat 15 i), change := id } })

/-- The next waiting PUBLISH of a region runs its steps from step 4, until one is under way (R81 to R83). -/
def pubNext : Nat → Nat → Dev → Dev
  | 0, _, d => d
  | k + 1, n, d =>
    match Tbl.find d.coh.regions n with
    | none => d
    | some r =>
      match r.running, r.waiting with
      | none, p :: t =>
        let d := d.modRegion n fun r => { r with waiting := t }
        let (ok, d) := d.pubFreeze n { r with waiting := t } p
        if ok then d else pubNext k n d
      | _, _ => d

/-- Steps 1 to 3 (R81): the end with its RESULT, or none when the PUBLISH runs or waits. -/
def pubSubmit (id : Nat) (part : PartId) (n version base : Nat) (d : Dev) : Option (Status × Nat) × Dev :=
  match Tbl.find d.coh.regions n with
  | none => (some (.noAccess, 0), d)
  | some r =>
    if r.owner ≠ part then
      let reads : Bool := (match d.engChecks part (r.line.toNat * 64) .read with
        | .ok _ => true
        | .error _ => false)
      (some ((bif reads then Status.stateConflict else Status.noAccess), 0), d)
    else
      let top := (r.running.toList ++ r.waiting).foldl (fun m p => max m p.version.toNat) r.version.toNat
      if version ≤ top then (some (.staleVersion, top), d)
      else if r.waiting.length ≥ 8 then (some (.quota, 0), d)
      else
        let p : Publish := ⟨id, BitVec.ofNat 32 version, BitVec.ofNat 48 base, none, 0, false⟩
        (none, (d.modRegion n fun r => { r with waiting := r.waiting ++ [p] }).pubNext 9 n)

/-- The record line of a region after a PUBLISH (R80). -/
def recordLine (d : Dev) (p : Publish) (i : ExtIdx) (e : Ext) : Line :=
  lineOf (leBytes 4 p.version.toNat ++ leBytes 4 0 ++ leBytes 8 (d.fabAddr e.first) ++ leBytes 8 e.size ++ leBytes 2 i.toNat ++ leBytes 2 e.gen.toNat
    ++ leBytes 4 0 ++ leBytes 8 d.gtc.count.toNat ++ List.replicate 24 0)

/-- PUBLISH_DRAIN_END (R81, R83): once the drain has ended the record line is written, VERSION becomes V and the PUBLISH completes OK; it
completes REVOKED when its extent was revoked meanwhile. -/
def pubDrained (n : Nat) (d : Dev) : Dev :=
  match Tbl.find d.coh.regions n with
  | none => d
  | some r =>
    match r.running with
    | none => d
    | some p =>
      match d.coh.changes.find? fun c => c.id == p.change with
      | none => d
      | some c =>
        if !d.changeOver c then d
        else
          let i := p.ext.getD 0
          let e := d.ext i.toNat
          let forget (d : Dev) : Dev :=
            (d.modCoh fun x => { x with changes := x.changes.filter fun y => y.id ≠ c.id }).modRegion n fun r => { r with running := none }
          if p.revoked then ((forget d).pubEnd p .revoked).pubNext 9 n
          else
            match d.extAt (r.line.toNat * 64) with
            | none => ((forget d).pubEnd p .revoked).pubNext 9 n
            | some (ri, re) =>
              let (ok, d) := d.homeWrite ri re r.line.toNat (some (d.recordLine p i e)) ⟨d.nodeId, r.owner, 0x04, r.line.toNat * 64⟩
              if ok then (((forget d).modRegion n fun r => { r with version := p.version }).pubEnd p .ok).pubNext 9 n else d

/-- The drain of a PUBLISH whose region has been destroyed ends (R83). -/
def dropPubChanges (d : Dev) : Dev :=
  let live (c : Change) : Bool := match c.why with
    | .publish n => (match Tbl.find d.coh.regions n.toNat with
      | some r => (match r.running with | some p => p.change == c.id | none => false)
      | none => false)
    | _ => true
  d.modCoh fun c => { c with changes := c.changes.filter live }

/-- PUBLISH (R334): the operation gives its PUBLISH to the region's home, and completes when that has ended. -/
def publish (id : Nat) (d : Dev) : Dev :=
  match d.frontOp id 0x20 with
  | none => d
  | some (o, _, b) =>
    match d.coh.pubEnds.find? fun x => x.1 == id with
    | some (_, st) =>
      (d.modCoh fun c => { c with pubEnds := c.pubEnds.filter fun x => x.1 ≠ id }).frontEnds id st (if st = .ok then Desc.u32 b 52 else 0)
    | none =>
      if o.target.isSome then d
      else
        match d.pubSubmit id o.part (Desc.u16 b 48) (Desc.u32 b 52) (Desc.u64 b 56) with
        | (some (st, res), d) => d.frontEnds id st res
        | (none, d) => d.modOp id fun o => { o with target := some 0 }

/-! ### ADVISE (R335, R181 to R183) -/

/-- ADVISE: each block of the range is translated and handled; COLD then waits for the writebacks that it started. RESULT counts the blocks acted
on. -/
def adviseProg (b : List Byte) : Prog Nat :=
  let first := Desc.u64 b 48 / 65536
  let last := (Desc.u64 b 48 + Desc.u64 b 56 - 1) / 65536
  (Prog.loop (last - first + 1) 0 ((0, []) : Nat × List Nat) fun i x =>
    (Prog.need (.block ((first + i) * 65536) (Desc.u8 b 64))).bind fun r =>
    .ret (x.1 + leAt r 0 1, if leAt r 1 8 = 0 then x.2 else x.2 ++ [leAt r 1 8 - 1])).bind fun x =>
  (Prog.each x.2 () fun w _ => (Prog.need (.wbEnd w)).bind fun _ => .ret ()).bind fun _ => .ret x.1

/-- ADVISE (R335). -/
def advise (id : Nat) (d : Dev) : Dev :=
  match d.frontOp id 0x21 with
  | none => d
  | some (o, _, b) => d.frontRun o (adviseProg b) (fun n d => d.frontEnds id .ok n) (fun st d => d.frontEnds id st 0)

/-! ### FENCE, SIGNAL and WAIT_COUNT (R336 to R338) -/

/-- FENCE (R336). -/
def fence (id : Nat) (d : Dev) : Dev :=
  match d.frontOp id 0x30 with
  | none => d
  | some (o, m, b) =>
    match d.queue? o.queue with
    | none => d
    | some q =>
      if !d.earlierWritten o m ∨ !q.held.isEmpty then d
      else
        (d.frontEnds id .ok q.failures).modQueue o.queue fun q => { q with failures := 0, aborting := Desc.u8 b 48 = 1 ∧ q.failures ≠ 0 }

/-- The 8 bytes of the doorbell of a SIGNAL (R337, R542). -/
def signalBell (o : Op) (b : List Byte) : List Byte := leBytes 2 (Desc.u16 b 70) ++ leBytes 2 (Desc.u16 b 56) ++ leBytes 2 o.queue.toNat ++ leBytes 2 0

/-- The doorbell of a SIGNAL (R337): this node's is handled at once; another's is a device-issued transaction. -/
def signalDoorbell (o : Op) (b : List Byte) (d : Dev) : Dev :=
  let node : NodeId := BitVec.ofNat 16 (Desc.u16 b 72)
  let off : Offset := BitVec.ofNat 48 (gutterBase + Desc.u16 b 68 * 4096)
  match o.acc with
  | some a =>
    (match d.acc? a with
     | some x => (match x.state with | .ended st _ => (d.dropAcc a).frontEnds o.id st 0 | _ => d)
     | none => d.modOp o.id fun o => { o with acc := none })
  | none =>
    if node = d.nodeId then
      let h : ReqHdr := ⟨.companion, d.nodeId, 0, 0, false, true, o.part, none, off⟩
      let (st, d) := d.doorbellWrite h (.packet (signalBell o b)) true
      d.frontEnds o.id (st.getD .ok) 0
    else
      let (a, d) := d.newAcc (.frontEnd o.queue) o.part (.phys off) (.write 0 false) none false .engine
      ((d.modAcc a fun a => { a with state := .remote }).newDevTx a node off (.doorbell (signalBell o b))).modOp o.id fun o => { o with acc := some a }

/-- SIGNAL (R337). -/
def signal (id : Nat) (d : Dev) : Dev :=
  match d.frontOp id 0x31 with
  | none => d
  | some (o, m, b) =>
    if Desc.u8 b 65 % 2 = 1 ∧ !d.earlierWritten o m then d
    else
      match Desc.u8 b 64 with
      | 0 => d.frontRun o (Prog.write (Desc.u64 b 48) (sub b 56 8)) (fun _ d => d.frontEnds id .ok 0) (fun st d => d.frontEnds id st 0)
      | 1 =>
        d.frontRun o (Prog.need (.acc (Prog.at_ (Desc.u64 b 48)) (.update 0 true (sub b 56 8)) false)) (fun old d => d.frontEnds id .ok (leNat old))
          (fun st d => d.frontEnds id st 0)
      | 2 => d.signalDoorbell o b
      | _ => (d.arriveVec (Desc.u16 b 66 % 2048)).frontEnds id .ok 0

/-- WAIT_COUNT completes when the count has reached COUNT; LATE when COUNT had passed at its start (R338, R385). -/
def waitCount (id : Nat) (d : Dev) : Dev :=
  match d.frontOp id 0x32 with
  | none => d
  | some (_, _, b) =>
    let c := Desc.u64 b 48
    if d.gtc.count.toNat < c then d
    else d.frontEnds id .ok 0

/-! ### SAVE_STATE and RESTORE_STATE (R339 to R342) -/

/-- The size of the image of an operation (R340). -/
def imageSize (b : List Byte) : Nat :=
  let u := (Desc.passes b).sum
  256 + 64 * ceilDiv u 512 + (match Desc.op b with
    | 0x03 => 4 * Desc.u8 b 88 + 96 * Desc.u8 b 88 * (Desc.u16 b 90 + 1)
    | 0x04 => 16 * Desc.u8 b 98 * Desc.u16 b 96
    | 0x06 => 8 * u
    | _ => 0)

/-- The partial-result area of an image (R366). -/
def imageParts (o : Op) : List Byte :=
  let b := o.desc 0
  match Desc.op b with
  | 0x03 =>
    let n := Desc.u8 b 88
    let hd := Desc.u16 b 90
    (List.range n).flatMap (fun h => leBytes 4 (Tbl.get 0xFF800000 o.maxima h).toNat)
      ++ (List.range (n * (hd + 1))).flatMap fun k => (Tbl.get Acc.zero o.accs k).image
  | 0x04 =>
    (List.range (Desc.u8 b 98)).flatMap fun q =>
      let l := Tbl.get [] o.tops q
      (List.range (Desc.u16 b 96)).flatMap fun r =>
        (match l[r]? with | some e => leBytes 8 e.index | none => leBytes 8 (2 ^ 64 - 1)) ++ leBytes 8 0
  | 0x06 => (List.range o.total).flatMap fun u => leBytes 8 (if o.done.contains u then Tbl.get 0 o.counts u else 0)
  | _ => []

/-- The image of an operation, with its CHECK (R341, R365). -/
def saveImage (key : BitVec 128) (o : Op) (left : Nat) : List Byte :=
  let b := o.desc 0
  let size := imageSize b
  let map := leBytes (64 * ceilDiv o.total 512) (o.done.foldl (fun n u => n + 2 ^ u) 0)
  let mk (state check : Nat) : List Byte :=
    leBytes 4 0x53415631 ++ leBytes 2 o.part.toNat ++ leBytes 1 state ++ [0] ++ leBytes 8 size ++ leBytes 8 left ++ leBytes 8 check ++ b
      ++ List.replicate 96 0 ++ map ++ imageParts o
  mk 1 (sipHash key (mk 0 0)).toNat

/-- The operation that a SAVE_STATE names, while it can be paused (R340). -/
def saveTarget (d : Dev) (o : Op) (index : Nat) : Option Op :=
  (d.opsOf o.queue).find? fun t => t.members.length == 1 && (t.members.any fun m => m.index.toNat == index && Desc.pausable (Desc.op m.desc))
    && t.state == .running && t.restored.isNone

/-- SAVE_STATE (R340): the target starts no further unit, its compute phases are abandoned and its write phases finish; the image is written;
the target completes CANCELLED and the SAVE_STATE OK. -/
def saveState (id : Nat) (d : Dev) : Dev :=
  match d.frontOp id 0x38 with
  | none => d
  | some (o, _, b) =>
    match o.target with
    | none =>
      (match d.saveTarget o (Desc.u16 b 64) with
       | none => d.frontEnds id .stateConflict 0
       | some t =>
         let size := imageSize (t.desc 0)
         if Desc.u64 b 56 < size then d.frontEnds id .quota size
         else
           let drop (d : Dev) (x : Nat × UnitSt) : Dev := if x.2.phase = .writing then d else
             (match x.2.acc with | some a => d.dropAcc a | none => d).modOp t.id fun t => { t with units := Tbl.drop x.1 t.units }
           (t.units.foldl drop (d.modOp t.id fun t => { t with state := .saving })).modOp id fun o => { o with target := some t.id })
    | some tid =>
      (match d.op? tid with
       | none => d.frontEnds id .stateConflict 0
       | some t =>
         if !t.units.isEmpty then d
         else
           -- the time left is fixed once, when the last write phase has ended
           let t := if o.trace.isEmpty then { t with startAt := d.now, budget := (t.startAt + t.budget * 1000 - d.now) / 1000 } else t
           let d := d.modOp tid fun _ => t
           let img := saveImage (d.hashKeyOf o.part) t t.budget
           d.frontRun o (Prog.write (Desc.u64 b 48) img)
             (fun _ d => (d.endOp tid fun _ => (.cancelled, t.result 0, 0xFFFFFFFF)).frontEnds id .ok (imageSize (t.desc 0)))
             (fun st d => (d.modOp tid fun t => { t with state := .running }).frontEnds id st 0))

/-- What a RESTORE_STATE finds in an image: the member, the time left, the done units, the partial results and what the done units added
to RESULT. -/
structure Restored where
  mem    : Member
  left   : Nat
  done   : List Nat
  maxima : Tbl Word32
  accs   : Tbl Acc
  tops   : Tbl (List TopEnt)
  counts : Tbl Nat
  adds   : List (Nat × Nat)

/-- The merged top-K lists of an image, with their exact scores computed again (R367). -/
def restoreTops (b : List Byte) (area : List Byte) : Prog (Tbl (List TopEnt)) :=
  let k := Desc.u16 b 96
  (scanQueries b).bind fun qs =>
  Prog.each qs.zipIdx ([] : Tbl (List TopEnt)) fun (q, i) t =>
    let ids := ((List.range k).map fun r => leAt area (16 * (i * k + r)) 8).filter fun v => decide (v < Desc.u64 b 80)
    (scanRange b [q] ids [[]]).bind fun l => .ret (Tbl.put i (l.headD []) t)

/-- RESTORE_STATE, steps 1 to 4 (R342): none for STATE_CONFLICT. -/
def restoreProg (part : PartId) (key : BitVec 128) (limit : Nat) (index : BitVec 16) (at_ : Nat) : Prog (Option Restored) :=
  (Prog.read at_ 256).bind fun h =>
  if leAt h 0 4 ≠ 0x53415631 ∨ leAt h 4 2 ≠ part.toNat ∨ leAt h 6 1 ≠ 1 then .ret none
  else
    let b := sub h 32 128
    let size := imageSize b
    if !Desc.pausable (Desc.op b) ∨ leAt h 8 8 ≠ size then .fail .malformed
    else
      (Prog.read (at_ + 256) (size - 256)).bind fun rest =>
      let img := h ++ rest
      let plain := sub img 0 6 ++ [0] ++ sub img 7 17 ++ leBytes 8 0 ++ img.drop 32
      if (sipHash key plain).toNat ≠ leAt h 24 8 then .fail .malformed
      else if !Desc.fieldsOk b ∨ (Desc.shapes [b]).isNone then .fail .malformed
      else
        (if Desc.op b = 7 then
          (Prog.read (Desc.u64 b 48) (4 * Desc.u8 b 112)).bind fun prog =>
          (Prog.read (Desc.u64 b 56) (64 + 4 * Desc.u16 b 120)).bind fun aux =>
          if Desc.mapOk b prog aux then .ret (prog, aux) else .fail .malformed
         else .ret ([], [])).bind fun (prog, aux) =>
        if Desc.needAll [b] ((Desc.shapes [b]).getD []) > limit then .fail .quota
        else
          let w (st : Nat) : List Byte := leBytes 4 (part.toNat + st * 2 ^ 16)
          (Prog.need (.acc (Prog.at_ (at_ + 4)) (.update 2 false (w 1 ++ w 2)) false)).bind fun old =>
          if leNat old ≠ part.toNat + 2 ^ 16 then .ret none
          else
            let u := (Desc.passes b).sum
            let map := leNat (sub rest 0 (64 * ceilDiv u 512))
            let area := rest.drop (64 * ceilDiv u 512)
            let done := (List.range u).filter fun i => map / 2 ^ i % 2 == 1
            let n := Desc.u8 b 88
            let hd := Desc.u16 b 90
            let o3 := Desc.op b = 3
            let counts : Tbl Nat := if Desc.op b = 6 then (done.filter fun i => decide (i < ceilDiv (Desc.u64 b 72) 16384)).map fun i => (i, leAt area (8 * i) 8) else []
            (if Desc.op b = 4 then restoreTops b area else .ret []).bind fun tops =>
            (Prog.each done ([] : List (Nat × Nat)) fun i l => (unitAdds b key i counts).bind fun a => .ret (l ++ a)).bind fun adds =>
            .ret (some
              { mem := ⟨index, b, [], prog, aux, false, none⟩, left := leAt h 16 8, done := done,
                maxima := if o3 then (List.range n).map fun i => (i, BitVec.ofNat 32 (leAt area (4 * i) 4)) else [],
                accs := if o3 then (List.range (n * (hd + 1))).map fun i => (i, Acc.ofImage (sub area (4 * n + 96 * i) 96)) else [],
                tops := tops, counts := counts, adds := adds })

/-- RESTORE_STATE (R342): the units not marked done run on, with the time that was left. -/
def restoreState (id : Nat) (d : Dev) : Dev :=
  match d.frontOp id 0x39 with
  | none => d
  | some (o, m, b) =>
    let go (r : Option Restored) (d : Dev) : Dev :=
      match r with
      | none => d.frontEnds id .stateConflict 0
      | some r =>
        (d.modOp id fun o =>
          { o with restored := some r.mem, done := r.done, maxima := r.maxima, accs := r.accs, tops := r.tops, counts := r.counts,
                   results := r.adds.map fun a => (0, a.1, a.2), startAt := d.now, budget := r.left }).opFinish id
    d.frontRun o (restoreProg o.part (d.hashKeyOf o.part) (d.sramLimit o.part) m.index (Desc.u64 b 48)) go
      (fun st d => d.frontEnds id st 0)

end Dev

/-! ### Meanings -/

/-- PUBLISH (R81, R334). -/
def execPublish (o : Nat) (s : State) : Host.Outcome State Fault Refusal := next (s.onDev (Dev.publish o))
/-- PUBLISH_DRAIN_END (R81). -/
def execPublishDrainEnd (r : BitVec 12) (s : State) : Host.Outcome State Fault Refusal :=
  next (s.onDev fun d => (d.pubDrained r.toNat).dropPubChanges)
/-- ADVISE (R335). -/
def execAdvise (o : Nat) (s : State) : Host.Outcome State Fault Refusal := next (s.onDev (Dev.advise o))
/-- FENCE (R336). -/
def execFence (o : Nat) (s : State) : Host.Outcome State Fault Refusal := next (s.onDev (Dev.fence o))
/-- SIGNAL (R337). -/
def execSignal (o : Nat) (s : State) : Host.Outcome State Fault Refusal := next (s.onDev (Dev.signal o))
/-- WAIT_COUNT (R338). -/
def execWaitCount (o : Nat) (s : State) : Host.Outcome State Fault Refusal := next (s.onDev (Dev.waitCount o))
/-- WAIT_COUNT_REACHED (R385). -/
def execWaitCountReached (o : Nat) (s : State) : Host.Outcome State Fault Refusal := next (s.onDev (Dev.waitCount o))
/-- SAVE_STATE (R340). -/
def execSaveState (o : Nat) (s : State) : Host.Outcome State Fault Refusal := next (s.onDev (Dev.saveState o))
/-- RESTORE_STATE (R342). -/
def execRestoreState (o : Nat) (s : State) : Host.Outcome State Fault Refusal := next (s.onDev (Dev.restoreState o))

end Sys2Proof.Machine
end

