-- ==== Sys2Proof/Machine/Access.lean ====
section
/-! DEFINITION. Who may write a register page, and which pages answer (R585, R574, R638, R661, R668 to R671). -/

namespace Sys2Proof.Machine

/-- The code of a party in OWNER (R663). -/
def pathCode : Path → Nat
  | .companion => 0
  | .firmware => 1
  | .sideband => 2

/-- The page whose OWNER governs a page: CMP.IMG_BUF has none of its own (R660). -/
def headerPage (page : Nat) : Nat := if page = 0x00E then Reg.cmp else page

namespace Dev

/-- Whether a write on a path takes effect on a page: firmware never checks OWNER (R668, R670). -/
def holdsPage (d : Dev) (path : Path) (page : Nat) : Bool :=
  path == .firmware || d.fld (Reg.owner (headerPage page)) 1 0 == pathCode path

/-- A write from a party that does not hold the page (R638, R668): REFUSED_WRITE, and counted for the companion. -/
def refuseWrite (path : Path) (page : Nat) (d : Dev) : Dev :=
  let d := d.errEvent (headerPage page) 1
  if path = .companion then d.bump Reg.cmp 0x058 1 else d

/-- The image-load registers of CMP that answer in Dawn hold (R574, R653). -/
def imageLoadReg (page off : Nat) : Bool :=
  page == 0x00E || (page == Reg.cmp && (off == 0x108 || off == 0x10C || decide (0x120 ≤ off ∧ off < 0x140)))

/-- Whether a read on a path of an offset of a page is answered (R574, R585, R649, R661, R674): SBM lies in the always-on island, and before
SERVICE it answers the side-band alone. -/
def readAnswers (d : Dev) (path : Path) (page off : Nat) : Bool :=
  if page = Reg.sbm ∧ path = .sideband then d.dawn.islandsRun
  else if d.dawn.step = .service then d.dawn.powered
  else if d.dawn.step = .hold then page == Reg.glb || (path == .companion && imageLoadReg page off)
  else d.dawn.powered && page == Reg.glb

/-- Whether a write of an offset of a page may take effect (R574, R585, R674): before SERVICE only NODE_ID and RESET of GLB; GLB.CMD and
GLB.CAL_CMD are answered by their status. -/
def writeAnswers (d : Dev) (path : Path) (page off : Nat) : Bool :=
  d.readAnswers path page off &&
    (d.dawn.step == .service || page != Reg.glb || off == 0x100 || off == 0x11C || off == 0x114 || off == 0x188)

/-- A register write that arrives on a path: it has its effect when the page answers and the path holds it. -/
def accept (path : Path) (page off : Nat) (f : Dev → Dev) (d : Dev) : Dev :=
  if path = .firmware then f d
  else if !d.writeAnswers path page off then d
  else if d.holdsPage path page then f d
  else d.refuseWrite path page

end Dev

end Sys2Proof.Machine
end

