-- ==== Sys2Proof/Machine/Gtc.lean ====
section
/-! DEFINITION. The global count and the sync tree (R369 to R395). -/

namespace Sys2Proof.Machine

namespace Dev

/-- GTC.SYNC_CFG.ROLE: 0 FREE_RUN, 1 MASTER, 2 FOLLOWER (R393). -/
def syncRole (d : Dev) : Nat := d.fld 0x3108 1 0
/-- The upstream port of a follower. -/
def upstream (d : Dev) : Nat := d.fld 0x3108 6 2
/-- The interval in ns. -/
def syncInterval (d : Dev) : Nat := min1 (d.fld 0x3108 15 8) * 125000
/-- GTC.SYNC_STS.STATE: 0 FREE_RUN, 1 ACQUIRING, 2 LOCKED, 3 HOLDOVER, 4 MASTER. -/
def syncState (d : Dev) : Nat := d.fld 0x3110 2 0
/-- GTC.SYNC_STS.HOPS. -/
def syncHops (d : Dev) : Nat := d.fld 0x3110 11 4

/-- Change the sync record. -/
def modSync (f : Sync → Sync) (d : Dev) : Dev := { d with sync := f d.sync }

/-- A record of a change of the sync state or of a step (R378, R379): no type of R261 names it; FIRMWARE_EVENT with BLOCK GTC. -/
def logSync (sev : Nat) (d : Dev) : Dev := d.log d.strapHalf { type := 0x1A, sev := sev, block := blockOf Reg.gtc }

/-- Whether the last 8 offsets lie within ±4 ns; offsets are kept in units of 0.5 ns. -/
def offsetsGood (l : List Int) : Bool := l.length == 8 && l.all fun x => decide (-8 ≤ x ∧ x ≤ 8)

/-- A time stamp of a port (R375): the count less the port's fixed internal latency, which is 0 without the optical section (R592). -/
def portTime (d : Dev) (p : Nat) : Word64 := d.gtc.count - BitVec.ofNat 64 (if d.cal.latencies then Config.portLatency p else 0)

/-- ALIGNED (R381). -/
def setAligned (d : Dev) : Dev :=
  let on := d.syncRole == 1 || (d.syncRole == 2 && d.syncState == 2 && decide (d.syncHops ≤ 8) && offsetsGood d.sync.offsets && d.sync.upAligned)
  d.setFld 0x3110 3 3 (if on then 1 else 0)

/-- The count moves forward (R372, R380): what was armed for a count in between is late. -/
def stepCount (new : Word64) (d : Dev) : Dev :=
  let passed (o : Op) : Bool := (o.launch.any fun t => o.state == .armed && decide (d.gtc.count.toNat ≤ t.toNat ∧ t.toNat < new.toNat))
    || (o.state == .running && !o.waitsPast d.gtc.count.toNat && o.waitsPast new.toNat)
  let d := d.modOpq fun q => { q with ops := q.ops.map fun o => if passed o then { o with late := true } else o }
  (({ d with gtc := { d.gtc with count := new } }).bump Reg.gtc 0x048 1)

/-! ### Sync messages (R373 to R377) -/

/-- The packet of a sync message (R374, R443). -/
def syncPacket (d : Dev) (p : Nat) (m : SyncMsg) : Packet :=
  mkPkt d (d.port p).peerNode 0x40 0 0
    (leBytes 1 m.type.toNat ++ leBytes 1 m.hops.toNat ++ leBytes 1 m.flags.toNat ++ [0] ++ leBytes 2 m.seq.toNat ++ leBytes 2 m.master.toNat
      ++ leBytes 8 m.tx.toNat ++ leBytes 8 m.rxPrev.toNat ++ leBytes 2 m.rxSeq.toNat ++ List.replicate 6 0)

/-- The sync message that a payload spells (R374). -/
def syncOf (b : List Byte) : SyncMsg :=
  { type := BitVec.ofNat 8 (leAt b 0 1), hops := BitVec.ofNat 8 (leAt b 1 1), flags := BitVec.ofNat 8 (leAt b 2 1),
    seq := BitVec.ofNat 16 (leAt b 4 2), master := BitVec.ofNat 16 (leAt b 6 2), tx := BitVec.ofNat 64 (leAt b 8 8),
    rxPrev := BitVec.ofNat 64 (leAt b 16 8), rxSeq := BitVec.ofNat 16 (leAt b 24 2) }

/-- GTC.MASTER as it reads (R393). -/
def syncMaster (d : Dev) : NodeId :=
  if d.syncRole = 1 then d.nodeId else if d.syncRole = 0 then 0xFFFF else BitVec.ofNat 16 (d.fld 0x3114 15 0)

/-- What this node remembers of a downstream port. -/
def syncPort (d : Dev) (p : Nat) : SyncPort := Tbl.get ⟨0, none⟩ d.sync.ports p

/-- Store it. -/
def setSyncPort (p : Nat) (x : SyncPort) (d : Dev) : Dev := d.modSync fun s => { s with ports := Tbl.set ⟨0, none⟩ p x s.ports }

/-- Send SYNC on a port (R373, R374). -/
def sendSync (p : Nat) (d : Dev) : Dev :=
  let x := d.syncPort p
  let m : SyncMsg :=
    { type := 1, hops := BitVec.ofNat 8 (if d.syncRole = 1 then 0 else d.syncHops), flags := BitVec.ofNat 8 (d.fld 0x3110 3 3), seq := x.seq,
      master := d.syncMaster, tx := d.portTime p, rxPrev := (match x.echo with | some e => e.2 | none => 0),
      rxSeq := (match x.echo with | some e => e.1 | none => 0) }
  (d.setSyncPort p { x with seq := x.seq + 1 }).pushTx p 6 (pktBytes (d.syncPacket p m))

/-- SYNC_SEND (R373): at each interval a master or a follower sends SYNC on its downstream ports. The bit of UPSTREAM is ignored on a follower, which
alone has an upstream port; DEDUCED (log 47). -/
def syncSend (d : Dev) : Dev :=
  if d.syncRole = 0 ∨ d.now < d.sync.sentAt + d.syncInterval then d
  else
    let d := d.modSync fun s => { s with sentAt := d.now }
    (List.range 24).foldl (fun d p =>
      if (d.reg 0x310C).getLsbD p && !(d.syncRole == 2 && d.upstream == p) && d.portUsable p then d.sendSync p else d) d

/-- Enter a state of the follower (R378). -/
def enterSync (st : Nat) (d : Dev) : Dev :=
  let was := d.syncState
  let d := d.setFld 0x3110 2 0 st
  if st = 2 then (d.cause Reg.gtc 1).logSync 0
  else if st = 3 then ((d.bump Reg.gtc 0x050 1).cause Reg.gtc 2).logSync 2
  else if was = 2 then d.logSync 2 else d

/-- A valid exchange (R376, R378, R379): `o2` is the offset in 0.5 ns. -/
def exchangeDone (o2 d2 : Int) (d : Dev) : Dev :=
  let sat : Int := max (-2147483648) (min 2147483647 (2 * o2))
  let d := ((d.bump Reg.gtc 0x040 1).setReg 0x3118 (BitVec.ofInt 32 sat)).setReg 0x311C (BitVec.ofNat 32 (d2 / 2).toNat)
  let d := d.modSync fun s => { s with validAt := d.now, offsets := (o2 :: s.offsets).take 8, run := if -8 ≤ o2 ∧ o2 ≤ 8 then s.run + 1 else 0 }
  let d := if d.syncState = 3 ∨ (d.syncState = 2 ∧ (o2 > 2000 ∨ o2 < -2000)) then d.enterSync 1 else d
  if d.syncState ≠ 1 then d
  else if o2 < -2000 then ((d.stepCount (d.gtc.count + BitVec.ofNat 64 ((-o2) / 2).toNat)).cause Reg.gtc 3).logSync 0
  else if o2 > 2000 then
    (((({ d with gtc := { d.gtc with freeze := d.now + (o2 / 2).toNat } }).bump Reg.gtc 0x048 1).cause Reg.gtc 3).logSync 0)
  else if d.sync.run ≥ 8 then d.enterSync 2
  else d

/-- The difference of two counts. -/
def countDiff (a b : Word64) : Int := (a - b).toInt

/-- Answer a SYNC with an ECHO (R374, R377). -/
def sendEcho (p : Nat) (m : SyncMsg) (d : Dev) : Dev :=
  let e : SyncMsg :=
    { type := 2, hops := BitVec.ofNat 8 d.syncHops, flags := BitVec.ofNat 8 (d.fld 0x3110 3 3), seq := m.seq, master := d.syncMaster,
      tx := d.portTime p, rxPrev := 0, rxSeq := 0 }
  d.pushTx p 6 (pktBytes (d.syncPacket p e))

/-- SYNC_RECEIVE (R373, R376, R377): the exchange whose ECHO it returns ends, and a new one begins. -/
def syncReceive (p : Nat) (m : SyncMsg) (d : Dev) : Dev :=
  if d.syncRole ≠ 2 then d
  else if d.upstream ≠ p then d.bump Reg.gtc 0x058 1
  else
    let t2 := d.portTime p
    let hops := min 255 (m.hops.toNat + 1)
    let d := (d.setFld 0x3110 11 4 hops).setFld 0x3114 15 0 m.master.toNat
    let d := if hops > 8 then d.cause Reg.gtc 4 else d
    let d := d.modSync fun s => { s with upAligned := m.flags.getLsbD 0 }
    let d := match d.sync.open_.find? fun x => x.seq == m.rxSeq && decide (m.rxPrev ≠ 0) with
      | some x =>
        let d := d.modSync fun s => { s with open_ := s.open_.filter fun y => y.seq ≠ x.seq }
        if d.now > x.at_ + 4 * d.syncInterval then (d.modSync fun s => { s with run := 0 }).bump Reg.gtc 0x060 1
        else
          let a := countDiff x.t2 x.t1
          let b := countDiff m.rxPrev x.t3
          d.exchangeDone (a - b) (a + b)
      | none => d
    let d := d.sendEcho p m
    (d.modSync fun s => { s with open_ := s.open_ ++ [⟨m.seq, m.tx, t2, d.portTime p, d.now⟩] }).setAligned

/-- ECHO_RECEIVE (R376): its receipt is returned in the next SYNC on the port. -/
def echoReceive (p : Nat) (m : SyncMsg) (d : Dev) : Dev :=
  if d.syncRole = 0 ∨ !(d.reg 0x310C).getLsbD p then d else d.setSyncPort p { d.syncPort p with echo := some (m.seq, d.portTime p) }

/-- HOLDOVER_ENTRY (R378): 3 intervals without a valid exchange. -/
def holdover (d : Dev) : Dev :=
  if d.syncRole = 2 ∧ (d.syncState = 1 ∨ d.syncState = 2) ∧ d.sync.validAt + 3 * d.syncInterval ≤ d.now then ((d.enterSync 3).modSync fun s => { s with run := 0 }).setAligned else d

/-- EXCHANGE_TIMEOUT (R376): exchanges that did not end within 4 intervals of their SYNC. -/
def exchangeTimeout (d : Dev) : Dev :=
  let late (x : Exchange) : Bool := decide (x.at_ + 4 * d.syncInterval < d.now)
  let n := (d.sync.open_.filter late).length
  if n = 0 then d else (d.modSync fun s => { s with open_ := s.open_.filter fun x => !late x, run := 0 }).bump Reg.gtc 0x060 n

/-- FREEZE_END (R379). -/
def freezeEnd (d : Dev) : Dev := if d.gtc.freeze ≤ d.now then { d with gtc := { d.gtc with freeze := 0 } } else d

/-! ### Register writes (R393, R394) -/

/-- A write of GTC.SYNC_CFG (R393): reserved encodings leave their field unchanged (R17). -/
def writeSyncCfg (v : Word32) (d : Dev) : Dev :=
  let was := d.syncRole
  let d := d.setFld 0x3108 15 8 (fieldOf v 15 8)
  let d := if fieldOf v 6 2 < 24 then d.setFld 0x3108 6 2 (fieldOf v 6 2) else d.illegal Reg.gtc
  let role := fieldOf v 1 0
  if role = 3 then d.illegal Reg.gtc
  else
    let d := d.setFld 0x3108 1 0 role
    if role = was then d
    else
      let d := { d with sync := { Sync.reset with ports := d.sync.ports, sentAt := d.sync.sentAt, validAt := d.now } }
      let d := (d.setFld 0x3110 2 0 (match role with | 0 => 0 | 1 => 4 | _ => 1)).setFld 0x3110 11 4 (if role = 1 then 0 else 0xFF)
      d.setAligned

/-- A write of GTC.SET_HI (R394): the pair takes effect only forward and only without an upstream; otherwise it is ignored. -/
def writeSet (new : Word64) (d : Dev) : Dev :=
  if d.syncRole ≠ 2 ∧ d.gtc.count.toNat < new.toNat then ((d.setReg 0x3120 (new.setWidth 32)).setReg 0x3124 (new.extractLsb' 32 32)).stepCount new
  else d.illegal Reg.gtc

/-- Where a path's held low word, or its high-word latch, of a pair stands (R13, R667). -/
def pathKey (path : Path) (addr : Nat) : Nat := addr * 4 + pathCode path

/-- The low word that a path holds for a pair, by the address of its low word (R13). -/
def heldLow (d : Dev) (path : Path) (addr : Nat) : Word32 := Tbl.get 0 d.regs.held (pathKey path addr)

/-- Hold a low word. -/
def holdLow (path : Path) (addr : Nat) (v : Word32) (d : Dev) : Dev :=
  { d with regs := { d.regs with held := Tbl.set 0 (pathKey path addr) v d.regs.held } }

/-- A write of the high word of GTC.SET (R13, R394). -/
def writeSetHi (path : Path) (v : Word32) (d : Dev) : Dev :=
  d.writeSet (v ++ d.heldLow path 0x3120)

end Dev

/-! ### Meanings -/

/-- SYNC_SEND (R373). -/
def execSyncSend (s : State) : Host.Outcome State Fault Refusal := next (s.onDev Dev.syncSend)
/-- SYNC_RECEIVE (R376). -/
def execSyncReceive (p : PortNo) (m : SyncMsg) (s : State) : Host.Outcome State Fault Refusal := next (s.onDev (Dev.syncReceive p.val m))
/-- ECHO_RECEIVE (R376). -/
def execEchoReceive (p : PortNo) (m : SyncMsg) (s : State) : Host.Outcome State Fault Refusal := next (s.onDev (Dev.echoReceive p.val m))
/-- FREEZE_END (R379). -/
def execFreezeEnd (s : State) : Host.Outcome State Fault Refusal := next (s.onDev Dev.freezeEnd)
/-- HOLDOVER_ENTRY (R378). -/
def execHoldoverEntry (s : State) : Host.Outcome State Fault Refusal := next (s.onDev Dev.holdover)
/-- EXCHANGE_TIMEOUT (R376). -/
def execExchangeTimeout (s : State) : Host.Outcome State Fault Refusal := next (s.onDev Dev.exchangeTimeout)
/-- SET_HI_WRITE (R394). -/
def execSetHiWrite (path : Path) (v : Word32) (s : State) : Host.Outcome State Fault Refusal :=
  next (s.onDev (Dev.accept path Reg.gtc 0x124 (Dev.writeSetHi path v)))
/-- SYNC_ROLE_WRITE (R378, R393). -/
def execSyncRoleWrite (path : Path) (v : Word32) (s : State) : Host.Outcome State Fault Refusal :=
  next (s.onDev (Dev.accept path Reg.gtc 0x108 (Dev.writeSyncCfg v)))

end Sys2Proof.Machine
end

