-- ==== Sys2Proof/Machine/Power.lean ====
section
/-! DEFINITION. Power and temperature (R597 to R631): domains and votes, Dusk mode and Midnight, the order of returns, performance levels,
power capping, pace notices, thermal limits and the recalibration of the sensors. -/

namespace Sys2Proof.Machine

namespace Dev

/-- Change the power record. -/
def modPwr (f : Pwr → Pwr) (d : Dev) : Dev := { d with pwr := f d.pwr }

/-- A POWER_EVENT record (R617, R624, R625): the manual gives it no DETAIL. -/
def logPower (h : Half) (sev : Nat) (d : Dev) : Dev := d.log h { type := 0x1B, sev := sev, block := blockOf Reg.pwr }

/-! ### Votes (R599, R600) -/

/-- Whether a partition votes for the clusters of its cores: KEEP, or an operation fetched and not completed, or armed (R599). -/
def partVotes (d : Dev) (p : PartId) (x : Part) : Bool :=
  x.keep || (d.opq.ops.any fun o => o.part == p) || (d.opq.queues.any fun q => q.2.part == p && (!q.2.chain.isEmpty || !q.2.fetched.isEmpty))

/-- Good physical cores that hold no logical core of a partition. -/
def freeCores (d : Dev) : List Nat :=
  (List.range 576).filter fun c =>
    (d.core c).found && !(d.core c).fenced && !(d.lmap.any fun l => l.2 == c && (d.parts.any fun p => p.2.cores.any fun k => k.val == l.1))

/-- Firmware's vote on a cluster (R600): a core loads its firmware or is refilled there, or firmware zero-fills an extent on a core of it
that no partition holds (R510). -/
def fwCluster (d : Dev) (n : Nat) : Bool :=
  ((List.range 16).any fun i => (d.core (16 * n + i)).loading || d.opq.refill.contains (16 * n + i))
    || ((d.coh.exts.any fun e => e.2.state == .scrubbing && !e.2.tiered) && decide (d.freeCores.length ≥ 16)
        && (d.freeCores.any fun c => c / 16 == n))

/-- Firmware's vote on an optical port (R600). -/
def fwPort (d : Dev) (p : Nat) : Bool :=
  let role := d.fld 0x3108 1 0
  (role == 2 && d.fld 0x3108 6 2 == p) || ((role == 1 || role == 2) && (d.reg 0x310C).getLsbD p)
    || (d.fab.trees.any fun t => t.2.valid && (t.2.up.toNat == p || t.2.down.getLsbD p))
    || (d.fab.circuits.any fun c => c.2.state != .free && ((c.2.inPort.any fun q => q.val == p) || (c.2.outPort.any fun q => q.val == p)))

/-- Firmware's vote on a root port (R600). -/
def fwRoot (d : Dev) (p : Nat) : Bool :=
  (d.tier.state != .uninit && !d.tier.failed.getLsbD p) || (d.tier.rebuild.any fun r => r.1 == p) || d.tier.rebuildAsk == some p

/-- Firmware's vote on a domain (R600). -/
def fwVote (d : Dev) (n : Nat) : Bool :=
  if n < 36 then d.fwCluster n else if n < 60 then d.fwPort (n - 36) else if n < 76 then d.fwRoot (n - 60) else false

/-- Whether a partition votes for a cluster (R599). -/
def partVote (d : Dev) (n : Nat) : Bool :=
  decide (n < 36) && d.parts.any fun p => d.partInCluster p.2 n && d.partVotes (BitVec.ofNat 12 p.1) p.2

/-- Whether any vote holds a domain up (R601). -/
def voted (d : Dev) (n : Nat) : Bool := (d.dom n).comp || d.fwVote n || (decide (36 ≤ n ∧ n < 60) && (d.dom n).fabmgr) || d.partVote n

/-! ### Entry (R602, R605, R606) -/

/-- The companion link goes down with its flits (R608, R633). -/
def linkOff (st : Nat) (d : Dev) : Dev := { d.setFld 0xD100 2 0 st with cmp := { d.cmp with heldOut := [], reads := [], replays := 0, activeAt := if d.fld 0xD100 2 0 = 2 then d.now else d.cmp.activeAt } }

/-- The lines that the companion holds are recalled (R608); of a line with a coarse entry, which does not name its holders, every target of R128.
DESIGN CHOICE (log 70). -/
def recallCompanion (d : Dev) : Dev :=
  d.coh.dir.foldl (fun d x =>
    match d.dirEnt x.1, d.extAt (x.1 * 64) with
    | some ent, some (i, e) =>
      let hs := d.holders i e ent none
      if (d.tx? x.1).isSome ∨ !hs.contains d.compNode ∨ !d.snoopRoom (d.lineHalf x.1) then d
      else (d.beginTx x.1 .recall none ((if ent.coarse then hs else [d.compNode]).map fun n => d.selfSnoop n .inv)).advance x.1
    | _, _ => d) d

/-- Whether the companion still holds lines, or is being snooped. -/
def companionHolds (d : Dev) : Bool :=
  (d.coh.dir.any fun x => match d.extAt (x.1 * 64) with
    | some (i, e) => (d.holders i e x.2 none).contains d.compNode
    | none => false)
  || (d.coh.tx.any fun x => x.2.snoops.any fun s => s.node == d.compNode && !s.answered)

/-- The VOTE that waits for a domain completes: its entry or return has started, or none follows (R630). -/
def voteDone (n : Nat) (d : Dev) : Dev :=
  if d.pwr.voteWait = some n then (d.modPwr fun p => { p with voteWait := none }).cmdEnd Reg.pwr 0x2104 1 .ok else d

/-- A domain starts its entry into Midnight (R601, R605, R608). -/
def startMidnight (n step : Nat) (d : Dev) : Dev :=
  let d := d.voteDone n
  let d := (d.modDom n fun x => { x with state := .entering true step false, at_ := d.now, wake := false }).bump Reg.pwr 0x058 1
  if n < 36 then d else if n < 60 then d.beginShutdown (n - 36) else if n < 76 then d else d.recallCompanion

/-- MIDNIGHT_ENTRY (R601): the last vote is gone. From Dusk mode the entry starts at step 3 (R605). -/
def midnightEntry (n : Nat) (d : Dev) : Dev :=
  if d.voted n then d
  else
    match (d.dom n).state with
    | .on => d.startMidnight n 1
    | .dusk => d.startMidnight n 3
    | _ => d

/-- DUSK_ENTRY (R602). -/
def duskEntry (n : Nat) (d : Dev) : Dev :=
  let en := if n < 32 then (d.reg 0x2120).getLsbD n else (d.reg 0x2124).getLsbD (n - 32)
  let busy := d.opq.ops.any fun o => o.units.any fun u => (d.phys u.2.core.val).any fun c => c / 16 == n
  if en && (d.dom n).state == .on && !busy && !d.fwCluster n && decide ((d.dom n).idleAt + min1 (d.fld 0x211C 15 8) * 1000 ≤ d.now) then
    (d.modDom n fun x => { x with state := .entering false 1 false, at_ := d.now, wake := false, bell := false }).bump Reg.pwr 0x048 1
  else d

/-- The units that cores of a cluster could take: those of the running pass of each started operation of its partitions (R603). -/
def readyUnits (d : Dev) (n : Nat) : Nat :=
  (d.opq.ops.map fun o =>
    let here := (d.part? o.part).any fun p => d.partInCluster p n
    if here && o.state == .running && o.unitRun then
      match o.nextUnit with
      | some u =>
        if o.passReady u then
          ((o.shapes.map fun s =>
            let first := passStart s.passes 0 u
            let size := (s.passes.find? fun k => decide (u < first + k)).getD 0
            first + size - o.done.length - o.units.length).foldl min o.total)
        else 0
      | none => 0
    else 0).sum

/-- The wake conditions of a cluster in Dusk mode (R603). -/
def wakes (d : Dev) (n : Nat) : Bool :=
  decide (d.readyUnits n ≥ min1 (d.fld 0x211C 23 16)) || (d.fld 0x211C 24 24 == 1 && (d.dom n).bell)
    || (d.opq.ops.any fun o => o.state == .armed && o.launch.isSome && ((d.part? o.part).any fun p => d.partInCluster p n)) || d.fwCluster n

/-- The length of a step of an entry, in ns (R605). Step 2 takes at most 1 µs, as long as the mover needs. -/
def entryTime (step : Nat) : Nat := match step with | 1 => 100 | 3 => 500 | 4 => 300 | 5 => 1000 | _ => 0

/-- Whether the mesh interfaces and the mover of a cluster are empty (R605 step 2). -/
def clusterEmpty (d : Dev) (n : Nat) : Bool := !(d.opq.ops.any fun o => o.units.any fun u => (d.phys u.2.core.val).any fun c => c / 16 == n)

/-- A cluster stops giving core contents: their units in the compute phase run again elsewhere. -/
def clusterUnits (n : Nat) (d : Dev) : Dev :=
  (d.lmap.filter fun l => l.2 / 16 == n).foldl (fun d l => if h : l.1 < 512 then d.leaveCore ⟨l.1, h⟩ else d) d

/-- Every rail of a cluster is off (R605, R607): what its cores' micro-TLBs held is gone. -/
def coresOff (n : Nat) (d : Dev) : Dev := d.modXlt fun t => { t with micro := t.micro.filter fun x => x.1 / 16 != n }

/-- A step of a cluster's entry ends (R605, R606): an entry that is wanted no more is undone at its abort point. -/
def clusterStep (n : Nat) (midnight : Bool) (step : Nat) (undo : Bool) (d : Dev) : Dev :=
  let x := d.dom n
  let go (st : DomState) (d : Dev) : Dev := d.modDom n fun x => { x with state := st, at_ := d.now }
  if undo then
    (if d.now < x.at_ + (if step = 2 then 200 else 500) then d else (go .on d).modDom n fun x => { x with wake := false, idleAt := d.now })
  else if d.now < x.at_ + entryTime step then d
  else
    -- a vote withdrawn during a Dusk entry turns it into a Midnight entry
    let midnight' := midnight || !d.voted n
    let d := if midnight' && !midnight then d.bump Reg.pwr 0x058 1 else d
    let wake := if midnight' then d.voted n else d.wakes n
    if step ≤ 3 ∧ wake then
      let d := d.bump Reg.pwr (if midnight' then 0x060 else 0x050) 1
      (if step = 1 then (go .on d).modDom n fun x => { x with idleAt := d.now } else go (.entering midnight' step true) d)
    else if step = 2 ∧ !d.clusterEmpty n ∧ d.now < x.at_ + 1000 then d.modDom n fun x => { x with state := .entering midnight' 2 false }
    else if step < 5 then (go (.entering midnight' (step + 1) false) (if step = 2 then d.clusterUnits n else d))
    else ((if midnight' then d.coresOff n else d).modDom n fun x => { x with wake := wake, bell := false }) |> go (if midnight' then .midnight else .dusk)

/-- ENTRY_STEP_DONE (R605, R606, R608): an optical port is off once its planned shutdown has ended, a root port once no command is outstanding,
the companion link once every line has been recalled. -/
def entryStep (n : Nat) (d : Dev) : Dev :=
  match (d.dom n).state with
  | .entering midnight step undo =>
    if n < 36 then d.clusterStep n midnight step undo
    else
      let off (d : Dev) : Dev := d.modDom n fun x => { x with state := .midnight, at_ := d.now }
      let back (d : Dev) : Dev := (d.modDom n fun x => { x with state := .on }).bump Reg.pwr 0x060 1
      if n < 60 then
        (if (d.port (n - 36)).state = .off then off d
         else if d.voted n then back ((d.modPort (n - 36) fun x => { x with drainAt := none }).pump (n - 36)) else d)
      else if d.voted n then back d
      else if n < 76 then (if (d.drive (n - 60)).io.any fun c => c.issued.isSome then d else off (d.rootLink (n - 60) 0))
      else if d.companionHolds then d
      else off (d.linkOff 0)
  | _ => d

/-- DUSK_SAMPLER_WAKE (R603): every PERIOD from the entry on, the wake conditions are sampled. -/
def duskSample (n : Nat) (d : Dev) : Dev :=
  let x := d.dom n
  let period := min1 (d.fld 0x211C 7 0) * 500
  if x.state = .dusk ∧ !x.wake ∧ d.now > x.at_ ∧ (d.now - x.at_) % period = 0 then
    (if d.wakes n then d.modDom n fun x => { x with wake := true, at_ := d.now, bell := false }
     else if !d.voted n then d.startMidnight n 3
     else d.modDom n fun x => { x with bell := false })
  else d

/-- CLUSTER_RESUME (R604): 12 µs after the sample that found a wake condition. -/
def clusterResume (n : Nat) (d : Dev) : Dev :=
  let x := d.dom n
  if x.state = .dusk ∧ x.wake ∧ x.at_ + 12000 ≤ d.now then
    d.modDom n fun x => { x with state := .on, at_ := d.now, wake := false, idleAt := d.now }
  else d

/-! ### Return (R609) -/

/-- A domain's place in the return order: companion link, root ports, clusters, optical ports. -/
def returnRank (n : Nat) : Nat := if n = 76 then 0 else if 60 ≤ n then n - 59 else if n < 36 then 17 + n else 17 + n

/-- How long after the start of a domain the next may start, in ns. -/
def returnGap (last next_ : Nat) : Nat :=
  if last = 76 then 30000 else if 60 ≤ last then 10000
  else if last < 36 then (if next_ < 36 ∧ next_ / 4 = last / 4 then 0 else 30000) else 5000

/-- Whether a domain waits to return: off with a vote or a wake condition. -/
def returnWaits (d : Dev) (n : Nat) : Bool := (d.dom n).state == .midnight && d.voted n

/-- DOMAIN_RETURN (R609): the first in order of those that wait starts, at its spacing after the one before. -/
def domainReturn (n : Nat) (d : Dev) : Dev :=
  let first := (List.range 77).all fun m => !(d.returnWaits m && decide (returnRank m < returnRank n))
  let due : Bool := match d.pwr.returned with | some (m, t) => decide (t + returnGap m n ≤ d.now) | none => true
  if d.returnWaits n && first && due then
    ((d.modDom n fun x => { x with state := .returning, at_ := d.now, wake := false }).modPwr fun p => { p with returned := some (n, d.now) }).voteDone n
  else d

/-- DOMAIN_USABLE (R607 to R609): a cluster after 150 µs, with its SRAM refilled and its firmware loaded; a port after its rail and release,
by a link reset with cause POWER; a root port and the companion link by training. -/
def domainUsable (n : Nat) (d : Dev) : Dev :=
  let x := d.dom n
  let wait := if n < 36 then 150000 else if n < 60 then 35000 else if n < 76 then 20000 else 30000
  if x.state = .returning ∧ x.at_ + wait ≤ d.now then
    let d := d.modDom n fun x => { x with state := .on, at_ := d.now, idleAt := d.now }
    let d := if d.voted n then d.voteDone n else d
    if n < 36 then d
    else if n < 60 then
      (if d.fld (fabA (n - 36) + 0x100) 0 0 = 1 ∧ d.nodeId ≠ 0xFFFF then d.startReset (n - 36) ⟨7, none, false⟩ else d)
    else if n < 76 then d.rootLink (n - 60) 1
    else ({ d with cmp := { d.cmp with trainAt := d.now } }).setFld 0xD100 2 0 1
  else d

/-! ### Commands (R630) -/

/-- A command of PWR (R68). -/
def pwrCmd (f : Dev → Option Status × Dev) (d : Dev) : Dev :=
  if d.busy 0x2104 then d.illegal Reg.pwr
  else
    match f (d.cmdBegin 0x2104) with
    | (some st, d) => d.cmdEnd Reg.pwr 0x2104 1 st
    | (none, d) => d

/-- PWR.DATA0 to DATA7 as one number. -/
def pwrData (d : Dev) : Nat := d.data 0x2140 8

/-- Whether an entry into Midnight has passed its last abort point (R605, R606): it ends, and a vote then starts the return. -/
def pastAbort (x : DomState) : Bool := match x with | .entering true step false => decide (4 ≤ step) | _ => false

/-- VOTE (R599, R601, R630): it completes when the entry or the return has started, or at once when neither follows; a vote withdrawn during a return
waits for its end. -/
def vote (d : Dev) : Option Status × Dev :=
  let n := bits d.pwrData 7 0
  let cast := bits d.pwrData 8 8 = 1
  if n > 76 then (some .malformed, d)
  else
    let d := d.modDom n fun x => { x with comp := cast }
    if cast then
      (if (d.dom n).state = .midnight then
        let d := (d.modPwr fun p => { p with voteWait := some n }).domainReturn n
        (none, d)
       else if pastAbort (d.dom n).state then (none, d.modPwr fun p => { p with voteWait := some n })
       else (some .ok, d))
    else if (d.dom n).state = .returning ∧ !d.voted n then (none, d.modPwr fun p => { p with voteWait := some n })
    else (some .ok, d.midnightEntry n)

/-- PART_POLICY (R599, R630). -/
def partPolicy (part : PartId) (d : Dev) : Option Status × Dev :=
  if !d.partLive part then (some .stateConflict, d)
  else (some .ok, d.modPart part fun p => { p with keep := bits d.pwrData 0 0 = 1 })

/-! ### Temperature (R622 to R624, R627) -/

/-- The readings of a sample with their offsets, in 0.01 °C: 36 clusters, 4 DDR PHY sensors, 4 optical engines (R622). -/
def corrected (d : Dev) (raw : List Int) : List Int := (List.range 44).map fun i => raw.getD i 0 + d.pwr.offsets.getD i 0

/-- The latest readings. -/
def readings (d : Dev) : List Int := d.corrected (d.pwr.temps.headD [])

/-- The highest of some readings. -/
def hottest (l : List Int) : Int := l.foldl max (l.headD 0)

/-- The half of a sensor. -/
def sensorHalf (i : Nat) : Half := if i < 36 then (if i < 18 then .west else .east) else if i < 40 then (if i < 38 then .west else .east)
  else if i < 42 then .west else .east

/-- The thresholds of R624 in 0.01 °C, by sensor. -/
def alarmAt (d : Dev) (i : Nat) : Int := if i < 40 then Int.ofNat (min 110 (d.fld 0x2130 15 8)) * 100 else Int.ofNat (min 90 (d.fld 0x2130 23 16)) * 100

/-- Whole degrees, saturating at 0 and 255 (R629). -/
def degrees (x : Int) : Nat := min 255 (x / 100).toNat

/-- TEMPERATURE_SAMPLE (R622, R624): `raw` is in units of 0.25 °C. -/
def tempSample (raw : List Int) (d : Dev) : Dev :=
  let d := d.modPwr fun p => { p with temps := (raw.map fun x => 25 * x) :: p.temps.take 9999 }
  let r := d.readings
  let d := (d.setFld 0x2134 7 0 (degrees (hottest (r.take 40)))).setFld 0x2134 15 8 (degrees (hottest (r.drop 40)))
  let hot := (List.range 44).find? fun i => decide (r.getD i 0 ≥ d.alarmAt i)
  let cool := (List.range 44).all fun i => decide (r.getD i 0 ≤ d.alarmAt i - 500)
  let on := (d.reg 0x1100).getLsbD 1
  match hot with
  | some i => if on then d else ((d.cause Reg.pwr 5).alert 1).logPower (sensorHalf i) 2
  | none => if cool then d.unalert 1 else d

/-- THERM_POINT (R627): the readings must lie within 2 °C, and none may have changed by 0.5 °C in the last 10 s. -/
def thermPoint (d : Dev) : Option Status × Dev :=
  let r := d.readings
  let span := hottest r + hottest (r.map fun x => -x)
  let moved (i : Nat) : Bool := let l := d.pwr.temps.map fun t => t.getD i 0; decide (hottest l + hottest (l.map fun x => -x) ≥ 50)
  if span > 200 ∨ (List.range 44).any moved then (some .stateConflict, d)
  else
    let ref := Int.ofNat (bits d.pwrData 31 0)
    let raw := d.pwr.temps.headD []
    (some .ok, d.modPwr fun p => { p with offsets := (List.range 44).map fun i => ref - raw.getD i 0, offsetsOk := true })

end Dev

/-- THERM_SAVE (R627, R593): the offsets go to the calibration store. -/
def State.thermSave (s : State) : State :=
  if s.dev.busy 0x2104 then s.onDev (Dev.illegal Reg.pwr)
  else if !s.dev.pwr.offsetsOk then s.onDev fun d => (d.cmdBegin 0x2104).cmdEnd Reg.pwr 0x2104 1 .stateConflict
  else
    { s with nv := { s.nv with thermal := .saved s.dev.pwr.offsets },
             dev := ((s.dev.cmdBegin 0x2104).setFld 0x2134 16 16 0).cmdEnd Reg.pwr 0x2104 1 .ok }

namespace Dev

/-! ### Power (R614 to R618, R626) -/

/-- The window in samples (R615, R629). -/
def windowLen (d : Dev) : Nat := min 10 (min1 (d.fld 0x2110 4 1)) * 1000

/-- The samples of the window. -/
def window (d : Dev) : List Nat := d.pwr.window.take d.windowLen

/-- DEGRADED follows disagreement mode and the absence of a calibrated gain (R617, R618). -/
def setDegraded (d : Dev) : Dev := d.setFld 0x2114 16 16 (if d.fld 0x2114 18 17 = 0 then 0 else 1)

/-- POWER_SAMPLE (R614, R617): the measurement and the estimate in 0.1 W. -/
def powerSample (meas est : BitVec 16) (d : Dev) : Dev :=
  let m := meas.toNat
  let e := est.toNat
  let bad := 100 * (max m e - min m e) > 12 * m
  let d := (d.setReg 0x2118 (meas.setWidth 32 ||| (est.setWidth 32 <<< 16))).modPwr fun p =>
    { p with window := m :: p.window.take 9999, badRun := if bad then p.badRun + 1 else 0, goodRun := if bad then 0 else p.goodRun + 1 }
  let d := if bad then d.bump Reg.pwr 0x068 1 else d
  let d := d.setFld 0x2114 15 0 (min 65535 (d.window.sum / d.window.length))
  let on := d.fld 0x2114 17 17 = 1
  if !on ∧ d.pwr.badRun ≥ 1000 then (((d.setFld 0x2114 17 17 1).setDegraded).cause Reg.pwr 3).logPower d.strapHalf 2
  else if on ∧ d.pwr.goodRun ≥ 60000 then (d.setFld 0x2114 17 17 0).setDegraded
  else d

/-- Whether the controller uses measurement alone (R618). -/
def measureOnly (d : Dev) : Bool := d.fld 0x2114 18 17 != 0

/-- CAP in 0.1 W (R629). -/
def capTarget (d : Dev) : Nat := max 150 (min 400 (d.fld 0x2110 24 16)) * 10

/-- The cap level of a decision point, and whether no level qualifies (R615, R618). `est` gives E(l) in 0.1 W; A is the mean of the window,
kept as a sum over a number of samples. -/
def capLevel (est : List Nat) (d : Dev) : Nat × Bool :=
  let n := max 1 d.window.length
  let a := d.window.sum
  let cap := d.capTarget
  let now := d.fld 0x210C 6 4
  if d.fld 0x2110 0 0 = 0 then (0, false)
  else if d.measureOnly then
    (if 100 * a > 95 * cap * n then min 7 (now + 1) else if 100 * a < 90 * cap * n then now - 1 else now, false)
  else
    -- E(l) <= T, with T = target - max(0, A - target) / 2, times 2n
    match (List.range 8).find? fun l => decide (2 * n * est.getD l 0 + (a - cap * n) ≤ 2 * n * cap) with
    | some l => (l, false)
    | none => (7, true)

/-- The thermal level of a decision point (R623). -/
def thermLevel (d : Dev) : Nat :=
  let die := d.readings.take 40
  let throttle : Int := Int.ofNat (min 110 (d.fld 0x2130 7 0)) * 100
  let now := d.fld 0x210C 10 8
  if die.any fun x => decide (x ≥ throttle) then min 7 (now + 2)
  else if die.all fun x => decide (x ≤ throttle - 500) then now - 1
  else now

/-- A pace notice (R619). -/
def paceNotice (old new cause : Nat) (d : Dev) : Dev :=
  if d.fld 0x2128 0 0 = 0 then d
  else
    let d := (d.modPwr fun p => { p with pseq := p.pseq + 1 }).bump Reg.pwr 0x070 1
    let payload := leBytes 2 1 ++ leBytes 2 d.nodeId.toNat ++ leBytes 1 old ++ leBytes 1 new ++ leBytes 1 cause ++ leBytes 1 (d.fld 0x2114 16 16)
      ++ leBytes 8 d.gtc.count.toNat ++ leBytes 4 d.pwr.pseq.toNat ++ List.replicate 12 0
    let n := d.fld 0x2128 10 1
    d.originate n (mkPkt d (BitVec.ofNat 16 n) 0x32 0 0 payload 1)

/-- The level changes (R612, R613): operations in flight carry PACE. -/
def setLevel (new cause : Nat) (d : Dev) : Dev :=
  let old := d.level
  if new = old then d
  else
    let d := (((d.setFld 0x210C 2 0 new).bump Reg.pwr 0x040 1).cause Reg.pwr 2).modOpq fun q =>
      { q with ops := q.ops.map fun o => if o.state = .armed then o else { o with paced := true } }
    d.paceNotice old new cause

/-- DECISION_POINT (R612, R615, R618, R623): every 250 ms from the end of the Dawn sequence on. -/
def decide_ (est : List Nat) (d : Dev) : Dev :=
  match d.pwr.decideAt with
  | none => d
  | some t =>
    if d.now < t then d
    else
      let d := d.modPwr fun p => { p with decideAt := some (t + 250000000) }
      let (cap, miss) := d.capLevel est
      let therm := d.thermLevel
      let least := d.fld 0x2108 2 0
      let d := ((d.setFld 0x210C 6 4 cap).setFld 0x210C 10 8 therm).setFld 0x2114 19 19 (if miss then 1 else 0)
      let d := if miss then d.cause Reg.pwr 4 else d
      let new := max least (max cap therm)
      d.setLevel new (if cap = new ∧ d.fld 0x2110 0 0 = 1 then (if d.measureOnly then 4 else 1) else if therm = new then 2 else 3)

/-- PACE_NOTICE_RECEIVE (R620). -/
def paceReceive (node : NodeId) (level : BitVec 3) (count : Word64) (d : Dev) : Dev :=
  (((d.setReg 0x212C (BitVec.ofNat 32 (node.toNat + level.toNat * 2 ^ 16 + 2 ^ 19))).modPwr fun p => { p with paceCount := count }).bump Reg.pwr
    0x078 1).cause Reg.pwr 6

/-- PSENSE_POINT (R626): it completes when the 4 s average has ended. -/
def psensePoint (d : Dev) : Option Status × Dev :=
  let start := bits d.pwrData 127 64
  if start < d.gtc.count.toNat + 1000000 ∨ d.pwr.point.isSome then (some .stateConflict, d)
  else (none, d.modPwr fun p => { p with point := some (bits d.pwrData 31 0, BitVec.ofNat 64 start) })

/-- PSENSE_POINT_DONE (R626): the point joins the last one. -/
def psensePointDone (raw : Nat) (d : Dev) : Dev :=
  match d.pwr.point with
  | none => d
  | some (ext, start) =>
    if d.gtc.count.toNat < start.toNat + 4000000000 then d
    else (d.modPwr fun p => { p with point := none, points := (ext, raw) :: p.points.take 1 }).cmdEnd Reg.pwr 0x2104 1 .ok

end Dev

/-- The gain of two points as a fraction (R626): none when they may not be used, and then whether their gains are at fault. -/
def gainOf (e1 r1 e2 r2 : Nat) : Option (Nat × Nat) :=
  let inside (e r : Nat) : Bool := decide (r ≠ 0 ∧ 90 * r ≤ 100 * e ∧ 100 * e ≤ 110 * r)
  let a := e1 * r2
  let b := e2 * r1
  if inside e1 r1 && inside e2 r2 && decide (100 * (max a b - min a b) ≤ min a b) then some (a + b, 2 * r1 * r2) else none

/-- PSENSE_SAVE (R626, R593). -/
def State.psenseSave (s : State) : State :=
  let d := s.dev
  let fail (st : Status) : State := s.onDev fun d => (d.cmdBegin 0x2104).cmdEnd Reg.pwr 0x2104 1 st
  if d.busy 0x2104 then s.onDev (Dev.illegal Reg.pwr)
  else
    match d.pwr.points with
    | (e1, r1) :: (e2, r2) :: _ =>
      if max e1 e2 - min e1 e2 < 100000 ∨ max e1 e2 < 250000 then fail .stateConflict
      else
        (match gainOf e1 r1 e2 r2 with
         | none => fail .malformed
         | some g =>
           { s with nv := { s.nv with psense := .saved g },
                    dev := (((d.cmdBegin 0x2104).setFld 0x2114 18 18 0).setDegraded).cmdEnd Reg.pwr 0x2104 1 .ok })
    | _ => fail .stateConflict

/-! ### Meanings -/

/-- TEMPERATURE_SAMPLE (R622, R624). -/
def execTemperatureSample (raw : List Int) (s : State) : Host.Outcome State Fault Refusal := next (s.onDev (Dev.tempSample raw))
/-- POWER_SAMPLE (R614, R617). -/
def execPowerSample (m e : BitVec 16) (s : State) : Host.Outcome State Fault Refusal := next (s.onDev (Dev.powerSample m e))
/-- DECISION_POINT (R612). -/
def execDecisionPoint (est : List Nat) (s : State) : Host.Outcome State Fault Refusal := next (s.onDev (Dev.decide_ est))
/-- PACE_NOTICE_RECEIVE (R620). -/
def execPaceNoticeReceive (n : NodeId) (l : BitVec 3) (c : Word64) (s : State) : Host.Outcome State Fault Refusal :=
  next (s.onDev (Dev.paceReceive n l c))
/-- PWR_NOP (R630). -/
def execPwrNop (s : State) : Host.Outcome State Fault Refusal := next (s.onDev (Dev.pwrCmd fun d => (some .ok, d)))
/-- VOTE (R630). -/
def execVote (s : State) : Host.Outcome State Fault Refusal := next (s.onDev (Dev.pwrCmd Dev.vote))
/-- PART_POLICY (R630). -/
def execPartPolicy (p : PartId) (s : State) : Host.Outcome State Fault Refusal := next (s.onDev (Dev.pwrCmd (Dev.partPolicy p)))
/-- THERM_POINT (R627). -/
def execThermPoint (s : State) : Host.Outcome State Fault Refusal := next (s.onDev (Dev.pwrCmd Dev.thermPoint))
/-- THERM_SAVE (R627). -/
def execThermSave (s : State) : Host.Outcome State Fault Refusal := next s.thermSave
/-- PSENSE_POINT (R626). -/
def execPsensePoint (s : State) : Host.Outcome State Fault Refusal := next (s.onDev (Dev.pwrCmd Dev.psensePoint))
/-- PSENSE_POINT_DONE (R626). -/
def execPsensePointDone (raw : Nat) (s : State) : Host.Outcome State Fault Refusal := next (s.onDev (Dev.psensePointDone raw))
/-- PSENSE_SAVE (R626). -/
def execPsenseSave (s : State) : Host.Outcome State Fault Refusal := next s.psenseSave
/-- DUSK_ENTRY (R602). -/
def execDuskEntry (n : ClusterNo) (s : State) : Host.Outcome State Fault Refusal := next (s.onDev (Dev.duskEntry n.val))
/-- MIDNIGHT_ENTRY (R601). -/
def execMidnightEntry (n : DomainNo) (s : State) : Host.Outcome State Fault Refusal := next (s.onDev (Dev.midnightEntry n.val))
/-- ENTRY_STEP_DONE (R605). -/
def execEntryStepDone (n : DomainNo) (s : State) : Host.Outcome State Fault Refusal := next (s.onDev (Dev.entryStep n.val))
/-- DUSK_SAMPLER_WAKE (R603). -/
def execDuskSamplerWake (n : ClusterNo) (s : State) : Host.Outcome State Fault Refusal := next (s.onDev (Dev.duskSample n.val))
/-- CLUSTER_RESUME (R604). -/
def execClusterResume (n : ClusterNo) (s : State) : Host.Outcome State Fault Refusal := next (s.onDev (Dev.clusterResume n.val))
/-- DOMAIN_RETURN (R609). -/
def execDomainReturn (n : DomainNo) (s : State) : Host.Outcome State Fault Refusal := next (s.onDev (Dev.domainReturn n.val))
/-- DOMAIN_USABLE (R609). -/
def execDomainUsable (n : DomainNo) (s : State) : Host.Outcome State Fault Refusal := next (s.onDev (Dev.domainUsable n.val))
/-- PLANNED_SHUTDOWN (R434): the last vote on the port is gone, or EN is 0. -/
def execPlannedShutdown (p : PortNo) (s : State) : Host.Outcome State Fault Refusal :=
  next (s.onDev fun d => if d.fld (Dev.fabA p.val + 0x100) 0 0 = 0 ∨ !d.voted (36 + p.val) then d.beginShutdown p.val else d)

end Sys2Proof.Machine
end

