-- ==== Sys2Proof/Machine/Code.lean ====
section
/-! DEFINITION. The word code and the line erasure code, and the decoder of a DRAM read (R235 to R243). -/

namespace Sys2Proof.Machine

/-! ### The word code -/

/-- Number of set bits of a byte value. -/
def weight8 (n : Nat) : Nat := ((List.range 8).filter fun i => n.testBit i).length

/-- The columns h(0) to h(63) (R235): the 56 values of weight 3, then the first 8 of weight 5, each in ascending order. -/
def wordColumns : List Byte :=
  (((List.range 256).filter fun n => weight8 n == 3) ++ ((List.range 256).filter fun n => weight8 n == 5).take 8).map (BitVec.ofNat 8)

/-- The XOR of the columns of the set bits of a word. -/
def columnSum (w : Word64) : Byte :=
  ((List.range 64).zip wordColumns).foldl (fun a x => if w.getLsbD x.1 then a ^^^ x.2 else a) 0

/-- The fold F(a, t) (R236). -/
def addrFold (a t : Nat) : Byte :=
  let x := a ^^^ (t * 2 ^ 60)
  let f := (List.range 10).foldl (fun f i => f ^^^ (x / 2 ^ (7 * i) % 128)) 0
  BitVec.ofNat 8 (f + (if weight8 f % 2 = 1 then 128 else 0))

/-- The check value of a word at a fold address (R235). -/
def wordCheck (w : Word64) (a t : Nat) : Byte := columnSum w ^^^ addrFold a t

/-- The fold address of a word in DRAM, of tag 0 (R237). -/
def dramFold (ch a : Nat) : Nat := (ch * 2 ^ 40) ||| (a / 8)

/-- The fold address of a word on the mesh and the bridge, of tag 1, by its fabric address (R237). -/
def meshFold (fabric : Nat) : Nat := fabric / 8

/-- The fold address of a word in a core's local SRAM or, from 65,536 on, in its accumulators, of tag 2 (R237). -/
def coreFold (core word : Nat) : Nat := (core * 2 ^ 20) ||| word

/-- The word index of word m of accumulator k (R237). -/
def accWord (k m : Nat) : Nat := 65536 + 10 * k + m

/-- The fold address of a word of a device array, of tag 3 (R237). -/
def arrayFold (array word : Nat) : Nat := (array * 2 ^ 32) ||| word

/-- A word with its check value (R235). -/
structure CodeWord where
  data  : Word64
  check : Byte
deriving DecidableEq, Repr

/-- A holder's fold address and domain tag (R237). -/
structure Fold where
  addr : Nat
  tag  : Nat
deriving DecidableEq, Repr

/-- Encode a word for a holder (R235). -/
def encodeWord (x : Word64) (f : Fold) : CodeWord := ⟨x, wordCheck x f.addr f.tag⟩

/-- Pass a word from one holder to another without decoding it (R239). -/
def CodeWord.refold (x : CodeWord) (src dst : Fold) : CodeWord :=
  { x with check := x.check ^^^ addrFold src.addr src.tag ^^^ addrFold dst.addr dst.tag }

/-- The syndrome that a reader computes with its own fold address (R238). -/
def CodeWord.syndrome (x : CodeWord) (f : Fold) : Byte := wordCheck x.data f.addr f.tag ^^^ x.check

/-- A word after an error has flipped bits of it. -/
def CodeWord.flip (x : CodeWord) (e : WordFlip) : CodeWord := ⟨x.data ^^^ e.data, x.check ^^^ e.check⟩

/-! ### The DRAM line (R241) -/

/-- A line on the 40 bits of a subchannel, 16 beats; bit 40·beat + 4·device + bit. -/
abbrev DramLine := BitVec 640

/-- The nibble of a device in a beat. -/
def nib (x : DramLine) (beat dev : Nat) : BitVec 4 := x.extractLsb' (40 * beat + 4 * dev) 4

/-- Replace the nibble of a device in a beat. -/
def setNib (x : DramLine) (beat dev : Nat) (v : BitVec 4) : DramLine :=
  (x &&& ~~~((15#640) <<< (40 * beat + 4 * dev))) ||| (v.setWidth 640 <<< (40 * beat + 4 * dev))

/-- Word w of a line. -/
def dramWord (x : DramLine) (w : Nat) : Word64 :=
  x.extractLsb' (80 * w + 40) 32 ++ x.extractLsb' (80 * w) 32

/-- The stored check value of word w (device 8). -/
def dramCheck (x : DramLine) (w : Nat) : Byte := nib x (2 * w + 1) 8 ++ nib x (2 * w) 8

/-- The XOR of the ten nibbles of a beat. -/
def beatParity (x : DramLine) (b : Nat) : BitVec 4 := (List.range 10).foldl (fun a d => a ^^^ nib x b d) 0

/-- Encode a line, or the poison pattern, for a place in DRAM (R235, R241, R249). -/
def dramEncode (ch a : Nat) (data : Line) (bad : Bool) : DramLine :=
  foldN 8 (fun w x =>
    let v : Word64 := if bad then 0 else data.extractLsb' (64 * w) 64
    let c := wordCheck v (dramFold ch (a + 8 * w)) 0 ^^^ (if bad then 0xFF else 0)
    let put (b : Nat) (lo : BitVec 32) (ck : BitVec 4) (x : DramLine) : DramLine :=
      let y := x ||| (lo.setWidth 640 <<< (40 * b)) ||| (ck.setWidth 640 <<< (40 * b + 32))
      setNib y b 9 ((List.range 9).foldl (fun s d => s ^^^ nib y b d) 0)
    put (2 * w + 1) (v.extractLsb' 32 32) (c.extractLsb' 4 4) (put (2 * w) (v.extractLsb' 0 32) (c.extractLsb' 0 4) x)) 0

/-- The syndrome S_w of a word (R238). -/
def syndrome (ch a : Nat) (x : DramLine) (w : Nat) : Byte := wordCheck (dramWord x w) (dramFold ch (a + 8 * w)) 0 ^^^ dramCheck x w

/-- The eight syndromes. -/
def syndromes (ch a : Nat) (x : DramLine) : List Byte := (List.range 8).map (syndrome ch a x)

/-- The bit that a syndrome corrects in a word (R238): a data bit 0 to 63, or a check bit 64 to 71. -/
def correctableBit (s : Byte) : Option Nat :=
  match (List.range 64).find? fun i => wordColumns.getD i 0 == s with
  | some i => some i
  | none => ((List.range 8).find? fun j => (1#8 <<< j) == s).map (· + 64)

/-- What a reader outside DRAM makes of a word (R238): clean; corrected, with its data; or uncorrectable, which holds of the syndrome 0xFF too
unless every word of the line shows it (R249). -/
def CodeWord.decode (x : CodeWord) (f : Fold) : Option Word64 × Bool :=
  let s := x.syndrome f
  if s = 0 then (some x.data, false)
  else match correctableBit s with
    | some i => (some (if i < 64 then x.data ^^^ (1#64 <<< i) else x.data), true)
    | none => (none, false)

/-- Where a bit of word w lies in the line: beat and bit position. -/
def wordBitPos (w i : Nat) : Nat :=
  if i < 32 then 80 * w + i else if i < 64 then 80 * w + 40 + (i - 32) else if i < 68 then 80 * w + 32 + (i - 64)
  else 80 * w + 72 + (i - 68)

/-- Rebuild a device's nibbles from the other nine. -/
def rebuildDev (x : DramLine) (dev : Nat) : DramLine :=
  foldN 16 (fun b y => setNib y b dev (beatParity x b ^^^ nib x b dev)) x

/-- What the decoder finds. -/
inductive Finding where
  | clean | corrected | poisoned | uncorrectable
deriving DecidableEq, Repr

/-- A decoded line: the outcome, the step of R242 (7 for R243), the identified device, the syndromes and the data. -/
structure Decoded where
  out  : Finding
  step : Nat
  dev  : Option Nat
  syn  : List Byte
  data : Line

/-- The data of a received line. -/
def dramData (x : DramLine) : Line := (List.range 8).foldr (fun w (a : Line) => (a <<< 64) ||| (dramWord x w).setWidth 512) 0

/-- Whether all syndromes of a line have one value. -/
def allSyn (l : List Byte) (v : Byte) : Bool := l.all (· == v)

/-- The decoder with no marked device (R242). -/
def decodePlain (ch a : Nat) (x : DramLine) : Decoded :=
  let syn := syndromes ch a x
  let par (y : DramLine) : Bool := (List.range 16).all fun b => beatParity y b == 0
  if par x && allSyn syn 0 then ⟨.clean, 2, none, syn, dramData x⟩
  else if par x && allSyn syn 0xFF then ⟨.poisoned, 3, none, syn, 0⟩
  else
    let fixed : Option DramLine := (List.range 8).foldl (fun y w =>
      match y with
      | none => none
      | some y =>
        let s := syn.getD w 0
        if s = 0 then some y else (correctableBit s).map fun i => y ^^^ (1#640 <<< wordBitPos w i)) (some x)
    match (match fixed with | some y => if par y then some y else none | none => none) with
    | some y => ⟨.corrected, 4, none, syn, dramData y⟩
    | none =>
      let ok := (List.range 10).filter fun dv =>
        let s := syndromes ch a (rebuildDev x dv)
        allSyn s 0 || allSyn s 0xFF
      match ok with
      | [dv] =>
        let y := rebuildDev x dv
        if allSyn (syndromes ch a y) 0 then ⟨.corrected, 5, some dv, syn, dramData y⟩ else ⟨.poisoned, 5, some dv, syn, 0⟩
      | _ => ⟨.uncorrectable, 6, none, syn, 0⟩

/-- Index of a bit of word w that beat half b (0 or 1), device and bit position name: a data bit, or a check bit for device 8. -/
def wordBitOf (b dev i : Nat) : Option Nat :=
  if dev < 8 then some (32 * b + 4 * dev + i) else if dev = 8 then some (64 + 4 * b + i) else none

/-- The column of a bit of a word: a data bit or a check bit. -/
def bitColumn (i : Nat) : Byte := if i < 64 then wordColumns.getD i 0 else 1#8 <<< (i - 64)

/-- The pairs of bits of one beat and bit position in a device e and in the marked device m, with the XOR of their columns (R243).
A device 9 holds no word bit and adds no column. -/
def markedPairs (m : Nat) : List (Nat × Nat × Nat × Byte) :=
  (List.range 2).flatMap fun b => (List.range 10).flatMap fun e => (List.range 4).filterMap fun i =>
    if e = m then none
    else
      let col (dv : Nat) : Byte := match wordBitOf b dv i with | some k => bitColumn k | none => 0
      some (b, e, i, col e ^^^ col m)

/-- A line on the mesh or bridge: the memory-encryption engine has given each word a fresh check value for its place in DRAM (R240), which is refolded
to its fabric address (R239); the poison pattern keeps its check values (R249). -/
def meshLine (ch a fabric : Nat) (x : Line) (bad : Bool) : List CodeWord :=
  (List.range 8).map fun w =>
    let src : Fold := ⟨dramFold ch (a + 8 * w), 0⟩
    let c := encodeWord (if bad then 0 else x.extractLsb' (64 * w) 64) src
    ({ c with check := c.check ^^^ (if bad then 0xFF else 0) } : CodeWord).refold src ⟨meshFold (fabric + 8 * w), 1⟩

/-- What the holder at the end of the mesh makes of a line (R238, R249): the outcome, the syndromes, and the data. -/
def meshDecode (fabric : Nat) (l : List CodeWord) : Finding × List Byte × Line :=
  let f (w : Nat) : Fold := ⟨meshFold (fabric + 8 * w), 1⟩
  let syn := l.zipIdx.map fun x => x.1.syndrome (f x.2)
  let got := l.zipIdx.map fun x => x.1.decode (f x.2)
  let data : Line := got.foldr (fun x (a : Line) => (a <<< 64) ||| (x.1.getD 0).setWidth 512) 0
  if syn.all (· == 0) then (.clean, syn, data)
  else if syn.all (· == 0xFF) then (.poisoned, syn, 0)
  else if got.all fun x => x.1.isSome then (.corrected, syn, data)
  else (.uncorrectable, syn, 0)

/-- The decoder with marked device m (R243). Two pairs of bits can share one syndrome; which of them is inverted then the rule leaves open, and the
first in the order of beat, device and bit is. DESIGN CHOICE (log 71). -/
def decodeMarked (ch a m : Nat) (x : DramLine) : Decoded :=
  let x := rebuildDev x m
  let syn := syndromes ch a x
  if allSyn syn 0 then ⟨.clean, 7, none, syn, dramData x⟩
  else if allSyn syn 0xFF then ⟨.poisoned, 7, none, syn, 0⟩
  else
    let fixed : Option DramLine := (List.range 8).foldl (fun y w =>
      match y with
      | none => none
      | some y =>
        let s := syn.getD w 0
        if s = 0 then some y
        else ((markedPairs m).find? fun p => p.2.2.2 == s).map fun p =>
          y ^^^ (1#640 <<< (40 * (2 * w + p.1) + 4 * p.2.1 + p.2.2.1)) ^^^ (1#640 <<< (40 * (2 * w + p.1) + 4 * m + p.2.2.1))) (some x)
    match fixed with
    | some y => ⟨.corrected, 7, none, syn, dramData y⟩
    | none => ⟨.uncorrectable, 7, none, syn, 0⟩

end Sys2Proof.Machine
end

