-- ==== Sys2Proof/Machine/Ddr.lean ====
section
/-! DEFINITION. The DDR channels: scheduling, refresh, disturbance counting, parity recovery and training commands (R200 to R234). -/

namespace Sys2Proof.Machine

/-- Whether a DIMM is one that the device supports (R200). -/
def dimmSupported (x : Dimm) : Bool :=
  x.mrdimm && x.ecc && x.rate == 12800 && x.subs == 2 && x.dataBits == 32 && x.checkBits == 8 && x.width == 4 && (x.density == 16 || x.density == 32)
    && x.banks == 32 && x.groups == 8 && x.page == 1024 && (x.ranks == 2 || x.ranks == 4) && x.refresh && x.caParity && x.hub

/-- N of a DIMM (R201). -/
def dimmRows (x : Dimm) : Nat := 2 ^ 24 * (if x.density = 32 then 2 else 1) * (if x.ranks = 4 then 2 else 1)

/-- A bank that was never activated. -/
def bankReset : Bank := { acts := [], floor := 0, nbr := [], raa := 0, row := none }

/-- A rank before training. -/
def rankReset : Rank := { debt := 0, fast := false, dueAt := 0, windowAt := 0, calAt := 0, trackAt := 0 }

/-- Key of a physical bank: rank, subchannel and bank. -/
def bankKey (rank sub bank : Nat) : Nat := rank * 64 + sub * 32 + bank

/-- The rank of a physical bank. -/
def rankOf (k : Nat) : Nat := k / 64

/-- Insert an activation into the table of a bank (R217): the bank, with a neighbour refresh of the row queued where its count crosses. -/
def Bank.activate (b : Bank) (row thresh : Nat) : Bank :=
  let sat (n : Nat) : Nat := min n 0xFFFF
  let (acts, floor) :=
    if b.acts.any fun a => a.row == row then
      (b.acts.map fun a => if a.row = row then { a with count := sat (a.count + 1) } else a, b.floor)
    else if b.acts.length < 64 then (b.acts ++ [⟨row, sat (b.floor + 1)⟩], b.floor)
    else
      let low := b.acts.foldl (fun m a => min m a.count) 0xFFFF
      let ix := (b.acts.findIdx? fun a => a.count == low).getD 0
      (b.acts.set ix ⟨row, sat (low + 1)⟩, low)
  let cross := acts.any fun a => a.row == row && decide (a.count ≥ thresh)
  { b with
    acts := if cross then acts.map fun a => if a.row = row then { a with count := floor } else a else acts
    floor := floor
    nbr := if cross then b.nbr ++ [row] else b.nbr
    raa := b.raa + 1
    row := some row }

/-- The open rows before a command that was issued on some open rows. -/
def rowsBefore (q : ChanCmd) (rows : Tbl Nat) : Tbl Nat :=
  match q.op with
  | .act k _ => Tbl.drop k rows
  | .pre k row => Tbl.put k row rows
  | _ => rows

/-- The open rows after a command. -/
def rowsAfter (rows : Tbl Nat) (q : ChanCmd) : Tbl Nat :=
  match q.op with
  | .act k row => Tbl.put k row rows
  | .pre k _ => Tbl.drop k rows
  | _ => rows

/-- The open rows of a channel. -/
def DdrChan.openRows (x : DdrChan) : Tbl Nat := x.banks.filterMap fun b => b.2.row.map fun r => (b.1, r)

/-- A channel with exactly some rows open. -/
def DdrChan.setRows (rows : Tbl Nat) (x : DdrChan) : DdrChan :=
  let shut : Tbl Bank := x.banks.filterMap fun b => let y := { b.2 with row := none }; if y = bankReset then none else some (b.1, y)
  { x with banks := rows.foldl (fun t r => Tbl.set bankReset r.1 { Tbl.get bankReset t r.1 with row := some r.2 } t) shut }

namespace Dev

/-- The page address of a channel. -/
def ddrA (c : Nat) : Nat := Reg.ddr c * 4096

/-- Whether a channel is ACTIVE (R232). -/
def chanActive (d : Dev) (c : Nat) : Bool := d.fld (ddrA c + 0x100) 1 0 == 1

/-- Whether a channel keeps its DIMM refreshed (R230): it has been trained, ACTIVE or FAILED, and the halves are powered. -/
def chanTrained (d : Dev) (c : Nat) : Bool := d.fld (ddrA c + 0x100) 1 0 != 0 && d.dawn.powered

/-- Number of ranks of a channel. -/
def rankCount (d : Dev) (c : Nat) : Nat := if d.fld (ddrA c + 0x100) 2 2 = 1 then 4 else 2

/-- Whether a channel's latency port is in panic (R210). -/
def inPanic (d : Dev) (c : Nat) : Bool := d.fld (ddrA c + 0x100) 5 5 == 1

/-- A rank's refresh state. -/
def rank (d : Dev) (c r : Nat) : Rank := Tbl.get rankReset (d.chan c).ranks r

/-- Store a rank's refresh state. -/
def setRank (c r : Nat) (x : Rank) (d : Dev) : Dev := d.modChan c fun ch => { ch with ranks := Tbl.set rankReset r x ch.ranks }

/-- A bank's disturbance state. -/
def bank (d : Dev) (c k : Nat) : Bank := Tbl.get bankReset (d.chan c).banks k

/-- Store a bank's disturbance state. -/
def setBank (c k : Nat) (x : Bank) (d : Dev) : Dev := d.modChan c fun ch => { ch with banks := Tbl.set bankReset k x ch.banks }

/-- Change every bank of a rank. -/
def modRankBanks (c r : Nat) (f : Bank → Bank) (d : Dev) : Dev :=
  d.modChan c fun ch =>
    { ch with banks := ch.banks.filterMap fun b =>
        if rankOf b.1 = r then (let y := f b.2; if y = bankReset then none else some (b.1, y)) else some b }

/-- DDR.DIST_CFG.THRESH (R232). -/
def distThresh (d : Dev) (c : Nat) : Nat := max 0x100 (d.fld (ddrA c + 0x10C) 15 0)

/-- The management thresholds of a channel's DIMM, initial and maximum, when management applies to it (R219). -/
def rfmLevels (d : Dev) (c : Nat) : Option (Nat × Nat) :=
  match (d.chan c).dimm with
  | some x => if x.rfm then some (x.rfmInit, x.rfmMax) else if d.fld (ddrA c + 0x10C) 18 18 = 1 then some Config.rfmLowest else none
  | none => none

/-- tREFI in ns (R212). -/
def trefi (r : Rank) : Nat := if r.fast then 1950 else 3900

/-- The DDR clocks that have passed; a DDR clock is 0.625 ns (R223). -/
def ddrClock (d : Dev) : Nat := d.now * 8 / 5

/-- Enter a command into the retry buffer, which holds the last 64 (R220). -/
def record (c : Nat) (op : DimmOp) (d : Dev) : Dev :=
  d.modChan c fun x => { x with retry := (⟨op, d.ddrClock⟩ :: x.retry).take 64 }

/-- The bank and row of an access. -/
def bankOf (d : Dev) (c a : Nat) : Nat × Nat :=
  let (rank, bank, row) := d.dramPlace c a
  (bankKey rank (bits a 6 6) bank, row)

/-- Whether a bank may take n more ACTs before the maximum management threshold (R219). -/
def actsLeft (d : Dev) (c k n : Nat) : Bool := match d.rfmLevels c with | some (_, mx) => decide ((d.bank c k).raa + n ≤ mx) | none => true

/-- Whether a bank accepts an activation (R218, R219). -/
def bankOpen (d : Dev) (c k : Nat) : Bool := decide ((d.bank c k).nbr.length < 4) && d.actsLeft c k 1

/-- Close the open row of a bank. -/
def precharge (c k : Nat) (d : Dev) : Dev :=
  match (d.bank c k).row with
  | some row => (d.setBank c k { d.bank c k with row := none }).record c (.pre k row)
  | none => d

/-- RFM to a bank whose count has reached the initial threshold (R219). -/
def manage (c k : Nat) (d : Dev) : Dev :=
  match d.rfmLevels c with
  | none => d
  | some (lo, _) =>
    if (d.bank c k).raa < lo then d
    else
      let d := d.precharge c k
      let b := d.bank c k
      ((d.setBank c k { b with raa := b.raa - Config.rfmStep true }).bump (Reg.ddr c) 0x058 1).record c (.rfm k)

/-- Open the row of an access, with an ACT that its bank's table counts (R217, R219). -/
def openRow (c a : Nat) (d : Dev) : Dev :=
  let (k, row) := d.bankOf c a
  if (d.bank c k).row = some row then d
  else
    let d := d.precharge c k
    ((d.setBank c k ((d.bank c k).activate row (d.distThresh c))).record c (.act k row)).manage c k

/-- Issue a read or a write to the DIMM (R217 to R220). -/
def issue (c : Nat) (q : ChanReq) (write : Bool) (d : Dev) : Dev :=
  (d.openRow c q.line).record c (if write then .write q.line q.data else .read q.line)

/-- The most refresh intervals that a rank may be behind (R213). -/
def debtLimit (d : Dev) (c : Nat) : Nat := min 4 (d.fld (ddrA c + 0x108) 3 1)

/-- Whether a rank waits for a refresh that is due and whose postponement has reached the limit (R213, R225). -/
def mustRefresh (d : Dev) (c r : Nat) : Bool := decide ((d.rank c r).dueAt ≤ d.now ∧ d.debtLimit c ≤ (d.rank c r).debt)

/-- Whether a rank has a neighbour refresh queued (R225). -/
def nbrQueued (d : Dev) (c r : Nat) : Bool := (d.chan c).banks.any fun b => rankOf b.1 == r && !b.2.nbr.isEmpty

/-- Whether a rank waits for a demand that goes before reads and writes (R225): a refresh at its limit, one that is due outside panic, or a
neighbour refresh. -/
def rankWaits (d : Dev) (c r : Nat) : Bool :=
  d.mustRefresh c r || (!d.inPanic c && decide ((d.rank c r).dueAt ≤ d.now)) || d.nbrQueued c r

/-- Whether a request can be issued now: its rank waits for nothing that goes before it (R225), and its row is open or its bank accepts an ACT. -/
def issuable (d : Dev) (c : Nat) (q : ChanReq) : Bool :=
  let (k, row) := d.bankOf c q.line
  !d.rankWaits c (rankOf k) && ((d.bank c k).row == some row || d.bankOpen c k)

/-- Whether a request hits an open row. -/
def rowHit (d : Dev) (c : Nat) (q : ChanReq) : Bool := (d.bank c (d.bankOf c q.line).1).row == some (d.bankOf c q.line).2

/-- The read of a port that is served next (R208): one that hits an open row before an older one that does not. -/
def pickRead (d : Dev) (c : Nat) (l : List ChanReq) : Option ChanReq :=
  let ok := l.filter (d.issuable c)
  match ok.find? (d.rowHit c) with
  | some q => some q
  | none => ok.head?

/-- The write that a batch issues next: the oldest that can be issued, after every earlier access to its line (R207). -/
def pickWrite (d : Dev) (c : Nat) : Option ChanReq :=
  let x := d.chan c
  x.wr.find? fun w => d.issuable c w && !((x.lat ++ x.bulk).any fun q => q.line == w.line) && (x.wr.find? fun v => v.line == w.line) == some w

/-- The oldest read of both ports that is older than AGE_CAP (R208), of the latency port when true. -/
def agedRead (d : Dev) (c : Nat) (l : List (Bool × ChanReq)) : Option (Bool × ChanReq) :=
  let cap := min1 (d.fld (ddrA c + 0x104) 23 16) * 100
  l.foldl (fun best q =>
    if d.now ≤ q.2.since + cap then best
    else match best with
      | some b => if q.2.since < b.2.since then some q else best
      | none => some q) none

/-- The read that the scheduler serves next (R208, R210, R211). Outside panic a read older than AGE_CAP goes before every younger read, and none
passes it; in panic the latency port goes first, but for one aged bulk read in every 16 reads. -/
def nextRead (d : Dev) (c : Nat) : Option (Bool × ChanReq) :=
  let x := d.chan c
  if d.inPanic c then
    let old := if x.sinceBulk ≥ 15 then d.agedRead c (x.bulk.filter (d.issuable c) |>.map (false, ·)) else none
    match old with
    | some q => some q
    | none => if x.lat.isEmpty then (d.pickRead c x.bulk).map (false, ·) else (d.pickRead c x.lat).map (true, ·)
  else
    match d.agedRead c (x.lat.map (true, ·) ++ x.bulk.map (false, ·)) with
    | some q => if d.issuable c q.2 then some q else none
    | none =>
      match d.pickRead c x.lat, d.pickRead c x.bulk with
      | some a, some b => if x.rrBulk then some (false, b) else some (true, a)
      | some a, none => some (true, a)
      | none, some b => some (false, b)
      | none, none => none

/-- Serve a read of a port: its entry is free, and what waits at the home agent may take it. -/
def serveRead (c : Nat) (latency : Bool) (q : ChanReq) (d : Dev) : Dev :=
  let x := d.chan c
  let x := if latency then { x with lat := x.lat.erase q, sinceBulk := x.sinceBulk + 1 } else { x with bulk := x.bulk.erase q, sinceBulk := 0 }
  ((d.setChan c x.readmit).issue c q false).setPanic c

/-- The round robin after a read of a port (R208): the port whose turn it is uses up its weight. -/
def rrStep (c : Nat) (latency : Bool) (d : Dev) : Dev :=
  let sa := ddrA c + 0x104
  let wt (b : Bool) : Nat := if b then min1 (d.fld sa 15 12) else min1 (d.fld sa 11 8)
  d.modChan c fun x =>
    if x.rrBulk = latency then x
    else if x.rrLeft ≤ 1 then { x with rrBulk := !x.rrBulk, rrLeft := wt (!x.rrBulk) } else { x with rrLeft := x.rrLeft - 1 }

/-- Whether a batch of writes runs (R209, R210): it starts above 48 entries, in panic only with a full buffer, and ends below 16. -/
def batchNow (d : Dev) (c : Nat) : Bool :=
  let x := d.chan c
  if x.batch then decide (x.wr.length ≥ 16) else if d.inPanic c then decide (x.wr.length ≥ 64) else decide (x.wr.length > 48)

/-- One choice of the scheduler (R207 to R211): a write of a batch that runs, or a read; while CHECK runs, no read (R233). -/
def schedule (c : Nat) (d : Dev) : Dev :=
  if ¬ d.chanActive c ∨ (d.chan c).recover then d
  else
    let batch := d.batchNow c
    let d := d.modChan c fun x => { x with batch := batch }
    match (if batch then d.pickWrite c else none) with
    | some w =>
      let d := d.modChan c fun x => { x with wr := x.wr.erase w, batch := decide ((x.wr.erase w).length ≥ 16) }
      (d.modChan c DdrChan.readmit).issue c w true
    | none =>
      match (if (d.chan c).cmdWaits then none else d.nextRead c) with
      | some (latency, q) => (d.rrStep c latency).serveRead c latency q
      | none => d

/-- A rank is refreshed (R212, R213): every interval owed and the one due, by REFab or by REFsb of the four bank indexes; its rows close, and its
accumulated counts go down (R219). -/
def refreshRank (c r : Nat) (d : Dev) : Dev :=
  let x := d.rank c r
  let n := x.debt + 1
  let all := d.fld (ddrA c + 0x108) 0 0 = 1
  let shut := ((d.chan c).openRows.filter fun y => rankOf y.1 == r).map (·.1)
  let d := shut.foldl (fun d k => d.precharge c k) d
  let d := (d.setRank c r { x with debt := 0, dueAt := x.dueAt + trefi x }).bump (Reg.ddr c) 0x040 (if all then n else 4 * n)
  let d := d.modRankBanks c r fun b => { b with raa := b.raa - Config.rfmStep false }
  foldN n (fun _ d => if all then d.record c (.refab r) else foldN 4 (fun i d => d.record c (.refsb r i)) d) d

/-- A rank's refresh interval falls due (R212, R213): it is postponed in panic within the limit; outside panic a queued neighbour refresh goes first
(R225); a channel in recovery issues nothing (R221). A FAILED channel's ranks are refreshed too (R230). -/
def refreshDue (c r : Nat) (d : Dev) : Dev :=
  let x := d.rank c r
  if ¬ d.chanTrained c ∨ (d.chan c).recover ∨ d.rankCount c ≤ r ∨ d.now < x.dueAt then d
  else if d.mustRefresh c r then d.refreshRank c r
  else if d.inPanic c then (d.setRank c r { x with debt := x.debt + 1, dueAt := x.dueAt + trefi x }).bump (Reg.ddr c) 0x048 1
  else if d.nbrQueued c r then d
  else d.refreshRank c r

/-- A CHANNEL_EVENT record (R261). The manual gives it no DETAIL; byte 40 holds the cause that R203 asks for: 1 channel empty, 2 unsupported DIMM,
3 training failed, 4 DIMMs larger than N, 5 temperature above the rated range, 6 channel failed, 7 channel FAILED before. DESIGN CHOICE (log 75). -/
def logChan (c sev loc why : Nat) (d : Dev) : Dev :=
  d.log (halfOfChan c) { type := 0x0E, sev := sev, block := blockOf (Reg.ddr c), loc := loc, detail := [(40, 1, why)] }

/-- Mode register 4 of every rank is read every 4 ms and the rate applied; a temperature above the rated range is reported each time (R212, R214). -/
def mr4Poll (c : Nat) (hot : List Mr4) (d : Dev) : Dev :=
  if ¬ d.chanTrained c ∨ (d.chan c).recover ∨ d.now < (d.chan c).mr4At then d
  else
    let d := d.modChan c fun x => { x with mr4At := d.now + 4000000 }
    let d := foldN (d.rankCount c) (fun r d =>
      let h := hot.getD r .normal
      let d := (d.record c (.mr4 r)).setRank c r { d.rank c r with fast := h != .normal }
      if h = .above then (d.cause (Reg.ddr c) 2).logChan c 2 (c + r * 32) 5 else d) d
    d.setFld (ddrA c + 0x100) 4 4 (if (List.range (d.rankCount c)).any fun r => (d.rank c r).fast then 1 else 0)

/-- The rows that a neighbour refresh of a row activates (R218): those of the radius that exist. -/
def neighbours (d : Dev) (c row : Nat) : List Nat :=
  (if d.fld (ddrA c + 0x10C) 17 16 = 2 then [1, 2] else [1]).flatMap fun n =>
    (if n ≤ row then [row - n] else []) ++ (if row + n < 2 ^ (d.dimmBits c).1 then [row + n] else [])

/-- The oldest queued neighbour refresh of a bank runs (R218): its activations are not counted in the table, and count for refresh
management, which must leave room for them (R219). A refresh at its limit goes first (R225). -/
def neighbourRefresh (c k : Nat) (d : Dev) : Dev :=
  match (d.bank c k).nbr with
  | [] => d
  | row :: rest =>
    let rows := d.neighbours c row
    if (d.chan c).recover ∨ d.mustRefresh c (rankOf k) then d
    else if !d.actsLeft c k rows.length then d.manage c k
    else
      let d := d.precharge c k
      let b := d.bank c k
      let d := (d.setBank c k { b with nbr := rest, raa := b.raa + rows.length }).bump (Reg.ddr c) 0x050 1
      (rows.foldl (fun d x => d.record c (.neighbour k x)) d).manage c k

/-- The refresh window of a rank ends (R217): its tables are cleared, floor included. R217 does not say when a window ends whose rank changes
its rate; the window that runs keeps its end, and the next has the new length. DESIGN CHOICE (log 71). -/
def windowClear (c r : Nat) (d : Dev) : Dev :=
  let x := d.rank c r
  if ¬ d.chanTrained c ∨ d.rankCount c ≤ r ∨ d.now < x.windowAt then d
  else (d.setRank c r { x with windowAt := d.now + (if x.fast then 16000000 else 32000000) }).modRankBanks c r fun b => { b with acts := [], floor := 0 }

/-- A parity alert (R221, R224): the channel stops, every command issued within WIN DDR clocks before it counts as not executed, and every bank is
precharged. Whether the alert that starts a recovery is one of the 3 of R224 the rule leaves open; it is counted. DESIGN CHOICE (log 71). -/
def parityAlert (c : Nat) (d : Dev) : Dev :=
  if ¬ d.chanActive c then d
  else
    let win := d.fld (ddrA c + 0x110) 7 0
    let now := d.ddrClock
    (d.modChan c fun x =>
      if x.recover then { x with alerts := x.alerts + 1 }
      else
        let back := x.retry.filter fun q => decide (now ≤ q.time + win)
        ({ x with recover := true, alerts := 1, window := back.reverse,
                  reopen := back.foldl (fun rows q => rowsBefore q rows) x.openRows }).setRows []).bump (Reg.ddr c) 0x060 1

/-- The rows that were open before the window are opened, the window's commands are issued again in their order, and scheduling resumes (R221,
R222). -/
def replayDone (c : Nat) (d : Dev) : Dev :=
  let n := (d.chan c).window.length
  let now := d.ddrClock
  (d.modChan c fun x =>
    ({ x with recover := false, alerts := 0, window := [], reopen := [],
              retry := ((x.window.map fun (q : ChanCmd) => ({ q with time := now } : ChanCmd)).reverse ++ x.retry).take 64 }).setRows
      (x.window.foldl rowsAfter x.reopen)).bump (Reg.ddr c) 0x068 n

/-- The replay of a recovery ends without an alert (R221). -/
def parityReplay (c : Nat) (d : Dev) : Dev :=
  let x := d.chan c
  if x.recover ∧ x.alerts < 3 ∧ d.chanActive c then d.replayDone c else d

/-- The command-address bus is retrained after 3 alerts, and the window replayed (R224): one more alert fails the channel. -/
def caRetrain (c : Nat) (again : Bool) (d : Dev) : Dev :=
  let x := d.chan c
  if ¬ (x.recover ∧ x.alerts ≥ 3 ∧ d.chanActive c) then d
  else if again then
    let d := (d.bump (Reg.ddr c) 0x060 1).modChan c fun x =>
      { x with recover := false, window := [], reopen := [], retrained := true, lat := [], bulk := [], wr := [], waits := [] }
    (((d.setFld (ddrA c + 0x100) 1 0 2).setFld (ddrA c + 0x100) 5 5 0).cause (Reg.ddr c) 3).logChan c 2 c 6
  else (d.modChan c fun x => { x with retrained := true }).replayDone c

/-- A periodic calibration takes its rank (R229): impedance calibration every 128 ms, read-clock tracking every 16 ms; content and results stay. -/
def calibrate (c r : Nat) (tracking : Bool) (d : Dev) : Dev :=
  let x := d.rank c r
  if ¬ d.chanTrained c ∨ (d.chan c).recover ∨ d.rankCount c ≤ r ∨ d.now < (if tracking then x.trackAt + 16000000 else x.calAt + 128000000) then d
  else (d.record c (.calibrate r tracking)).setRank c r (if tracking then { x with trackAt := d.now } else { x with calAt := d.now })

/-- A command of DDR.TRAIN_CMD (R233). -/
def trainCmd (c : Nat) (f : Dev → Option Status × Dev) (d : Dev) : Dev :=
  if d.busy (ddrA c + 0x118) then d.illegal (Reg.ddr c)
  else
    match f (d.cmdBegin (ddrA c + 0x118)) with
    | (some st, d) => d.cmdEnd (Reg.ddr c) (ddrA c + 0x118) 1 st
    | (none, d) => d

/-- CHECK begins: the channel's reads wait (R233). -/
def trainCheck (c : Nat) (d : Dev) : Option Status × Dev :=
  if d.chanActive c then (none, d.modChan c fun x => { x with cmdWaits := true }) else (some .stateConflict, d)

/-- The reads that waited at the home agents for a channel go on. -/
def readsGoOn (d : Dev) : Dev :=
  ((d.coh.tx.filter fun x => x.2.snoops.isEmpty && x.2.grant.isNone && x.2.req.isSome).map (·.1)).foldl (fun d l => d.advance l) d

/-- CHECK ends (R233). -/
def trainCheckDone (c : Nat) (pass : Bool) (d : Dev) : Dev :=
  if (d.chan c).cmdWaits then
    ((d.modChan c fun x => { x with cmdWaits := false }).readsGoOn).cmdEnd (Reg.ddr c) (ddrA c + 0x118) 1 (if pass then .ok else .uncorrectable)
  else d

end Dev

/-- SAVE (R228, R233): the stored results of the channel and its DIMM are replaced. -/
def State.trainSave (c : Nat) (s : State) : State :=
  let d := s.dev
  let a := Dev.ddrA c + 0x118
  if d.busy a then { s with dev := d.illegal (Reg.ddr c) }
  else if d.chanActive c then
    let x := d.chan c
    { s with nv := { s.nv with training := match x.dimm with | some m => Tbl.put c (m.serial, x.results) s.nv.training | none => s.nv.training },
             dev := (d.cmdBegin a).cmdEnd (Reg.ddr c) a 1 .ok }
  else { s with dev := (d.cmdBegin a).cmdEnd (Reg.ddr c) a 1 .stateConflict }

/-- DDR_NOP. -/
def execDdrNop (c : ChanNo) (s : State) : Host.Outcome State Fault Refusal := next (s.onDev (Dev.trainCmd c.val fun d => (some .ok, d)))
/-- TRAIN_SAVE. -/
def execTrainSave (c : ChanNo) (s : State) : Host.Outcome State Fault Refusal := next (s.trainSave c.val)
/-- TRAIN_CHECK. -/
def execTrainCheck (c : ChanNo) (s : State) : Host.Outcome State Fault Refusal := next (s.onDev (Dev.trainCmd c.val (Dev.trainCheck c.val)))
/-- TRAIN_CHECK_DONE. -/
def execTrainCheckDone (c : ChanNo) (pass : Bool) (s : State) : Host.Outcome State Fault Refusal :=
  next (s.onDev (Dev.trainCheckDone c.val pass))
/-- REFRESH_DUE. -/
def execRefreshDue (c : ChanNo) (r : Fin 4) (s : State) : Host.Outcome State Fault Refusal := next (s.onDev (Dev.refreshDue c.val r.val))
/-- MR4_POLL. -/
def execMr4Poll (c : ChanNo) (hot : List Mr4) (s : State) : Host.Outcome State Fault Refusal := next (s.onDev (Dev.mr4Poll c.val hot))
/-- DRAM_READ_ISSUE. -/
def execDramReadIssue (c : ChanNo) (s : State) : Host.Outcome State Fault Refusal := next (s.onDev (Dev.schedule c.val))
/-- NEIGHBOUR_REFRESH. -/
def execNeighbourRefresh (c : ChanNo) (k : Nat) (s : State) : Host.Outcome State Fault Refusal :=
  next (s.onDev (Dev.neighbourRefresh c.val k))
/-- REFRESH_WINDOW_CLEAR. -/
def execRefreshWindowClear (c : ChanNo) (r : Fin 4) (s : State) : Host.Outcome State Fault Refusal :=
  next (s.onDev (Dev.windowClear c.val r.val))
/-- PARITY_ALERT. -/
def execParityAlert (c : ChanNo) (s : State) : Host.Outcome State Fault Refusal := next (s.onDev (Dev.parityAlert c.val))
/-- PARITY_REPLAY. -/
def execParityReplay (c : ChanNo) (s : State) : Host.Outcome State Fault Refusal := next (s.onDev (Dev.parityReplay c.val))
/-- CA_RETRAIN. -/
def execCaRetrain (c : ChanNo) (again : Bool) (s : State) : Host.Outcome State Fault Refusal := next (s.onDev (Dev.caRetrain c.val again))
/-- PERIODIC_CALIBRATION. -/
def execPeriodicCalibration (c : ChanNo) (r : Fin 4) (t : Bool) (s : State) : Host.Outcome State Fault Refusal :=
  next (s.onDev (Dev.calibrate c.val r.val t))

end Sys2Proof.Machine
end

