-- ==== Sys2Proof/Machine/Ras.lean ====
section
/-! DEFINITION. Data integrity: what a DRAM read finds, device marking, the scrubber, retirement and the RAS commands (R235 to R266). -/

namespace Sys2Proof.Machine

namespace Dev

/-- The pool line that a DRAM line holds: extent index, extent and pool offset (R48, R161). -/
def offOf (d : Dev) (k : Nat) : Option (Nat × Ext × Nat) :=
  let c := keyChan k
  let row := keyAddr k / 4096
  let inner := keyAddr k % 4096
  if row < d.tier.pinRows then
    d.coh.exts.findSome? fun x =>
      let e := x.2
      if e.state = .free ∨ e.tiered ∨ ¬ e.backs (memKey c (row * 4096)) then none
      else
        let g := if e.place = 0 then (row - e.backing.toNat) * 24 + (if c < 12 then 2 * c else 2 * (c - 12) + 1)
          else (row - e.backing.toNat) * 12 + c % 12
        if g < e.granules then some (x.1, e, e.first + g * 4096 + inner) else none
  else
    d.tier.frames.findSome? fun x =>
      if ¬ x.2.valid then none
      else (List.range 16).findSome? fun g =>
        let pl := framePlace d.tier (x.1 / 2 ^ 32) (x.1 % 2 ^ 32) g
        if pl = (c, row) then
          some (x.2.ext.toNat, d.ext x.2.ext.toNat, d.blockOff x.2.ext.toNat x.2.block + g * 4096 + inner)
        else none

/-- The host that a read serves. -/
def readerNode : Reader → Option NodeId
  | .host n _ => some n
  | .merge n _ => some n
  | _ => none

/-- The record of a finding (R260 to R262): the requester and the status it gets. `flags`: 2 found by the scrubber, 4 overwritten. -/
def logFinding (k type sev flags : Nat) (x : Decoded) (node : Option NodeId) (st : Status) (d : Dev) : Dev :=
  let mask := (List.range 8).foldl (fun a w => if x.syn.getD w 0 = 0 then a else a + 2 ^ w) 0
  let own := d.offOf k
  d.log (halfOfChan (keyChan k))
    { type := type, sev := sev, block := blockOf (Reg.ddr (keyChan k)), flags := flags,
      part := own.map fun o => o.2.1.part, node := node, status := st.code.toNat,
      addr := match own with | some o => d.fabAddr o.2.2 | none => 0,
      loc := d.locOf k + (x.dev.getD 0) * 2 ^ 38 + mask * 2 ^ 48,
      detail := [(40, 1, x.step), (41, 1, x.dev.getD 0xFF)] ++ (List.range 8).map fun w => (42 + 2 * w, 2, (x.syn.getD w 0).toNat) }

/-- Mark a device of a rank and subchannel (R244): RAS.MARKn, DEVICE_MARKED and a record. -/
def markDevice (c rank sub dev : Nat) (d : Dev) : Dev :=
  let h := halfOfChan c
  let m := Tbl.get ⟨none, 0, 0⟩ (d.chan c).marks (rank * 2 + sub)
  let d := d.modChan c fun x => { x with marks := Tbl.set ⟨none, 0, 0⟩ (rank * 2 + sub) { m with marked := some dev } x.marks }
  let a := Reg.ras h * 4096 + 0x240 + 4 * (c % 12)
  let j := 2 * rank + sub
  ((d.setFld a (4 * j + 3) (4 * j) dev).cause (Reg.ras h) 2).log h
    { type := 0x08, sev := 2, block := blockOf (Reg.ras h), loc := c + rank * 2 ^ 5 + sub * 2 ^ 7 + dev * 2 ^ 38 }

/-- An identification in step 5 of R242 counts toward marking (R244). -/
def identify (c rank sub dev : Nat) (d : Dev) : Dev :=
  let h := halfOfChan c
  let m := Tbl.get ⟨none, 0, 0⟩ (d.chan c).marks (rank * 2 + sub)
  let n := if m.count ≠ 0 ∧ m.cand = dev then m.count + 1 else 1
  let d := d.modChan c fun x => { x with marks := Tbl.set ⟨none, 0, 0⟩ (rank * 2 + sub) { m with cand := dev, count := n } x.marks }
  let cfg := Reg.ras h * 4096 + 0x10C
  if d.fld cfg 4 4 = 1 ∧ n ≥ min1 (d.fld cfg 3 0) then d.markDevice c rank sub dev else d

/-- What DRAM holds of a line: that of an extent encrypted under its key slot (R32, R240), any other in clear. -/
def stored (d : Dev) (k : Nat) : Line :=
  match d.offOf k with
  | some (_, e, off) => dramCipher e.secret (off / 64) (d.mem.line k)
  | none => d.mem.line k

/-- Make DRAM hold a line of code words. -/
def store (k : Nat) (x : Line) (d : Dev) : Dev :=
  let y := match d.offOf k with
    | some (_, e, off) => (dramCipher e.secret (off / 64)).symm x
    | none => x
  { d with mem := d.mem.setLine k y }

/-- Decode what a read of a line receives: the stored code with the flipped bits (R242, R243). -/
def decodeLine (d : Dev) (k : Nat) (flips : BitVec 640) : Decoded :=
  let c := keyChan k
  let a := keyAddr k
  let x := dramEncode c a (d.stored k) (d.mem.bad k) ^^^ flips
  let (rank, _, _) := d.dramPlace c a
  match (Tbl.get ⟨none, 0, 0⟩ (d.chan c).marks (rank * 2 + bits a 6 6)).marked with
  | some m => decodeMarked c a m x
  | none => decodePlain c a x

/-- The lost-set entry of a frame (R256): phase and set, or the full-table flag. -/
def loseSet (h : Half) (p s : Nat) (d : Dev) : Dev :=
  { d with ras := d.ras.mod h fun r =>
      if r.lost.contains (p * 2 ^ 32 + s) then r
      else if r.lost.length < 256 then { r with lost := NSet.insert (p * 2 ^ 32 + s) r.lost } else { r with lostAll := true } }

/-- A frame becomes invalid without writeback (R256): the copies that hosts hold of its lines are recalled, since a host holds a line only while its
block is resident (R165), and what comes back is dropped. -/
def dropFrame (k : Nat) (d : Dev) : Dev :=
  let f := d.frame k
  let d := if f.valid then d.recallBlock f.ext.toNat f.block (.drop f.block) .inv false else d
  (d.modTier fun t => { t with refills := t.refills.filter fun x => x != k }).freeFrame k

/-- An uncorrectable tag line (R256): both frames become invalid without writeback, their phase and set is lost. -/
def loseTags (k : Nat) (d : Dev) : Dev :=
  let (p, f) := Config.tagPair k
  let s := f / 16
  let h : Half := if s % 2 = 0 then .west else .east
  ((((d.dropFrame (frameKey p f)).dropFrame (frameKey p (f + 1))).loseSet h p s).cause (Reg.ras h) 5).log h
    { type := 0x11, sev := 2, block := blockOf (Reg.ras h), loc := d.locOf k }

/-- An uncorrectable line of the thatch map (R257): its 16 entries make their blocks fill as poison and stay resident. -/
def loseMap (k : Nat) (d : Dev) : Dev :=
  let first := Config.mapLine k
  let d := foldN 16 (fun i d => if first + i < d.tier.blocks then d.setMap (first + i) 0xFFFFFFFF else d) d
  let d := d.modTier fun t =>
    { t with frames := t.frames.map fun f => (f.1, if f.2.valid ∧ first ≤ f.2.block ∧ f.2.block < first + 16 then { f.2 with pin := true } else f.2) }
  let h := halfOfChan (keyChan k)
  d.log h { type := 0x12, sev := 2, block := blockOf (Reg.ras h), loc := d.locOf k }

/-- Refill a block whose clean line was lost (R172): the copies that hosts hold of its lines are recalled (R165), and the block is then filled again in
its frame. -/
def refill (key : Nat) (d : Dev) : Dev := (d.modTier fun t => { t with refills := NSet.insert key t.refills }).startEvict key

/-- Write the poison pattern into a line that belongs to no extent. -/
def poisonKey (k : Nat) (d : Dev) : Dev :=
  let h := halfOfChan (keyChan k)
  (({ d with mem := d.mem.setBad k }).bump (Reg.ras h) 0x058 1).log h
    { type := 0x04, sev := 1, block := blockOf Reg.coh, loc := d.locOf k, detail := [(41, 1, 0xFF)] }

/-- The frame whose block is refilled for an uncorrectable line (R172): a clean line of a block with no dirty granule, not for a merge. -/
def refillFrame (d : Dev) (k : Nat) (refillOk : Bool) : Option Nat :=
  match d.offOf k with
  | some (_, e, off) =>
    match (if e.tiered ∧ refillOk then d.frameOf (blockNo e off) else none) with
    | some (key, f) => if f.dirty = 0 ∧ f.state = .idle then some key else none
    | none => none
  | none => none

/-- What happens to a line with an uncorrectable error (R172, R248, R250, R251). `refillOk` is false for a merge. -/
def loseLine (k : Nat) (refillOk scrub : Bool) (d : Dev) : Dev :=
  let row := keyAddr k / 4096
  if row ≥ d.tier.rows - d.tier.rows / 2048 then (d.poisonKey k).loseTags k
  else if row ≥ d.tier.mapFirst then (d.poisonKey k).loseMap k
  else
    match d.offOf k with
    | none => if scrub then { d with mem := d.mem.setLine k 0 } else d.poisonKey k
    | some (_, e, off) =>
      match d.refillFrame k refillOk with
      | some key => d.refill key
      | none => d.poisonWrite e off

/-- Whether the line that a DRAM line holds is in transition (R251). -/
def moving (d : Dev) (k : Nat) : Bool := match d.offOf k with | some (_, _, off) => (d.tx? (off / 64)).isSome | none => false

/-- A correction write is asked of the line's home (R245, R251): it rereads the line, or skips and counts it while the line is in transition. -/
def askCorrection (k : Nat) (d : Dev) : Dev :=
  let h := halfOfChan (keyChan k)
  if d.moving k then d.bump (Reg.ras h) 0x070 1
  else ({ d with ras := d.ras.mod h fun r => { r with rereads := NSet.insert k r.rereads } }).noteRead false k

/-- What a read finds is counted, recorded and acted on (R242 to R245, R248 to R251). R244 does not give the order of the two records of the read that
marks a device; DEVICE_MARKED comes first. DESIGN CHOICE (log 71). -/
def found (k : Nat) (x : Decoded) (reader : Reader) (scrub : Bool) (d : Dev) : Dev :=
  let c := keyChan k
  let ras := Reg.ras (halfOfChan c)
  let fl := if scrub then 2 else 0
  let node := readerNode reader
  let refillOk := match reader with | .merge _ _ => false | _ => true
  let (rank, _, _) := d.dramPlace c (keyAddr k)
  let d := match x.dev with
    | some dv => d.identify c rank (bits (keyAddr k) 6 6) dv
    | none => d
  match x.out with
  | .clean => if x.data = d.stored k ∧ ¬ d.mem.bad k then d else d.store k x.data
  | .corrected =>
    let d := match x.dev with
      | some _ => (d.bump ras 0x048 1).logFinding k 0x02 0 fl x node .ok
      | none => (d.bump ras 0x040 (x.syn.filter (· != 0)).length).logFinding k 0x01 0 fl x node .ok
    d.askCorrection k
  | .poisoned =>
    let d := if d.mem.bad k then d else { d with mem := d.mem.setBad k }
    if scrub then (d.bump ras 0x050 1).logFinding k 0x03 1 fl x node .ok else d
  | .uncorrectable =>
    let zero := scrub && (d.offOf k).isNone && decide (keyAddr k / 4096 < d.tier.mapFirst)
    let st : Status := if scrub then .ok else if (d.refillFrame k refillOk).isSome then .tierFill else .uncorrectable
    ((d.bump ras 0x050 1).logFinding k 0x03 1 (fl + (if zero then 4 else 0)) x node st).loseLine k refillOk scrub

/-- The reread of a correction write (R251): the line is written back when the reread still corrects and the line is not in transition. -/
def reread (k : Nat) (flips : BitVec 640) (d : Dev) : Dev :=
  let h := halfOfChan (keyChan k)
  if !(d.ras.at h).rereads.contains k then d
  else
    let d := { d with ras := d.ras.mod h fun r => { r with rereads := NSet.erase k r.rereads } }
    let x := d.decodeLine k flips
    if d.moving k then d.bump (Reg.ras h) 0x070 1
    else match x.out with
      | .corrected => (d.store k x.data).noteWrite k (some x.data)
      | .uncorrectable => d.found k x .none false
      | _ => d

/-- Whether the alert that a channel recovers from came before a read's data was complete (R221, R223): the read stands in the window. -/
def readCut (d : Dev) (c a : Nat) : Bool :=
  (d.chan c).recover && (d.chan c).window.any fun q => match q.op with | .read l => l == a % 2 ^ 38 / 64 * 64 | _ => false

/-- DRAM read data arrives (R223, R242, R243, R250): the reader it serves is told of an uncorrectable error at its own step. -/
def dramData (c a : Nat) (flips : BitVec 640) (reader : Reader) (d : Dev) : Dev :=
  let k := memKey c (a % 2 ^ 38) / 64
  if ¬ d.chanActive c ∨ a / 4096 ≥ d.tier.rows ∨ d.retired k ∨ d.readCut c a then d
  else
    match reader with
    | .correction => d.reread k flips
    | _ =>
      let x := d.decodeLine k flips
      let d := d.found k x reader false
      let told : Bool := match reader with | .host _ _ => true | .merge _ _ => true | .operation _ => true | _ => false
      if x.out = .uncorrectable ∧ told ∧ (d.mem.bad k ∨ d.moving k) then { d with mem := { d.mem with unc := NSet.insert k d.mem.unc } } else d

/-! ### The scrubber (R247) -/

/-- Channel-local address of line i of a subchannel in ascending order (R205). -/
def scrubAddr (sub i : Nat) : Nat := i * 128 + sub * 64

/-- Half index used for the two subchannels of a channel. -/
def subHalf (sub : Bool) : Half := if sub then .east else .west

/-- The next line from position i that is not in a retired row. -/
def skipRetired (d : Dev) (c : Nat) (sub i : Nat) : Nat :=
  let rows := ((d.chan c).retRows.length + 1) * ((d.chan c).retBanks.length + 1)
  (List.range rows).foldl (fun i _ => if d.retired (memKey c (scrubAddr sub i) / 64) then (i / 32 + 1) * 32 else i) i

/-- A pass over both subchannels ends (R247): its duration goes to RAS.LAPn. -/
def lapEnd (c : Nat) (d : Dev) : Dev :=
  let h := halfOfChan c
  let x := d.chan c
  let ms := (d.now - x.lapStart) / 1000000
  let alarm := d.fld (Reg.ras h * 4096 + 0x108) 31 16
  let slow := alarm ≠ 0 ∧ ms > alarm * 3600000 ∧ ¬ x.lapAlarm
  let d := d.setReg (Reg.ras h * 4096 + 0x200 + 4 * (c % 12)) (satAdd 0 ms)
  let d := if slow then d.cause (Reg.ras h) 3 else d
  let d := d.modChan c fun x => { x with lapStart := d.now, lapAlarm := false, lapSubs := ⟨false, false⟩, scrubAt := ⟨0, 0⟩ }
  d.log h { type := 0x0F, sev := 0, block := blockOf (Reg.ras h), loc := c }

/-- A scrubber read (R226, R247, R248), which counts like any other in its bank's table (R217). -/
def scrubRead (c : Nat) (sub : Bool) (flips : BitVec 640) (d : Dev) : Dev :=
  let h := halfOfChan c
  let sn := if sub then 1 else 0
  let x := d.chan c
  let mine (l : List ChanReq) : Bool := l.any fun q => bits q.line 6 6 == sn
  let gap := min1 (d.fld (Reg.ras h * 4096 + 0x108) 15 8) * 25
  if ¬ d.chanActive c ∨ d.fld (Reg.ras h * 4096 + 0x108) 0 0 = 0 ∨ x.recover ∨ x.cmdWaits ∨ mine x.lat ∨ mine x.bulk ∨ mine x.wr
      ∨ x.lapSubs.at (subHalf sub) ∨ d.now < x.scrubBusy.at (subHalf sub) + gap then d
  else
    let i := d.skipRetired c sn (x.scrubAt.at (subHalf sub))
    let total := d.tier.rows * 32
    let q : ChanReq := ⟨scrubAddr sn i, d.now, none⟩
    if i < total ∧ (!d.issuable c q ∨ (d.rank c (rankOf (d.bankOf c q.line).1)).dueAt ≤ d.now) then d else
    let d := if i < total then d.issue c q false else d
    let d := d.modChan c fun x => { x with scrubAt := x.scrubAt.set (subHalf sub) (i + 1), scrubBusy := x.scrubBusy.set (subHalf sub) d.now,
                                           lapSubs := if i + 1 ≥ total then x.lapSubs.set (subHalf sub) true else x.lapSubs }
    let d := if i < total then
        let k := memKey c (scrubAddr sn i) / 64
        d.found k (d.decodeLine k flips) .none true
      else d
    let s := (d.chan c).lapSubs
    if s.west ∧ s.east then d.lapEnd c else d

/-- A pass has run longer than LAP_ALARM (R247). -/
def lapAlarm (c : Nat) (d : Dev) : Dev :=
  let h := halfOfChan c
  let x := d.chan c
  let alarm := d.fld (Reg.ras h * 4096 + 0x108) 31 16
  if alarm ≠ 0 ∧ d.chanActive c ∧ ¬ x.lapAlarm ∧ d.now > x.lapStart + alarm * 3600000000000 then
    (d.modChan c fun x => { x with lapAlarm := true }).cause (Reg.ras h) 3
  else d

/-! ### Commands of RAS.CMD (R265) -/

/-- A command of RAS.CMD. -/
def rasCmd (h : Half) (f : Dev → Option Status × Dev) (d : Dev) : Dev :=
  let sts := Reg.ras h * 4096 + 0x104
  if d.busy sts then d.illegal (Reg.ras h)
  else
    match f (d.cmdBegin sts) with
    | (some st, d) => d.cmdEnd (Reg.ras h) sts 1 st
    | (none, d) => d

/-- DATA word n of a half's RAS block. -/
def rasData (d : Dev) (h : Half) (n : Nat) : Nat := (d.reg (Reg.ras h * 4096 + 0x120 + 4 * n)).toNat

/-- LOG_READ: the record of a sequence number is copied to DATA0 to DATA15. -/
def rasLogRead (h : Half) (d : Dev) : Option Status × Dev :=
  let r := d.ras.at h
  match r.log.find? fun e => e.seq.toNat == d.rasData h 0 with
  | none => (some .stateConflict, d)
  | some e =>
    let d := { d with ras := d.ras.set h { r with log := r.log.map fun (x : LogRec) => if x.seq = e.seq then { x with read := true } else x } }
    (some .ok, d.setData (Reg.ras h * 4096 + 0x120) 16 e.view.toNat)

/-- The channel that DATA0[4:0] names, when it belongs to the instance. -/
def rasChan (d : Dev) (h : Half) : Option Nat :=
  let c := d.rasData h 0 % 32
  if c < 24 ∧ halfOfChan c = h then some c else none

/-- MARK_DEVICE. -/
def markCmd (h : Half) (d : Dev) : Option Status × Dev :=
  match d.rasChan h with
  | none => (some .malformed, d)
  | some c =>
    let v := d.rasData h 0
    let rank := bits v 6 5
    let sub := bits v 7 7
    let dev := bits v 11 8
    if dev > 9 ∨ rank ≥ d.rankCount c then (some .malformed, d)
    else if (Tbl.get ⟨none, 0, 0⟩ (d.chan c).marks (rank * 2 + sub)).marked.isSome then (some .stateConflict, d)
    else (some .ok, d.markDevice c rank sub dev)

/-- RETIRE_ROW. -/
def retireRow (h : Half) (d : Dev) : Option Status × Dev :=
  match d.rasChan h with
  | none => (some .malformed, d)
  | some c =>
    let row := d.rasData h 1
    if row ≥ d.tier.rows then (some .malformed, d)
    else if row ≥ d.tier.mapFirst then (some .stateConflict, d)
    else if (d.chan c).retRows.length ≥ 256 then (some .quota, d)
    else (none, ({ d with ras := d.ras.mod h fun r => { r with retire := some (c, row, false) } }).tryRetire h)

/-- RETIRE_BANK. -/
def retireBank (h : Half) (d : Dev) : Option Status × Dev :=
  match d.rasChan h with
  | none => (some .malformed, d)
  | some c =>
    let v := d.rasData h 0
    let rank := bits v 6 5
    if rank ≥ d.rankCount c then (some .malformed, d)
    else if (d.chan c).retBanks.length ≥ 4 then (some .quota, d)
    else (none, ({ d with ras := d.ras.mod h fun r => { r with retire := some (c, rank * 32 + bits v 11 10 * 8 + bits v 9 7, true) } }).tryRetire h)

/-- CLEAR_LOST_SET. -/
def clearLost (h : Half) (d : Dev) : Option Status × Dev :=
  (some .ok, { d with ras := d.ras.mod h fun r => { r with lost := [], lostAll := false } })

end Dev

/-- SCRUB_READ. -/
def execScrubRead (c : ChanNo) (sub : Bool) (flips : BitVec 640) (s : State) : Host.Outcome State Fault Refusal :=
  next (s.onDev (Dev.scrubRead c.val sub flips))
/-- SCRUB_LAP_ALARM. -/
def execScrubLapAlarm (c : ChanNo) (s : State) : Host.Outcome State Fault Refusal := next (s.onDev (Dev.lapAlarm c.val))
/-- RAS_NOP. -/
def execRasNop (h : Half) (s : State) : Host.Outcome State Fault Refusal := next (s.onDev (Dev.rasCmd h fun d => (some .ok, d)))
/-- RAS_LOG_READ. -/
def execRasLogRead (h : Half) (s : State) : Host.Outcome State Fault Refusal := next (s.onDev (Dev.rasCmd h (Dev.rasLogRead h)))
/-- MARK_DEVICE. -/
def execMarkDevice (h : Half) (s : State) : Host.Outcome State Fault Refusal := next (s.onDev (Dev.rasCmd h (Dev.markCmd h)))
/-- RETIRE_ROW. -/
def execRetireRow (h : Half) (s : State) : Host.Outcome State Fault Refusal := next (s.onDev (Dev.rasCmd h (Dev.retireRow h)))
/-- RETIRE_BANK. -/
def execRetireBank (h : Half) (s : State) : Host.Outcome State Fault Refusal := next (s.onDev (Dev.rasCmd h (Dev.retireBank h)))
/-- CLEAR_LOST_SET. -/
def execClearLostSet (h : Half) (s : State) : Host.Outcome State Fault Refusal := next (s.onDev (Dev.rasCmd h (Dev.clearLost h)))

end Sys2Proof.Machine
end

