-- ==== Sys2Proof/Machine/Secure.lean ====
section
/-! DEFINITION. Trust and isolation (R483 to R522): SPDM sessions, control messages, fabric keys, the debug port, the fuses, quiet mode,
attestation, and the partition commands of GLB (R675 to R677). -/

namespace Sys2Proof.Machine

namespace Dev

/-- Change the security engine. -/
def modSec (f : Sec → Sec) (d : Dev) : Dev := { d with sec := f d.sec }

/-- A command of SEC (R68). -/
def secCmd (f : Dev → Option Status × Dev) (d : Dev) : Dev :=
  if d.busy 0x6104 then d.illegal Reg.sec
  else
    match f (d.cmdBegin 0x6104) with
    | (some st, d) => d.cmdEnd Reg.sec 0x6104 1 st
    | (none, d) => d

/-- SEC.DATA0 to DATA7 as one number. -/
def secData (d : Dev) : Nat := d.data 0x6120 8

/-- The fabric key entries of a partition. -/
def fkeysOf (d : Dev) (p : PartId) : List (Nat × FKey) := d.sec.fkeys.filter fun k => k.2.part == p

/-- SLOT_READ (R521). -/
def slotRead (p : PartId) (d : Dev) : Option Status × Dev :=
  let v := match d.part? p with
    | some x => (if x.slotLive then 1 else 0) + (if x.conf then 2 else 0) + (if x.quiet.on then 4 else 0)
    | none => 0
  (some .ok, d.setReg 0x6120 (BitVec.ofNat 32 (v + (d.fkeysOf p).length * 2 ^ 16)))

/-- LOG_READ of the security log (R521). -/
def secLogRead (d : Dev) : Option Status × Dev :=
  match d.sec.log.find? fun e => e.seq.toNat == bits d.secData 31 0 with
  | some e => (some .ok, d.setData 0x6120 16 e.view.toNat)
  | none => (some .stateConflict, d)

/-- QUIET_SET (R513, R514, R521), as a register command or as a control message. -/
def quietSet (p : PartId) (x : Nat) (d : Dev) : Option Status × Dev :=
  let on := bits x 0 0 = 1
  let period := bits x 15 8
  let lat := bits x 31 16
  if period < 2 ∨ lat < 5 ∨ 35 < lat then (some .malformed, d)
  else
    match d.part? p with
    | none => (some .stateConflict, d)
    | some q =>
      if (d.queuesOf p).any (fun x => x.2.state != .stopped) ∨ (on ∧ q.spill.isNone) then (some .stateConflict, d)
      else
        (some .ok, d.modPart p fun y =>
          { y with quiet := { on := on, period := BitVec.ofNat 8 period, lat := BitVec.ofNat 6 lat,
                              overruns := if on ∧ ¬ y.quiet.on then 0 else y.quiet.overruns, lastSlot := y.quiet.lastSlot } })

/-! ### Sessions (R492 to R495) -/

/-- A session. -/
def session? (d : Dev) (i : Nat) : Option Session := Tbl.find d.sec.sessions i

/-- End the sessions that a test selects (R495); the fabric keys installed in them stay. -/
def endSessions (f : Session → Bool) (d : Dev) : Dev := d.modSec fun s => { s with sessions := s.sessions.filter fun x => !f x.2 }

/-- A session ends. -/
def endSession (i : Nat) (d : Dev) : Dev := d.modSec fun s => { s with sessions := Tbl.drop i s.sessions }

/-- FKEY_FLUSH, and the first steps of a destroy command (R495, R511, R521). -/
def flushKeys (p : PartId) (d : Dev) : Dev :=
  (d.endSessions fun s => s.via == .fabric p).modSec fun s => { s with fkeys := s.fkeys.filter fun k => k.2.part != p }

/-- FKEY_FLUSH (R521). -/
def fkeyFlush (p : PartId) (d : Dev) : Option Status × Dev :=
  if d.partLive p then (some .ok, d.flushKeys p) else (some .stateConflict, d)

/-- An SPDM ERROR response with its error code. -/
def spdmError (e : BitVec 8) (d : Dev) : Dev := d.emit (.answer 0x7F [e])

/-- Whether SPDM is served (R649): not while the halves are unpowered, nor in Dawn hold or the steps before POWER. -/
def spdmReady (d : Dev) : Bool := d.dawn.powered && d.dawn.step != .hold

/-- The request codes of the subset of R492: version, capabilities, algorithms, digests, certificate, challenge, measurements, heartbeat,
key update, mutual authentication and chunks. KEY_EXCHANGE, FINISH, END_SESSION and GET_MEASUREMENTS have rows of their own. -/
def spdmCodes : List Nat := [0x81, 0x82, 0x83, 0x84, 0x85, 0x86, 0xE1, 0xE3, 0xE8, 0xE9, 0xEA, 0xEB]

/-- SPDM_REQUEST (R492): a request outside the subset receives ERROR and changes nothing. A heartbeat names its session in its first four
bytes. -/
def spdmRequest (code : BitVec 8) (body : List Byte) (d : Dev) : Dev :=
  if !d.spdmReady then d.spdmError 0x03
  else if !spdmCodes.contains code.toNat then d.spdmError 0x07
  else
    let d := if code = 0xE8 then d.modSec fun s => { s with sessions := Tbl.upd (leAt body 0 4) (fun x => { x with lastBeat := d.now }) s.sessions } else d
    d.emit (.answer (code &&& 0x7F) (Config.spdmAnswer code body))

/-- Whether authentication of a partition's sessions is required (R494). -/
def mustAuth (d : Dev) (p : PartId) : Bool := (d.part? p).any fun x => x.conf || x.tenant != 0

/-- KEY_EXCHANGE (R493, R494): a session beyond the transport's count receives ERROR Busy. On the fabric the count is one session and one
that is being set up to replace it. -/
def keyExchange (via : SpdmVia) (mutualAuth : Bool) (d : Dev) : Dev :=
  let l := d.sec.sessions.filter fun s => s.2.via == via
  let full := match via with
    | .sideband => decide (l.length ≥ 2)
    | .companion => decide (l.length ≥ 4)
    | .fabric _ => l.any fun s => !s.2.secured
  let bad := match via with
    | .fabric p => !d.partLive p || (d.mustAuth p && !mutualAuth)
    | _ => false
  if !d.spdmReady then d.spdmError 0x03
  else if bad then d.spdmError 0x01
  else if full then d.spdmError 0x03
  else
    let i := d.sec.nextSession
    (d.modSec fun s => { s with sessions := Tbl.put i ⟨via, mutualAuth, false, d.now, 0⟩ s.sessions, nextSession := i + 1 }).emit
      (.answer 0x64 (leBytes 4 i))

/-- FINISH (R494): the requester's signature has been verified or not; where authentication is required its leaf key must hash to TENANT. -/
def finish (i : Nat) (leaf : Digest) (verified : Bool) (d : Dev) : Dev :=
  match d.session? i with
  | none => d.spdmError 0x01
  | some s =>
    if s.secured then d.spdmError 0x01
    else
      let (part, tenantOk, need) := match s.via with
        | .fabric p => (some p, (d.part? p).any (fun (x : Part) => x.tenant == leaf) && s.mutualAuth, d.mustAuth p)
        | _ => (none, false, false)
      if !verified ∨ (need ∧ !tenantOk) then
        ((((d.endSession i).bump Reg.sec 0x060 1).cause Reg.sec 2).secLog 8 1 { type := 0, sev := 1, block := 0, part := part }).spdmError 0x06
      else
        let d := match part with | some _ => d.endSessions fun x => x.via == s.via && x.secured | none => d
        ((d.modSec fun x => { x with sessions := Tbl.upd i (fun y => { y with secured := true, mutualAuth := tenantOk, lastBeat := d.now }) x.sessions }).bump
          Reg.sec 0x058 1).emit (.answer 0x65 [])

/-- END_SESSION (R495). -/
def endSessionReq (i : Nat) (d : Dev) : Dev := if (d.session? i).isSome then (d.endSession i).emit (.answer 0x6C []) else d.spdmError 0x01

/-- HEARTBEAT_MISSED (R495): three periods of 10 s without a heartbeat. -/
def heartbeatMissed (i : Nat) (d : Dev) : Dev :=
  match d.session? i with
  | some s => if s.secured ∧ s.lastBeat + 30000000000 ≤ d.now then d.endSession i else d
  | none => d

/-! ### Control messages (R498, R670) -/

/-- The partition of a secured tenant session. -/
def tenantOf (d : Dev) (i : Nat) : Option PartId :=
  match d.session? i with
  | some s => (match s.via with | .fabric p => if s.secured && d.partLive p then some p else none | _ => none)
  | none => none

/-- Whether a session is a secured side-band session. -/
def sidebandSession (d : Dev) (i : Nat) : Bool := (d.session? i).any fun s => s.secured && s.via == .sideband

/-- A message of a tenant session (R498): in any other session it completes MALFORMED. -/
def tenantMsg (i : Nat) (code : BitVec 8) (f : PartId → Dev → Dev) (d : Dev) : Dev :=
  match d.tenantOf i with
  | some p => f p d
  | none => d.answerMsg code .malformed []

/-- FKEY_INSTALL (R501, R502): `a` is the message from its byte 4 on. -/
def fkeyInstall (p : PartId) (a : List Byte) (d : Dev) : Dev :=
  let type := leAt a 0 1
  let peer : NodeId := BitVec.ofNat 16 (leAt a 2 2)
  let tree := leAt a 4 2
  if a.length ≠ 80 ∨ type > 1 ∨ (type = 1 ∧ tree > 1023) then d.answerMsg 0x01 .malformed []
  else if d.sec.fkeys.length ≥ 8192 ∨ (d.fkeysOf p).length ≥ 256 then d.answerMsg 0x01 .quota []
  else if type = 0 ∧ (d.fkeysOf p).any (fun k => k.2.tree.isNone && k.2.peer == peer) then d.answerMsg 0x01 .stateConflict []
  else
    match (List.range 8192).find? fun i => (d.fkey i).isNone with
    | none => d.answerMsg 0x01 .quota []
    | some i =>
      let k : FKey :=
        { part := p, tree := if type = 1 then some (BitVec.ofNat 10 tree) else none, peer := peer, remote := BitVec.ofNat 16 (leAt a 6 2),
          txKey := BitVec.ofNat 256 (leAt a 8 32), txSalt := BitVec.ofNat 32 (leAt a 40 4), txSeq := 1,
          rxKey := BitVec.ofNat 256 (leAt a 44 32), rxSalt := BitVec.ofNat 32 (leAt a 76 4), top := 0, seen := [] }
      (d.modSec fun s => { s with fkeys := Tbl.put i k s.fkeys }).answerMsg 0x01 .ok (leBytes 2 i)

/-- FKEY_DESTROY (R498): only the partition's own entries. -/
def fkeyDestroy (p : PartId) (i : Nat) (d : Dev) : Dev :=
  if (d.fkey i).any fun k => k.part == p then
    (d.modSec fun s => { s with fkeys := Tbl.drop i s.fkeys }).answerMsg 0x02 .ok []
  else d.answerMsg 0x02 .stateConflict []

/-- Run a block command for a control message (R670): while BUSY is 1 the message waits; DATA, STATUS and the cause are restored at its end. -/
def borrow (msg : WaitMsg) (page sts bit base : Nat) (code : BitVec 8) (image : Nat) (f : Dev → Option Status × Dev) (d : Dev) : Dev :=
  if d.busy sts then d.modSec fun s => { s with msgs := s.msgs ++ [msg] }
  else
    let d := (d.modSec fun s => { s with borrow := Tbl.put sts ⟨code, base, d.data base 8⟩ s.borrow }).setData base 8 image
    match f (d.cmdBegin sts) with
    | (some st, d) => d.cmdEnd page sts bit st
    | (none, d) => d

/-- XLT_COMMAND (R498): the command of R95 for the session's partition; a fault record of another partition counts as free. -/
def xltMsg (p : PartId) (cmd : Word32) (image : Nat) (d : Dev) : Dev :=
  let r := fieldOf cmd 24 16
  let own (f : Dev → Option Status × Dev) (d : Dev) : Option Status × Dev :=
    if (d.faultRec? r).any fun x => x.part == p then f d else (some .stateConflict, d)
  let run (d : Dev) : Option Status × Dev :=
    match fieldOf cmd 3 0 with
    | 0 => (some .ok, d)
    | 1 => d.ctxRead p
    | 2 => d.ctxWrite p d.xltData
    | 3 => d.invPage p d.xltData
    | 4 => d.invRange p d.xltData
    | 5 => d.invPart p
    | 6 => own (Dev.faultRead r) d
    | 7 => own (Dev.faultResume r) d
    | 8 => own (Dev.faultAbort r) d
    | _ => (some .malformed, d)
  d.borrow (.xlt p cmd image) Reg.xlt 0x8104 1 0x8110 0x03 image run

/-- OPQ_COMMAND (R498): the allowed commands of R303 for the session's partition; a queue of another partition counts as FREE. -/
def opqMsg (p : PartId) (cmd : Word32) (image : Nat) (d : Dev) : Dev :=
  let q : QueueId := BitVec.ofNat 16 (fieldOf cmd 31 16)
  let own (code : Nat) (d : Dev) : Option Status × Dev :=
    if (d.queue? q).any fun x => x.part == p then d.onQueue code q p else (some .stateConflict, d)
  let run (d : Dev) : Option Status × Dev :=
    match fieldOf cmd 3 0 with
    | 1 => d.onQueue 1 q p
    | 2 => own 2 d
    | 4 => own 4 d
    | 6 => own 6 d
    | 7 => d.partSet p d.opqData
    | 8 => d.partRead p
    | _ => (some .malformed, d)
  d.borrow (.opq p cmd image) Reg.opq 0x7104 1 0x7110 0x04 image run

/-- EXT_ACCEPT (R500). -/
def extAccept (p : PartId) (i : ExtIdx) (gen : BitVec 16) (d : Dev) : Dev :=
  let e := d.ext i.toNat
  if e.state = .active ∧ e.part = p ∧ e.gen = gen then (d.setExt i.toNat { e with accepted := true }).answerMsg 0x05 .ok []
  else d.answerMsg 0x05 .stateConflict []

/-- QUIET_SET as a control message (R498, R514). -/
def quietMsg (p : PartId) (x : Word32) (d : Dev) : Dev := d.borrow (.quiet p x) Reg.sec 0x6104 1 0x6120 0x06 x.toNat (Dev.quietSet p x.toNat)

/-- The control messages that wait are tried again, the oldest first (R670). -/
def runMsgs (d : Dev) : Dev :=
  let go (d : Dev) : WaitMsg → Dev
    | .xlt p c x => d.xltMsg p c x
    | .opq p c x => d.opqMsg p c x
    | .quiet p x => d.quietMsg p x
  d.sec.msgs.foldl go (d.modSec fun s => { s with msgs := [] })

end Dev

/-- The partition of a record (R260), when valid. -/
def recordPart (e : LogRec) : Option Nat :=
  let v := leAt (lineBytes e.img) 16 2
  if v / 2 ^ 15 = 1 then some (v % 4096) else none

/-- A record as its tenant sees it (R515): LOC and BLOCK read as 0. -/
def tenantView (e : LogRec) : Line := lineMerge e.img 0 0xFF0000000C#64

namespace Dev

/-- LOG_READ of a tenant (R498, R515): of the records of both halves, the strap half's first. -/
def tenantLog (p : PartId) (seq : Word32) (d : Dev) : Dev :=
  let l := ((d.ras.at d.strapHalf).log ++ (d.ras.at (otherHalf d.strapHalf)).log).filter fun e => recordPart e == some p.toNat && decide (seq.toNat ≤ e.seq.toNat)
  let best := l.foldl (fun (b : Option LogRec) e => match b with
    | some x => if e.seq.toNat < x.seq.toNat then some e else b
    | none => some e) none
  match best with
  | some e => d.answerMsg 0x07 .ok (lineBytes (tenantView e))
  | none => d.answerMsg 0x07 .stateConflict []

/-- DEBUG_CHALLENGE (R491, R498): a fresh nonce. -/
def debugChallenge (i : Nat) (d : Dev) : Dev :=
  if !d.sidebandSession i then d.answerMsg 0x10 .malformed []
  else
    let (k, d) := d.draw
    (d.modSec fun s => { s with dbgNonce := some (Config.drawKey k) }).answerMsg 0x10 .ok (leBytes 16 (Config.drawKey k).toNat)

/-- Whether a signature is the owner's over the nonce of the preceding DEBUG_CHALLENGE (R491, R498). -/
def ownerSigned (f : Fuses) (sig : BitVec 1056) (d : Dev) : Bool :=
  f.ownerHash != 0 && (match d.sec.dbgNonce with | some n => Config.p521Verify f.ownerHash (leBytes 16 n.toNat) sig | none => false)

end Dev

/-- DEBUG_UNLOCK (R491). -/
def State.debugUnlock (i : Nat) (sig : BitVec 1056) (s : State) : State :=
  s.onDev fun d =>
    if !d.sidebandSession i then d.answerMsg 0x11 .malformed []
    else if s.nv.fuses.dbgOff ∨ !d.ownerSigned s.nv.fuses sig ∨ (d.parts.any fun p => p.2.conf) then d.answerMsg 0x11 .stateConflict []
    else ((d.modSec fun x => { x with dbgLive := true, dbgUsed := false }).secLog 6 0 { type := 0, sev := 0, block := 0 }).answerMsg 0x11 .ok []

/-- OWNER_SET (R486, R498): the hash of the owner's key is programmed once. -/
def State.ownerSet (i : Nat) (key : BitVec 1064) (s : State) : State :=
  if !s.dev.sidebandSession i then s.onDev (Dev.answerMsg 0x12 .malformed [])
  else if s.nv.fuses.ownerHash ≠ 0 then s.onDev (Dev.answerMsg 0x12 .stateConflict [])
  else
    { s with nv := { s.nv with fuses := { s.nv.fuses with ownerHash := Config.sha512 (leBytes 133 key.toNat) } },
             dev := s.dev.answerMsg 0x12 .ok [] }

/-- DEBUG_DISABLE (R486, R498): DBG_OFF is blown. -/
def State.debugDisable (i : Nat) (sig : BitVec 1056) (s : State) : State :=
  if !s.dev.sidebandSession i then s.onDev (Dev.answerMsg 0x13 .malformed [])
  else if !s.dev.ownerSigned s.nv.fuses sig then s.onDev (Dev.answerMsg 0x13 .stateConflict [])
  else { s with nv := { s.nv with fuses := { s.nv.fuses with dbgOff := true } }, dev := s.dev.answerMsg 0x13 .ok [] }

/-- SVN_COMMIT (R490): the fuses are being blown until SVN_COMMIT_DONE. -/
def State.svnCommit (s : State) : State :=
  s.onDev (Dev.secCmd fun d =>
    if d.fw.runSvn ≤ s.nv.fuses.svn then (some .stateConflict, d) else (none, d.modSec fun x => { x with svnBusy := true }))

/-- SVN_COMMIT_DONE (R490): SVN equals FW_SVN of the running image; no command lowers it. -/
def State.svnDone (s : State) : State :=
  if s.dev.sec.svnBusy then
    { s with nv := { s.nv with fuses := { s.nv.fuses with svn := max s.nv.fuses.svn s.dev.fw.runSvn } },
             dev := ((s.dev.modSec fun x => { x with svnBusy := false }).secLog 7 0 { type := 0, sev := 0, block := 0 }).cmdEnd Reg.sec 0x6104 1 .ok }
  else s

/-! ### Attestation (R517 to R519) -/

namespace Dev

/-- The extents of a partition, rising by index. -/
def extsOf (d : Dev) (p : PartId) : List (Nat × Ext) := d.coh.exts.filter fun e => e.2.state != .free && e.2.part == p

/-- An extent entry of the report (R519). -/
def extEntry (x : Nat × Ext) : List Byte :=
  let e := x.2
  leBytes 8 e.first ++ leBytes 4 (e.len.toNat + 1) ++ leBytes 2 x.1 ++ leBytes 2 e.gen.toNat ++ leBytes 1 e.perm.toNat
    ++ leBytes 1 (e.tier.toNat + e.place.toNat * 4 + extStateCode e.state * 16 + (if e.accepted then 128 else 0)) ++ leBytes 2 e.hset.toNat ++ leBytes 4 0

/-- A meter of the summary (R518). -/
def meterEntry (m : Meter) : List Byte :=
  leBytes 4 m.cir.toNat ++ leBytes 4 m.pir.toNat ++ leBytes 4 m.cbs.toNat ++ leBytes 4 m.pbs.toNat ++ leBytes 1 m.overhead.toNat
    ++ leBytes 1 (if m.en then 1 else 0) ++ leBytes 6 0

/-- The partition summary and its fabric key entries (R518). -/
def summary (d : Dev) (p : PartId) (x : Part) (mutual_ : Bool) : List Byte :=
  let keys := d.fkeysOf p
  leBytes 2 p.toNat ++ leBytes 1 ((if x.conf then 1 else 0) + (if x.quiet.on then 2 else 0) + (if mutual_ then 4 else 0)) ++ ([0] : List Byte)
    ++ leBytes 2 (d.extsOf p).length ++ leBytes 2 keys.length ++ leBytes 2 (d.queuesOf p).length ++ leBytes 2 x.quota.toNat
    ++ leBytes 2 (match x.spill with | some i => i.toNat + 2 ^ 15 | none => 0) ++ leBytes 2 x.cores.length ++ leBytes 64 x.tenant.toNat
    ++ leBytes 64 (x.cores.foldl (fun a c => a + 2 ^ c.val) 0)
    ++ ((List.range 4).flatMap fun c => meterEntry (d.meter p.toNat c))
    ++ leBytes 2 x.quiet.period.toNat ++ leBytes 2 x.quiet.lat.toNat ++ leBytes 4 0 ++ leBytes 8 x.quiet.overruns.toNat
    ++ (keys.flatMap fun k => leBytes 2 k.1 ++ leBytes 1 (if k.2.tree.isSome then 1 else 0) ++ ([0] : List Byte) ++ leBytes 2 k.2.peer.toNat
          ++ leBytes 2 (match k.2.tree with | some t => t.toNat | none => 0xFFFF))

end Dev

/-- Cut a list into pieces of n. -/
def pieces {α : Type} (n : Nat) : Nat → List α → List (List α)
  | 0, _ => []
  | k + 1, l => if l.isEmpty then [] else l.take n :: pieces n k (l.drop n)

/-- MEASUREMENTS (R517): the blocks in ascending order, each as its index, its length in two bytes and its value, then the signature by the
identity key (R487). -/
def State.measurements (session : Option Nat) (nonce : BitVec 256) (s : State) : State :=
  s.onDev fun d =>
    if !d.spdmReady then d.spdmError 0x03
    else
      let d := d.modSec fun x => { x with reports := x.reports + 1 }
      let f := s.nv.fuses
      let part := match session with | some i => d.tenantOf i | none => none
      let block (i : Nat) (v : List Byte) : List Byte := leBytes 1 i ++ leBytes 2 v.length ++ v
      let digest (i : Nat) : List Byte := block i (leBytes 64 (Tbl.get 0 d.sec.measure i).toNat)
      let b4 := leBytes 1 f.svn ++ leBytes 1 d.fw.runSvn
        ++ leBytes 1 ((if f.ownerHash = 0 then 0 else 1) + (if f.dbgOff then 2 else 0) + (if d.sec.chainOk then 4 else 0)) ++ ([0] : List Byte)
        ++ leBytes 64 f.ownerHash.toNat
      let b5 := leBytes 4 ((if d.sec.dbgLive then 1 else 0) + (if d.sec.dbgUsed then 2 else 0))
      let b6 := leBytes 32 nonce.toNat ++ leBytes 8 d.sec.reports.toNat ++ leBytes 8 d.gtc.count.toNat ++ leBytes 2 d.nodeId.toNat
        ++ leBytes 2 (d.fld 0x104 9 0) ++ leBytes 2 (match part with | some p => p.toNat | none => 0xFFFF) ++ leBytes 2 0
      let own := match part with
        | none => []
        | some p =>
          (match d.part? p with
           | none => []
           | some x =>
             let mut_ := match session with | some i => (d.session? i).any (·.mutualAuth) | none => false
             let exts := pieces 2048 16 (d.extsOf p)
             let qs := pieces 16384 2 (d.queuesOf p)
             block 0x10 (d.summary p x mut_) ++ (exts.zipIdx.flatMap fun e => block (0x11 + e.2) (e.1.flatMap Dev.extEntry))
               ++ (qs.zipIdx.flatMap fun q => block (0x21 + q.2) (q.1.flatMap fun y => leBytes 2 y.1)))
      let report := digest 1 ++ digest 2 ++ digest 3 ++ block 4 b4 ++ block 5 b5 ++ block 6 b6 ++ own
      let (n, d) := d.draw
      d.emit (.answer 0x60 (report ++ p521Sign d.sec.idScalar (Config.sha512 report) (Config.signNonce n)))

namespace Dev

/-! ### Quiet mode (R513) -/

/-- One core of a quiet partition uses its issue slot: the access that waits, or a read of the first line of the spill extent. -/
def quietSlot (part : PartId) (c : Nat) (d : Dev) : Dev :=
  match d.phys c with
  | none => d
  | some ph =>
    let mine (a : EngAcc) : Bool := a.part == part && a.state == .slot && (match a.who with | .core p _ => p.val == ph | _ => false)
    match d.xlt.accs.find? mine with
    | some a => (d.modAcc a.id fun a => { a with issued := d.now, state := .stalled }).startAcc a.id
    | none =>
      match (d.part? part).bind (·.spill) with
      | none => d
      | some i =>
        if h : ph < 576 then
          let (id, d) := d.newAcc (.core ⟨ph, h⟩ 0) part (.phys (BitVec.ofNat 48 (d.ext i.toNat).first)) .read none true .filler
          d.startAcc id
        else d

/-- QUIET_ISSUE_SLOT (R513): at each multiple of PERIOD every core of the partition issues one access. -/
def quietIssue (part : PartId) (d : Dev) : Dev :=
  match d.part? part with
  | none => d
  | some p =>
    let period := p.quiet.period.toNat * 10
    if !p.quiet.on ∨ d.gtc.count.toNat % period ≠ 0 ∨ p.quiet.lastSlot = d.now + 1 then d
    else p.cores.foldl (fun d c => d.quietSlot part c.val) (d.modPart part fun x => { x with quiet := { x.quiet with lastSlot := d.now + 1 } })

/-- QUIET_RELEASE (R513): a result or an answer that was held leaves at LAT. -/
def quietRelease (part : PartId) (item : Nat) (d : Dev) : Dev :=
  match d.sec.held.find? fun h => h.id == item && h.part == part with
  | some h => if d.now < h.due then d else (d.modSec fun s => { s with held := s.held.filter fun x => x.id ≠ item }).emitPkt h.via h.vc h.pkt
  | none =>
    let go (a : EngAcc) : EngAcc := match a.state with
      | .quiet i due st data => if i = item ∧ a.part = part ∧ due ≤ d.now then { a with state := .ended st data } else a
      | _ => a
    d.modXlt fun x => { x with accs := x.accs.map go }

/-! ### The partition commands of GLB (R511, R675, R676) -/

/-- A command of GLB (R68, R674): before SERVICE it completes STATE_CONFLICT. -/
def glbCmd (f : Dev → Option Status × Dev) (d : Dev) : Dev :=
  if d.busy 0x118 then d.illegal Reg.glb
  else
    let d := d.cmdBegin 0x118
    if d.dawn.step ≠ .service then d.cmdEnd Reg.glb 0x118 1 .stateConflict
    else
      match f d with
      | (some st, d) => d.cmdEnd Reg.glb 0x118 1 st
      | (none, d) => d

/-- PART_CREATE (R507, R676). -/
def partCreate (p : PartId) (conf : Bool) (d : Dev) : Option Status × Dev :=
  if d.partLive p ∨ (conf ∧ d.sec.dbgLive) then (some .stateConflict, d)
  else
    let (i, d) := d.draw
    let (j, d) := d.draw
    let x : Part :=
      { conf := conf, tenant := BitVec.ofNat 512 (d.data 0x120 16), slotLive := true, secret := i, hashKey := Config.drawKey j, keep := true,
        quiet := ⟨false, 4, 20, 0, 0⟩, ctx := ctxReset, spill := none, spillIx := 0, quota := 0, cores := [], mailbox := ⟨0, 0, 0, 0, []⟩, rrQueue := 0, rrLeft := 0 }
    let own (k : Nat) : Bool := k / 4 == p.toNat
    (some .ok, { d with parts := Tbl.put p.toNat x d.parts, fab := { d.fab with meters := d.fab.meters.filter fun m => !own m.1 } })

/-- Whether any object of R511 of a partition remains. -/
def partBusy (d : Dev) (p : PartId) (x : Part) : Bool :=
  !(d.extsOf p).isEmpty || !(d.queuesOf p).isEmpty || !x.cores.isEmpty || (d.fab.circuits.any fun c => c.2.part == p && c.2.state != .free)
    || (d.coh.regions.any fun r => r.2.owner == p)

/-- PART_DESTROY (R511, R677): its steps are one step of the model. -/
def partDestroy (p : PartId) (d : Dev) : Option Status × Dev :=
  match d.part? p with
  | none => (some .stateConflict, d)
  | some x =>
    if d.partBusy p x then (some .stateConflict, d)
    else
      let d := (d.flushKeys p).secLog 5 0 { type := 0, sev := 0, block := 0, part := some p, detail := [(41, 2, p.toNat)] }
      (some .ok, { d with parts := Tbl.drop p.toNat d.parts })

/-- PART_QUERY (R675). -/
def partQuery (p : PartId) (d : Dev) : Option Status × Dev :=
  (some .ok, d.setReg 0x120 (BitVec.ofNat 32 (if d.partLive p then 1 + (if d.conf p then 2 else 0) else 0)))

end Dev

/-! ### Meanings -/

/-- SEC_NOP (R521). -/
def execSecNop (s : State) : Host.Outcome State Fault Refusal := next (s.onDev (Dev.secCmd fun d => (some .ok, d)))
/-- SLOT_READ (R521). -/
def execSlotRead (p : PartId) (s : State) : Host.Outcome State Fault Refusal := next (s.onDev (Dev.secCmd (Dev.slotRead p)))
/-- SEC_LOG_READ (R521). -/
def execSecLogRead (s : State) : Host.Outcome State Fault Refusal := next (s.onDev (Dev.secCmd Dev.secLogRead))
/-- QUIET_SET (R499, R514). -/
def execQuietSet (p : PartId) (s : State) : Host.Outcome State Fault Refusal :=
  next (s.onDev (Dev.secCmd fun d => d.unlessConf p (Dev.quietSet p d.secData)))
/-- FKEY_FLUSH (R521). -/
def execFkeyFlush (p : PartId) (s : State) : Host.Outcome State Fault Refusal := next (s.onDev (Dev.secCmd (Dev.fkeyFlush p)))
/-- SVN_COMMIT (R490). -/
def execSvnCommit (s : State) : Host.Outcome State Fault Refusal := next s.svnCommit
/-- SVN_COMMIT_DONE (R490). -/
def execSvnCommitDone (s : State) : Host.Outcome State Fault Refusal := next s.svnDone
/-- SPDM_REQUEST (R492). -/
def execSpdmRequest (_ : SpdmVia) (c : BitVec 8) (b : List Byte) (s : State) : Host.Outcome State Fault Refusal :=
  next (s.onDev (Dev.spdmRequest c b))
/-- KEY_EXCHANGE (R493). -/
def execKeyExchange (v : SpdmVia) (m : Bool) (s : State) : Host.Outcome State Fault Refusal := next (s.onDev (Dev.keyExchange v m))
/-- FINISH (R494). -/
def execFinish (i : Nat) (leaf : Digest) (ok : Bool) (s : State) : Host.Outcome State Fault Refusal := next (s.onDev (Dev.finish i leaf ok))
/-- END_SESSION (R495). -/
def execEndSession (i : Nat) (s : State) : Host.Outcome State Fault Refusal := next (s.onDev (Dev.endSessionReq i))
/-- MEASUREMENTS (R517). -/
def execMeasurements (i : Option Nat) (n : BitVec 256) (s : State) : Host.Outcome State Fault Refusal := next (s.measurements i n)
/-- HEARTBEAT_MISSED (R495). -/
def execHeartbeatMissed (i : Nat) (s : State) : Host.Outcome State Fault Refusal := next (s.onDev (Dev.heartbeatMissed i))
/-- FKEY_INSTALL (R502). -/
def execFkeyInstall (i : Nat) (a : List Byte) (s : State) : Host.Outcome State Fault Refusal :=
  next (s.onDev (Dev.tenantMsg i 0x01 fun p => Dev.fkeyInstall p a))
/-- FKEY_DESTROY (R498). -/
def execFkeyDestroy (i : Nat) (k : BitVec 13) (s : State) : Host.Outcome State Fault Refusal :=
  next (s.onDev (Dev.tenantMsg i 0x02 fun p => Dev.fkeyDestroy p k.toNat))
/-- XLT_COMMAND (R498). -/
def execXltCommand (i : Nat) (c : Word32) (x : BitVec 256) (s : State) : Host.Outcome State Fault Refusal :=
  next (s.onDev (Dev.tenantMsg i 0x03 fun p => Dev.xltMsg p c x.toNat))
/-- OPQ_COMMAND (R498). -/
def execOpqCommand (i : Nat) (c : Word32) (x : BitVec 256) (s : State) : Host.Outcome State Fault Refusal :=
  next (s.onDev (Dev.tenantMsg i 0x04 fun p => Dev.opqMsg p c x.toNat))
/-- EXT_ACCEPT (R500). -/
def execExtAccept (i : Nat) (x : ExtIdx) (g : BitVec 16) (s : State) : Host.Outcome State Fault Refusal :=
  next (s.onDev (Dev.tenantMsg i 0x05 fun p => Dev.extAccept p x g))
/-- QUIET_SET_MESSAGE (R498). -/
def execQuietSetMessage (i : Nat) (x : Word32) (s : State) : Host.Outcome State Fault Refusal :=
  next (s.onDev (Dev.tenantMsg i 0x06 fun p => Dev.quietMsg p x))
/-- TENANT_LOG_READ (R498). -/
def execTenantLogRead (i : Nat) (q : Word32) (s : State) : Host.Outcome State Fault Refusal :=
  next (s.onDev (Dev.tenantMsg i 0x07 fun p => Dev.tenantLog p q))
/-- DEBUG_CHALLENGE (R498). -/
def execDebugChallenge (i : Nat) (s : State) : Host.Outcome State Fault Refusal := next (s.onDev (Dev.debugChallenge i))
/-- DEBUG_UNLOCK (R491). -/
def execDebugUnlock (i : Nat) (g : BitVec 1056) (s : State) : Host.Outcome State Fault Refusal := next (s.debugUnlock i g)
/-- OWNER_SET (R498). -/
def execOwnerSet (i : Nat) (k : BitVec 1064) (s : State) : Host.Outcome State Fault Refusal := next (s.ownerSet i k)
/-- DEBUG_DISABLE (R498). -/
def execDebugDisable (i : Nat) (g : BitVec 1056) (s : State) : Host.Outcome State Fault Refusal := next (s.debugDisable i g)
/-- DEBUG_PORT_ACCESS (R517): a use of the unlocked debug port. -/
def execDebugPortAccess (s : State) : Host.Outcome State Fault Refusal :=
  next (s.onDev fun d => if d.sec.dbgLive then d.modSec fun x => { x with dbgUsed := true } else d)
/-- QUIET_ISSUE_SLOT (R513). -/
def execQuietIssueSlot (p : PartId) (s : State) : Host.Outcome State Fault Refusal := next (s.onDev (Dev.quietIssue p))
/-- QUIET_RELEASE (R513). -/
def execQuietRelease (p : PartId) (i : Nat) (s : State) : Host.Outcome State Fault Refusal := next (s.onDev (Dev.quietRelease p i))
/-- GLB_NOP (R675). -/
def execGlbNop (s : State) : Host.Outcome State Fault Refusal := next (s.onDev (Dev.glbCmd fun d => (some .ok, d)))
/-- PART_CREATE (R676). -/
def execPartCreate (p : PartId) (c : Bool) (s : State) : Host.Outcome State Fault Refusal := next (s.onDev (Dev.glbCmd (Dev.partCreate p c)))
/-- PART_DESTROY (R511). -/
def execPartDestroy (p : PartId) (s : State) : Host.Outcome State Fault Refusal := next (s.onDev (Dev.glbCmd (Dev.partDestroy p)))
/-- PART_QUERY (R675). -/
def execPartQuery (p : PartId) (s : State) : Host.Outcome State Fault Refusal := next (s.onDev (Dev.glbCmd (Dev.partQuery p)))

end Sys2Proof.Machine
end

