-- ==== Sys2Proof/Machine/View.lean ====
section
/-! DEFINITION. What a register read returns (R13, R14, R658 to R663, R667, R672, R678): stored words, the views of state that lives elsewhere,
and the high-word latches. -/

namespace Sys2Proof.Machine

/-- The addresses of a block's command status registers, from the block's type code and page (R67). -/
def statusRegs (ty page : Nat) : List Nat :=
  (match ty with
    | 0x01 => [0x118, 0x18C] | 0x0A => [0x104, 0x144] | 0x0C => [0x118] | 0x0E => [0x10C] | 0x04 => [0x108] | 0x11 => [0x10C]
    | 0x02 | 0x06 | 0x07 | 0x09 | 0x0B | 0x0F | 0x10 | 0x13 => [0x104]
    | _ => []).map fun o => page * 4096 + o

/-- The number of counters of a block type (R663, from the counter tables). -/
def counterCount (ty : Nat) : Nat :=
  match ty with
  | 0x12 => 2 | 0x02 => 8 | 0x03 => 5 | 0x04 => 7 | 0x05 => 5 | 0x06 => 6 | 0x07 => 8 | 0x08 => 4 | 0x09 => 1 | 0x0A => 7 | 0x0B => 6
  | 0x0C => 7 | 0x0D => 5 | 0x0E => 12 | 0x0F => 10 | 0x10 => 6 | 0x11 => 5 | 0x13 => 8
  | _ => 0

/-- The number of instances of a block type (R658). -/
def instanceCount (ty : Nat) : Nat :=
  match ty with | 0x13 => 2 | 0x08 => 36 | 0x0C => 24 | 0x0D => 16 | 0x0E => 24 | _ => 1

/-- The power domain that a block controls (R597, R663): clusters, fabric ports, root ports and the companion link. -/
def pageDomain (ty inst : Nat) : Option Nat :=
  match ty with | 0x08 => some inst | 0x0E => some (36 + inst) | 0x0D => some (60 + inst) | 0x11 => some 76 | _ => none

/-- The state of a domain as PWR.DOM_STS shows it (R629). -/
def domCode : DomState → Nat
  | .on => 0 | .dusk => 1 | .entering .. => 2 | .midnight => 3 | .returning => 4

/-- A step of the Dawn sequence as GLB.DAWN_STS shows it (R570). -/
def dawnCode : DawnStep → Nat
  | .rom => 0 | .verify => 1 | .hold => 2 | .power => 3 | .arrays => 4 | .selftest => 5 | .ddr => 6 | .fill => 7 | .handover => 8
  | .service => 9 | .stopped => 10

/-- STORE of GLB.FW_STS (R595). -/
def storeCode : StoreState → Nat
  | .running => 0 | .receiving => 1 | .pending => 2 | .invalid => 3

/-- The bits of CAL_STATE for a section of the calibration store: present, and unchanged since test (R595). -/
def sectionBits {α : Type} (c : CalSection α) : Nat :=
  match c with | .absent => 0 | .factory => 3 | .saved _ => 1

/-- Whether an address holds the low word of a 64-bit pair (R13, R393, R562, R662, R672, R678). -/
def isPairLow (a : Nat) : Bool :=
  let off := a % 4096
  match blkId (a / 4096) with
  | none => false
  | some (ty, _) => (decide (0x040 ≤ off ∧ off < 0x100 ∧ off % 8 = 0)) || (decide (ty = 0x01 ∨ ty = 0x05 ∨ ty = 0x0D) && off == 0x108)
      || (ty == 0x03 && (off == 0x100 || off == 0x120))

/-- Whether an address holds the high word of a 64-bit pair. -/
def isPairHigh (a : Nat) : Bool := decide (4 ≤ a) && isPairLow (a - 4)

namespace Dev

/-- A block's BUSY as BLK_STS shows it (R663). -/
def blkBusy (d : Dev) (page : Nat) : Bool :=
  match blkId page with
  | some (ty, _) => (statusRegs ty page).any fun a => d.busy a
  | none => false

/-- The registers of the common header (R662, R663). -/
def headerView (d : Dev) (page ty inst off : Nat) : Word32 :=
  if off = 0x000 then BitVec.ofNat 32 (inst + 256 * ty)
  else if off = 0x004 then 0x0100
  else if off = 0x008 then BitVec.ofNat 32 (instanceCount ty + (if ty = 0x11 then 2 else 1) * 2 ^ 16)
  else if off = 0x00C then BitVec.ofNat 32 (counterCount ty + (if statusRegs ty page = [] then 0 else 32))
  else if off = 0x014 then
    let on : Bool := match pageDomain ty inst with | some n => (d.dom n).state == .on | none => true
    BitVec.ofNat 32 ((if on then 1 else 0) + (if d.reg (Reg.errSts page) &&& ~~~d.reg (Reg.errMask page) ≠ 0 then 2 else 0)
      + (if d.blkBusy page then 4 else 0))
  else if 0x040 ≤ off then
    let c := d.ctr page (off / 8 * 8)
    if (off - 0x040) / 8 < counterCount ty then (if off % 8 = 0 then c.setWidth 32 else (c >>> 32).setWidth 32) else 0
  else if off = 0x010 ∨ off = 0x024 then 0
  else d.reg (page * 4096 + off)

/-- CTL.RIDGE_STS (R559). -/
def ridgeView (d : Dev) : Word32 :=
  let east := d.ctl.cplx.east.role == .active
  let other := if east then d.ctl.cplx.west else d.ctl.cplx.east
  let code := match other.role with | .resync => 1 | .offline => 2 | _ => 0
  BitVec.ofNat 32 ((if d.ctl.cplx.west.latch then 1 else 0) + (if d.ctl.cplx.east.latch then 2 else 0) + (if east then 4 else 0) + code * 8
    + (if d.ctl.faultAt.isSome then 32 else 0) + (if d.straps.eastPrimary then 64 else 0))

/-- PWR.DOM_STS of the selected domain (R629). -/
def domView (d : Dev) : Word32 :=
  let n := d.fld 0x2138 7 0
  if n > 76 then 0
  else BitVec.ofNat 32 (domCode (d.dom n).state + (if (d.dom n).comp then 2 ^ 8 else 0) + (if d.fwVote n then 2 ^ 9 else 0)
    + (if 36 ≤ n ∧ n < 60 ∧ (d.dom n).fabmgr then 2 ^ 10 else 0) + (if d.partVote n then 2 ^ 11 else 0))

/-- NMC.CL_STS and NMC.LMAPi of a cluster (R678). -/
def clusterView (d : Dev) (n off : Nat) : Word32 :=
  let logical (c : Nat) : Nat := match d.lmap.find? fun (l : Nat × Nat) => l.2 == c with | some l => l.1 | none => 0xFFFF
  if off = 0x100 then
    BitVec.ofNat 32 ((List.range 16).foldl (fun a i =>
      let c := 16 * n + i
      a + (if (d.core c).found ∧ !(d.core c).fenced then 2 ^ i else 0) + (if logical c ≠ 0xFFFF then 2 ^ (16 + i) else 0)) 0)
  else if 0x104 ≤ off ∧ off < 0x124 then
    let i := (off - 0x104) / 4
    BitVec.ofNat 32 (logical (16 * n + 2 * i) + logical (16 * n + 2 * i + 1) * 2 ^ 16)
  else 0

/-- The DTP registers of a root port (R678). -/
def driveView (d : Dev) (n off : Nat) : Word32 :=
  match Tbl.find d.tier.drives n with
  | none => 0
  | some x =>
    if off = 0x100 then
      BitVec.ofNat 32 (x.link.toNat + x.width.toNat * 8 + x.rate.toNat * 64 + (if x.present then 2 ^ 9 else 0) + (if x.supported then 2 ^ 10 else 0))
    else if off = 0x108 then x.lbas.setWidth 32
    else if off = 0x10C then (x.lbas >>> 32).setWidth 32
    else if 0x110 ≤ off ∧ off < 0x124 then BitVec.ofNat 32 (leAt x.serial (off - 0x110) 4)
    else 0

/-- FAB.PORT_STS, FAB.PEER and FAB.VC_STSn (R437). -/
def portView (d : Dev) (n off : Nat) : Word32 :=
  let x := d.port n
  if off = 0x110 then
    BitVec.ofNat 32 (linkCode x.state + x.width.toNat * 16 + (if x.half then 64 else 0) + (if x.leader then 128 else 0) + x.used.toNat * 2 ^ 8
      + x.goodRx.toNat * 2 ^ 16 + x.attempts.toNat * 2 ^ 24 + x.cause.toNat * 2 ^ 28)
  else if off = 0x114 then BitVec.ofNat 32 (x.peerNode.toNat + x.peerPort.toNat * 2 ^ 16 + (if x.peerKnown then 2 ^ 21 else 0))
  else
    let v := d.vc n ((off - 0x140) / 4)
    BitVec.ofNat 32 ((v.initFar - v.leaked) % 2048 + v.credits % 2048 * 2 ^ 11)

/-- The vector registers and block routes of IRQ (R562). -/
def irqView (d : Dev) (off : Nat) : Word32 :=
  let v := d.vec (d.fld 0x5104 10 0)
  if off = 0x108 then v.addr.setWidth 32
  else if off = 0x10C then (v.addr >>> 32).setWidth 32
  else if off = 0x110 then v.data
  else if off = 0x114 then BitVec.ofNat 32 ((if v.mask then 1 else 0) + (if v.pend then 2 else 0) + v.cnt.toNat * 2 ^ 16)
  else
    let b := d.fld 0x5118 15 0
    match (List.range 0x418).find? fun p => blkId p == some (b / 256, b % 256) with
    | some p => Tbl.get 0 d.irq.routes p
    | none => 0

end Dev

/-- The value of a register of the control window as a read returns it, without the latches of R13. RAS.LOG_TAIL reads 0xFFFF_FFFF while no record is
held, as R263 says of LOG_HEAD: DESIGN CHOICE, it says nothing of LOG_TAIL (log 75). -/
def State.view (s : State) (a : Nat) : Word32 :=
  let d := s.dev
  let page := a / 4096
  let off := a % 4096
  match blkId page with
  | none => d.reg a
  | some (ty, inst) =>
    if off < 0x100 then d.headerView page ty inst off
    else match ty with
      | 0x01 =>
        if off = 0x108 then Config.serial.setWidth 32
        else if off = 0x10C then (Config.serial >>> 32).setWidth 32
        else if off = 0x110 then 0x7400 ||| (Config.stepping.setWidth 32 <<< 16)
        else if off = 0x180 then
          BitVec.ofNat 32 (dawnCode d.dawn.step + (if d.dawn.warm then 16 else 0) + (if d.dawn.full then 32 else 0) + d.dawn.waves * 2 ^ 8
            + min 65535 d.dawn.lastMs * 2 ^ 16)
        else if off = 0x184 then
          BitVec.ofNat 32 (storeCode d.fw.store + (if d.fw.store = .running ∨ d.fw.store = .pending then d.fw.storeSvn % 128 * 2 ^ 8 else 0)
            + d.fw.tag.toNat * 2 ^ 16)
        else if off = 0x190 then
          BitVec.ofNat 32 (sectionBits s.nv.optical + sectionBits s.nv.thermal * 4 + sectionBits s.nv.psense * 16
            + (List.range 24).foldl (fun a c => match Tbl.find s.nv.training c with
                | some t => if (d.chan c).dimm.any fun x => x.serial == t.1 then a + 2 ^ (8 + c) else a
                | none => a) 0)
        else d.reg a
      | 0x02 =>
        if off = 0x13C then d.domView
        else if 0x160 ≤ off ∧ off < 0x180 then
          BitVec.ofNat 32 (Config.voltage ((off - 0x160) / 4) false + Config.voltage ((off - 0x160) / 4) true * 2 ^ 16)
        else d.reg a
      | 0x03 =>
        if off = 0x100 then d.gtc.count.setWidth 32
        else if off = 0x104 then (d.gtc.count >>> 32).setWidth 32
        else if off = 0x114 then d.syncMaster.setWidth 32
        else d.reg a
      | 0x04 => if off = 0x100 then d.ridgeView else d.reg a
      | 0x05 => if (0x108 ≤ off ∧ off < 0x118) ∨ off = 0x11C then d.irqView off else d.reg a
      | 0x06 =>
        if off = 0x108 then
          BitVec.ofNat 32 (s.nv.fuses.svn % 128 + d.fw.runSvn % 128 * 2 ^ 8 + (if s.nv.fuses.ownerHash ≠ 0 then 2 ^ 15 else 0)
            + (if s.nv.fuses.dbgOff then 2 ^ 16 else 0) + (if d.sec.dbgLive then 2 ^ 17 else 0) + (if d.sec.chainOk then 2 ^ 18 else 0))
        else d.reg a
      | 0x08 => d.clusterView inst off
      | 0x0B =>
        if off = 0x114 then
          BitVec.ofNat 32 (Dev.thatchCode d.tier.state + (match d.tier.rebuild with | some r => 8 + r.1 % 16 * 16 | none => 0) + d.tier.failed.toNat * 2 ^ 8)
        else d.reg a
      | 0x0D => d.driveView inst off
      | 0x0E => if off = 0x110 ∨ off = 0x114 ∨ (0x140 ≤ off ∧ off < 0x160) then d.portView inst off else d.reg a
      | 0x12 =>
        if off = 0x108 then
          BitVec.ofNat 32 (d.side.dynAddr.toNat + (if d.side.i3c then 128 else 0) + d.side.eid.toNat * 2 ^ 8 + d.straps.sbAddr.toNat * 2 ^ 16)
        else d.reg a
      | 0x13 =>
        let r := if inst = 0 then d.ras.west else d.ras.east
        if off = 0x110 then (match r.log with | e :: _ => e.seq | [] => 0xFFFFFFFF)
        else if off = 0x114 then (match r.log.getLast? with | some e => e.seq | none => 0xFFFFFFFF)
        else d.reg a
      | _ => d.reg a

/-- A read on a path (R13, R667): the low word of a pair latches the high word; the high word is read from the latch. -/
def State.readReg (path : Path) (a : Nat) (s : State) : Word32 × State :=
  if isPairLow a then
    (s.view a, s.onDev fun d => { d with regs := { d.regs with latch := Tbl.set 0 (Dev.pathKey path (a + 4)) (s.view (a + 4)) d.regs.latch } })
  else if isPairHigh a then (Tbl.get 0 s.dev.regs.latch (Dev.pathKey path a), s)
  else (s.view a, s)

/-- What a register read on a path answers (R639, R648, R659): a status and the word. -/
def State.answerRead (path : Path) (addr : Word32) (s : State) : (Status × Word32) × State :=
  let a := addr.toNat
  let page := a / 4096
  if a % 4 ≠ 0 then ((.malformed, 0xFFFFFFFF), s)
  else if (blkId page).isNone ∧ page ≠ 0x00E then ((.noAccess, 0xFFFFFFFF), s)
  else if !s.dev.readAnswers path page (a % 4096) then ((.stateConflict, 0xFFFFFFFF), s)
  else
    let (v, s) := s.readReg path a
    ((.ok, v), s)

end Sys2Proof.Machine
end

