-- ==== Sys2Proof/Machine/Control.lean ====
section
/-! DEFINITION. The control complexes (R523 to R541), the interrupt controllers (R546 to R553), and the recovery of cores and islands (R252, R556 to
R560, R581). -/

namespace Sys2Proof.Machine

namespace Dev

/-! ### Control-core interrupts (R546 to R550) -/

/-- The sources that R548 names: the watchdog warning, a ridge line change, an uncorrectable word in control memory. -/
def namedSource (i : Nat) : Nat := Config.irqNamed i % 1024
/-- The IRQ_ORDER source of a control core (R549). -/
def orderSource (core : Nat) : Nat := Config.irqOrder core % 1024

/-- The priority of a source, 0 the highest (R546, R548). -/
def irqPrio (src : Nat) : Nat :=
  if (List.range 3).any (fun i => namedSource i == src) ∨ (List.range 4).any (fun c => orderSource c == src) then 0 else Config.irqPriority src % 64

/-- The control core that a source targets. -/
def irqCore (src : Nat) : Nat := ((List.range 4).find? fun c => orderSource c == src).getD (Config.irqTarget src % 4)

/-- A source of a half's controller. -/
def irqSource (d : Dev) (h : Half) (src : Nat) : IrqSource := Tbl.get ⟨false, 0⟩ (d.irq.sources.at h) src

/-- Store a source. -/
def setIrqSource (h : Half) (src : Nat) (x : IrqSource) (d : Dev) : Dev :=
  { d with irq := { d.irq with sources := d.irq.sources.mod h (Tbl.set ⟨false, 0⟩ src x) } }

/-- The priority stack of a control core (R547). -/
def irqStack (d : Dev) (h : Half) (core : Nat) : IrqStack := Tbl.get ⟨[], none⟩ (d.irq.prio.at h) core

/-- Store a priority stack. -/
def setIrqStack (h : Half) (core : Nat) (x : IrqStack) (d : Dev) : Dev :=
  { d with irq := { d.irq with prio := d.irq.prio.mod h (Tbl.set ⟨[], none⟩ core x) } }

/-- The source on top of a stack, the ninth position first (R548). -/
def irqTop (x : IrqStack) : Option Nat := match x.ninth with | some s => some s | none => x.entries.head?

/-- The pending source that a core would accept: the highest priority, then the lowest number (R547); only priority 0 while DELIVER is 0 (R550). -/
def irqBest (d : Dev) (h : Half) (core : Nat) : Option Nat :=
  ((d.irq.sources.at h).filter fun s => s.2.pend && irqCore s.1 == core && (d.fld 0x5100 0 0 == 1 || irqPrio s.1 == 0)).foldl
    (fun best s => match best with
      | some b => if irqPrio s.1 < irqPrio b then some s.1 else some b
      | none => some s.1) none

/-- A core accepts what it may (R547, R548): delivery clears the pending bit and the count. -/
def irqOffer (h : Half) (core : Nat) (d : Dev) : Dev :=
  match d.irqBest h core with
  | none => d
  | some s =>
    let x := d.irqStack h core
    let higher : Bool := match irqTop x with | some t => decide (irqPrio s < irqPrio t) | none => true
    let take (x : IrqStack) (d : Dev) : Dev := (d.setIrqSource h s ⟨false, 0⟩).setIrqStack h core x
    if !higher then d
    else if x.entries.length < 8 then take { x with entries := s :: x.entries } d
    else if irqPrio s = 0 ∧ x.ninth.isNone then take { x with ninth := some s } d
    else d

/-- INTERRUPT_ARRIVAL (R546). -/
def irqArrive (h : Half) (src : Nat) (d : Dev) : Dev :=
  let x := d.irqSource h src
  (d.setIrqSource h src ⟨true, satAdd x.cnt 1⟩).irqOffer h (irqCore src)

/-- An event of the device reaches the controllers of both halves (R546). -/
def irqEvent (src : Nat) (d : Dev) : Dev := (d.irqArrive .west src).irqArrive .east src

/-- END_OF_INTERRUPT (R547, R549). -/
def irqEnd (h : Half) (core src : Nat) (d : Dev) : Dev :=
  let x := d.irqStack h core
  let top := irqTop x
  if top = some src then
    (d.setIrqStack h core (if x.ninth.isSome then { x with ninth := none } else { x with entries := x.entries.tail })).irqOffer h core
  else
    let d := ((d.bump Reg.irq 0x060 1).cause Reg.irq 1).log h
      { type := 0x16, sev := 1, block := blockOf Reg.irq,
        detail := [(40, 1, core), (41, 2, src), (43, 2, match top with | some t => t | none => Config.irqNoTop.toNat)] }
    d.irqArrive h (orderSource core)

/-- DELIVER_WRITE (R550): what is pending is delivered, sources first, then vectors in ascending order. -/
def writeDeliver (v : Word32) (d : Dev) : Dev :=
  let was := d.fld 0x5100 0 0
  let d := d.setReg 0x5100 (v &&& 1)
  if was = 1 ∨ !v.getLsbD 0 then d
  else
    let d := foldN 4 (fun c d => (d.irqOffer .west c).irqOffer .east c) d
    d.irq.vectors.foldl (fun d x => if x.2.pend && !x.2.mask && d.msiMayLeave then d.sendVec x.1 else d) d

/-- VECTOR_UNMASK (R552): a write of IRQ.VEC_CTL. -/
def writeVecCtl (v : Word32) (d : Dev) : Dev :=
  let n := d.fld 0x5104 10 0
  let x := d.vec n
  let d := d.setVec n { x with mask := v.getLsbD 0 }
  if x.pend && !v.getLsbD 0 && d.msiMayLeave then d.sendVec n else d

/-! ### Roles and the ridge line (R523 to R533) -/

/-- A control complex. -/
def cplx (d : Dev) (h : Half) : Complex := d.ctl.cplx.at h

/-- Change the control record. -/
def modCtl (f : Ctl → Ctl) (d : Dev) : Dev := { d with ctl := f d.ctl }

/-- Change a complex. -/
def modCplx (h : Half) (f : Complex → Complex) (d : Dev) : Dev := d.modCtl fun c => { c with cplx := c.cplx.mod h f }

/-- A FIRMWARE_EVENT record (R261). -/
def logFirmware (h : Half) (page : Nat) (d : Dev) : Dev := d.log h { type := 0x1A, sev := 2, block := blockOf page }

/-- A complex enters RESYNC, or OFFLINE at the third entry within 1 h (R535); it holds no latch. -/
def enterResync (h : Half) (d : Dev) : Dev :=
  let l := d.now :: (d.cplx h).resyncs.filter fun t => decide (d.now < t + 3600000000000)
  ((d.modCplx h fun c => { c with role := if l.length ≥ 3 then .offline else .resync, latch := false, resyncs := l, bad := 0 }).bump Reg.ctl 0x068
    1).logFirmware h Reg.ctl

/-- A complex releases the line and enters RESYNC (R530, R535). -/
def release (h : Half) (cause : Nat) (d : Dev) : Dev :=
  let d := d.modCtl fun c => { c with released := d.now, swCause := cause }
  let d := if (d.cplx h).latch then d.irqEvent (namedSource 1) else d
  d.enterResync h

/-- A complex fails a check (R534). -/
def complexFails (h : Half) (cause : Nat) (d : Dev) : Dev :=
  match (d.cplx h).role with
  | .active => d.release h cause
  | .standby => d.enterResync h
  | _ => d

/-- The control messages that waited leave, in order (R537, R540). -/
def flushWaiting (d : Dev) : Dev :=
  let l := d.ctl.waiting
  l.foldl (fun d m => match m with
    | .msi a v => d.sendMsi a v
    | .pkt vc p => d.sendCtl vc p
    | .port q vc p => (d.stampCsn q.val).pushTx q.val vc (pktBytes p)
    | .tree n p => d.copyCtl n p) (d.modCtl fun c => { c with waiting := [] })

/-- A complex becomes ACTIVE (R536): it orders the inputs that have no number, and messages leave again. -/
def activate (h : Half) (latch : Bool) (d : Dev) : Dev :=
  let d := (d.modCplx h fun c => { c with role := .active, latch := latch, kickAt := d.now }).modCtl fun c =>
    { c with lastInput := c.lastInput + c.unnumbered.length, journal := c.lastInput + c.unnumbered.length, unnumbered := [] }
  let d := d.modCplx h fun c => { c with seen := d.ctl.lastInput }
  (if latch then d.irqEvent (namedSource 1) else d).flushWaiting

/-- The switch-over is recorded (R536, R561), and a SWITCHOVER command completes (R560). -/
def switched (cause : Nat) (d : Dev) : Dev :=
  let d := ((d.bump Reg.ctl 0x040 1).setReg 0x4110 (BitVec.ofNat 32 cause)).cause Reg.ctl 2
  if d.ctl.swCmd then (d.modCtl fun c => { c with swCmd := false }).cmdEnd Reg.ctl 0x4108 1 .ok else d

/-- SERVICE begins (R584, R586): ports train, power decisions start, and the last step is timed. -/
def enterService (d : Dev) : Dev :=
  let d := { d with dawn := { d.dawn with step := .service, stepAt := d.now, running := false, lastMs := (d.now - d.dawn.startAt) / 1000000 } }
  let d := (d.modPwr fun p => { p with decideAt := some (d.now + 250000000) }).modCtl fun c =>
    { c with cplx := ⟨{ c.cplx.west with heardAt := d.now, kickAt := d.now }, { c.cplx.east with heardAt := d.now, kickAt := d.now }⟩ }
  foldN 24 (fun p d =>
    if d.fld (fabA p + 0x100) 0 0 = 1 ∧ d.nodeId ≠ 0xFFFF ∧ (d.dom (36 + p)).state = .on then d.startReset p ⟨8, none, false⟩ else d) d

/-- Whether a complex may claim (R529, R531): a STANDBY complex that senses both latches clear; at HANDOVER the other half waits 1 ms for the
strap half. -/
def mayClaim (d : Dev) (h : Half) : Bool :=
  d.dawn.powered && (d.cplx h).role == .standby && !d.ctl.cplx.west.latch && !d.ctl.cplx.east.latch && d.ctl.faultAt.isNone
    && (d.dawn.step == .service || (d.dawn.step == .handover && d.dawn.mapped && (h == d.strapHalf || decide (d.dawn.stepAt + 1000000 ≤ d.now))))

/-- RIDGE_CLAIM and CLAIM_WAIT_EXPIRY (R531, R536). -/
def claim (h : Half) (d : Dev) : Dev :=
  if !d.mayClaim h then d
  else if d.dawn.step = .handover then (d.activate h true).enterService
  else
    let cause := if (d.cplx h).lost then 6 else d.ctl.swCause
    (d.activate h true).switched cause

/-- CONTROL_INPUT (R525, R527, R528). -/
def controlInput (input : Nat) (d : Dev) : Dev :=
  if !d.orders then d.modCtl fun c => { c with unnumbered := c.unnumbered ++ [input] }
  else
    let h : Half := if d.ctl.cplx.east.role = .active then .east else .west
    let n := d.ctl.lastInput + 1
    let d := (d.modCtl fun c => { c with lastInput := n, journal := n }).modCplx h fun c => { c with seen := n }
    let o := otherHalf h
    if (d.cplx o).role = .standby ∧ n - (d.cplx o).seen > 4096 then (d.enterResync o).cause Reg.ctl 4 else d

/-- CONTROL_MESSAGE (R523, R541): the copy of a complex reaches the filter of its egress. -/
def controlMessage (h : Half) (csn : Word32) (egress : Nat) (d : Dev) : Dev :=
  if (d.cplx h).role = .resync ∨ (d.cplx h).role = .offline then d
  else
    let x := (csn - Tbl.get 0 d.ctl.filters egress).toNat
    if 1 ≤ x ∧ x < 2 ^ 31 then
      (d.modCtl fun c => { c with filters := Tbl.set 0 egress csn c.filters }).emit (.control egress csn)
    else d.bump Reg.ctl 0x050 1

/-! ### Ridge status and ridge faults (R532, R533, R538) -/

/-- Both halves enter ridge-fault mode (R538). -/
def ridgeFault (d : Dev) : Dev :=
  let drop (c : Complex) : Complex := { c with latch := false, role := if c.role = .active then .standby else c.role, bad := 0 }
  let d := d.modCtl fun c => { c with cplx := ⟨drop c.cplx.west, drop c.cplx.east⟩, faultAt := some d.now, taken := false }
  let rec_ (h : Half) (d : Dev) : Dev := d.log h { type := 0x15, sev := 2, block := blockOf Reg.ctl }
  ((rec_ .east (rec_ .west d)).cause Reg.ctl 3).alert 3

/-- RIDGE_STATUS (R528, R532, R533, R538): a half takes a status message of the other. -/
def ridgeStatus (h : Half) (m : RidgeMsg) (d : Dev) : Dev :=
  if !d.dawn.powered then d
  else
    let o := otherHalf h
    let d := (d.modCplx h fun c => { c with heardAt := d.now, lost := false }).modCplx o fun c =>
      if c.role = .standby then { c with seen := max c.seen (min m.input d.ctl.lastInput) } else c
    let own := match h with | .west => m.ownWest | .east => m.ownEast
    let wrong := own != (d.cplx h).latch || m.west != m.ownWest || m.east != m.ownEast || (m.ownWest && m.ownEast)
    let d := d.modCplx h fun c => { c with bad := if wrong then c.bad + 1 else 0 }
    if d.ctl.faultAt.isSome then d
    else if (d.cplx h).bad ≥ 3 then d.ridgeFault
    else if (d.cplx h).role = .active ∧ !(d.cplx h).latch ∧ m.role = 0 then d.modCplx h fun c => { c with role := .standby }
    else d

/-- RIDGE_FAULT_TAKEOVER (R538). -/
def ridgeTakeover (d : Dev) : Dev :=
  match d.ctl.faultAt with
  | none => d
  | some t =>
    if d.ctl.taken ∨ d.now < t + 10000000 ∨ (d.cplx d.strapHalf).role ≠ .standby ∨ d.dawn.step ≠ .service then d
    else ((d.modCtl fun c => { c with taken := true }).activate d.strapHalf false).switched 5

/-- PEER_LOST (R533): logged; the half keeps its role. -/
def peerLost (h : Half) (d : Dev) : Dev :=
  let c := d.cplx h
  if c.lost ∨ d.now < c.heardAt + 100000 ∨ d.dawn.step ≠ .service then d
  else (d.modCplx h fun c => { c with lost := true }).logFirmware h Reg.ctl

/-- WATCHDOG_WARNING (R534, R548). -/
def watchdogWarning (h : Half) (d : Dev) : Dev :=
  if d.now < (d.cplx h).kickAt + 500000 ∨ !d.dawn.powered then d else d.irqEvent (namedSource 0)

/-- CONTROL_WATCHDOG_EXPIRY (R534). -/
def controlWatchdog (h : Half) (d : Dev) : Dev :=
  if d.now < (d.cplx h).kickAt + 1000000 ∨ !d.dawn.powered then d else d.complexFails h 3

/-- CONTROL_MEMORY_ERROR (R534, R548). -/
def controlMemory (h : Half) (d : Dev) : Dev :=
  if !d.dawn.powered then d
  else ((d.irqEvent (namedSource 2)).log h { type := 0x06, sev := 2, block := blockOf Reg.ctl }).complexFails h 2

/-- RESYNC_DONE (R535): not while the module store holds no running firmware (R591). -/
def resyncDone (h : Half) (d : Dev) : Dev :=
  if (d.cplx h).role = .resync ∧ d.fw.store = .running ∧ d.dawn.powered then
    d.modCplx h fun c => { c with role := .standby, seen := d.ctl.lastInput, kickAt := d.now, heardAt := d.now, lost := false, bad := 0 }
  else d

/-! ### Commands (R560) -/

/-- A command of CTL (R68). -/
def ctlCmd (f : Dev → Option Status × Dev) (d : Dev) : Dev :=
  if d.busy 0x4108 then d.illegal Reg.ctl
  else
    match f (d.cmdBegin 0x4108) with
    | (some st, d) => d.cmdEnd Reg.ctl 0x4108 1 st
    | (none, d) => d

/-- The complex that is not the ACTIVE one. -/
def otherComplex (d : Dev) : Half := if d.ctl.cplx.east.role = .active then .west else .east

/-- SWITCHOVER (R560): it completes once the other complex holds the line. -/
def switchOver (d : Dev) : Option Status × Dev :=
  let o := d.otherComplex
  if !d.orders ∨ (d.cplx o).role ≠ .standby ∨ d.ctl.lastInput - (d.cplx o).seen ≥ 64 ∨ d.ctl.faultAt.isSome then (some .stateConflict, d)
  else (none, (d.modCtl fun c => { c with swCmd := true }).release (otherHalf o) 4)

/-- STANDBY_RESYNC (R560): the entries of the last hour do not count against it. -/
def standbyResync (d : Dev) : Option Status × Dev :=
  let o := d.otherComplex
  if (d.cplx o).role ≠ .offline then (some .stateConflict, d)
  else (some .ok, (d.modCplx o fun c => { c with resyncs := [] }).enterResync o)

/-! ### Cores (R252, R556, R581) -/

/-- The logical core that a physical core holds. -/
def logicalOf (d : Dev) (c : Nat) : Option (Fin 512) :=
  match d.lmap.find? fun (l : Nat × Nat) => l.2 == c with
  | some l => if h : l.1 < 512 then some ⟨l.1, h⟩ else none
  | none => none

/-- The spare that a fenced core's logical core takes (R581): the lowest of the same half, else of the other. -/
def spareFor (d : Dev) (c : Nat) : Option Nat :=
  let spares := (List.range 576).filter fun k => (d.core k).found && !(d.core k).fenced && k != c && (d.logicalOf k).isNone
  match spares.find? fun k => halfOfCore k == halfOfCore c with
  | some k => some k
  | none => spares.head?

/-- A physical core is fenced in service (R556, R581). -/
def fenceCore (c : Nat) (d : Dev) : Dev :=
  let d := d.setCore c { d.core c with fenced := true, loading := false }
  let d := (((d.bump Reg.ctl 0x060 1).cause Reg.ctl 5).cause (Reg.nmc (c / 16)) 2).log (halfOfCore c)
    { type := 0x19, sev := 2, block := blockOf (Reg.nmc (c / 16)) }
  match d.logicalOf c with
  | none => d
  | some l =>
    match d.spareFor c with
    | some k => ({ d with lmap := Tbl.put l.val k d.lmap }).modOpq fun o => { o with refill := o.refill ++ [k] }
    | none =>
      let owner := d.parts.find? fun p => p.2.cores.contains l
      let d := { d with lmap := Tbl.drop l.val d.lmap }
      match owner with
      | some p =>
        let p : PartId := BitVec.ofNat 12 p.1
        (d.modPart p fun x => { x with cores := x.cores.filter fun k => k != l }).cancelCoreless p
      | none => d

/-- A core is reset and reloads its firmware; the third reset in 60 s fences it (R556). -/
def resetCore (c : Nat) (d : Dev) : Dev :=
  let l := d.now :: (d.core c).resets.filter fun t => decide (d.now < t + 60000000000)
  let d := d.setCore c { d.core c with resets := l, loading := true }
  let d := match d.logicalOf c with | some k => d.leaveCore k | none => d
  if l.length ≥ 3 then d.fenceCore c else d

/-- Whether a physical core runs its firmware. -/
def coreLive (d : Dev) (c : Nat) : Bool :=
  (d.core c).found && !(d.core c).fenced && !(d.core c).loading && (d.dom (c / 16)).state == .on && d.dawn.step == .service

/-- HEARTBEAT (R556). -/
def heartbeat (c : Nat) (d : Dev) : Dev := if d.coreLive c then d.setCore c { d.core c with beatAt := d.now } else d

/-- HEARTBEAT_TIMEOUT (R556): 10 ms since the last heartbeat, or since the cluster came on. -/
def heartbeatTimeout (c : Nat) (d : Dev) : Dev :=
  if !d.coreLive c ∨ !d.orders ∨ d.now < max (d.core c).beatAt (d.dom (c / 16)).at_ + 10000000 then d
  else ((d.bump Reg.ctl 0x058 1).bump (Reg.nmc (c / 16)) 0x058 1).resetCore c

/-- What runs on a core fails UNCORRECTABLE (R250, R252). -/
def failOnCore (c : Nat) (d : Dev) : Dev :=
  match d.logicalOf c with
  | some k => d.opq.ops.foldl (fun (d : Dev) (o : Op) =>
      match o.units.find? fun (x : Nat × UnitSt) => x.2.core == k && x.2.phase != UnitPhase.writing with
      | some x => d.failUnit o.id x.2.member x.1 .uncorrectable
      | none => d) d
  | none => d

/-- FETCH_TRAP (R252): what runs on the core completes UNCORRECTABLE. -/
def fetchTrap (c : Nat) (d : Dev) : Dev :=
  if !d.coreLive c then d
  else
    let d := ((d.bump (Reg.nmc (c / 16)) 0x050 1).cause (Reg.nmc (c / 16)) 1).log (halfOfCore c)
      { type := 0x07, sev := 2, block := blockOf (Reg.nmc (c / 16)) }
    (d.failOnCore c).resetCore c

/-- CORE_RELOAD_DONE (R556). -/
def coreReloaded (c : Nat) (d : Dev) : Dev :=
  if (d.core c).loading then d.setCore c { d.core c with loading := false, beatAt := d.now } else d

/-! ### Islands and register reads (R557, R558) -/

/-- SIDEBAND_WATCHDOG_EXPIRY (R558, R643): the island restarts, its sessions end, and the port is an I²C target again. -/
def islandRestart (h : Half) (d : Dev) : Dev :=
  if d.now < d.side.kickAt.at h + 2000000000 ∨ !d.dawn.islandsRun then d
  else
    let d := { d with side := { d.side with kickAt := d.side.kickAt.set h d.now, restart := d.side.restart.set h (some d.now) } }
    let d := if h = d.strapHalf then
        ({ d with side := { d.side with i3c := false, dynAddr := 0 } }).endSessions fun (x : Session) => x.via == SpdmVia.sideband
      else d
    d.logFirmware h Reg.sbm

/-- REG_READ_TIMEOUT (R557, R639): a read of the companion that has waited 50 µs. -/
def readTimeout (d : Dev) : Dev :=
  match d.cmp.reads with
  | [] => d
  | r :: rest =>
    if d.now < r.time + 50000 then d
    else ((({ d with cmp := { d.cmp with reads := rest } }).bump Reg.ctl 0x070 1).bump Reg.cmp 0x050 1).emit (.reg .companion .timeout 0xFFFFFFFF)

end Dev

/-- Reads of the companion that waited for an ACTIVE complex are answered (R526). -/
def State.answerWaiting (s : State) : State :=
  if !s.dev.orders then s
  else
    s.dev.cmp.reads.foldl (fun s r =>
      let (v, s) := s.answerRead .companion r.addr
      s.onDev fun d => (if v.1 = .ok then d else d.bump Reg.cmp 0x050 1).emit (.reg .companion v.1 v.2)) (s.onDev fun d => { d with cmp := { d.cmp with reads := [] } })

/-! ### Meanings -/

/-- CTL_NOP (R560). -/
def execCtlNop (s : State) : Host.Outcome State Fault Refusal := next (s.onDev (Dev.ctlCmd fun d => (some .ok, d)))
/-- SWITCHOVER (R560). -/
def execSwitchover (s : State) : Host.Outcome State Fault Refusal := next (s.onDev (Dev.ctlCmd Dev.switchOver))
/-- STANDBY_RESYNC (R560). -/
def execStandbyResync (s : State) : Host.Outcome State Fault Refusal := next (s.onDev (Dev.ctlCmd Dev.standbyResync))
/-- CONTROL_INPUT (R525). -/
def execControlInput (i : Nat) (s : State) : Host.Outcome State Fault Refusal := next (s.onDev (Dev.controlInput i))
/-- CONTROL_MESSAGE (R541). -/
def execControlMessage (h : Half) (csn : Word32) (egress : Fin 25) (s : State) : Host.Outcome State Fault Refusal :=
  next (s.onDev (Dev.controlMessage h csn egress.val))
/-- RIDGE_STATUS_SEND (R533): a half has sent its status message. -/
def execRidgeStatusSend (h : Half) (s : State) : Host.Outcome State Fault Refusal :=
  next (s.onDev fun d =>
    if !d.dawn.powered ∨ d.now < (d.cplx h).sentAt + 10000 then d else d.modCplx h fun c => { c with sentAt := d.now })
/-- RIDGE_STATUS (R533). -/
def execRidgeStatus (h : Half) (m : RidgeMsg) (s : State) : Host.Outcome State Fault Refusal := next (s.onDev (Dev.ridgeStatus h m))
/-- RIDGE_FAULT_TAKEOVER (R538). -/
def execRidgeFaultTakeover (s : State) : Host.Outcome State Fault Refusal := next ((s.onDev Dev.ridgeTakeover).answerWaiting)
/-- PEER_LOST (R533). -/
def execPeerLost (h : Half) (s : State) : Host.Outcome State Fault Refusal := next (s.onDev (Dev.peerLost h))
/-- RIDGE_CLAIM (R531). -/
def execRidgeClaim (h : Half) (s : State) : Host.Outcome State Fault Refusal := next ((s.onDev (Dev.claim h)).answerWaiting)
/-- CLAIM_WAIT_EXPIRY (R531): the half other than the strap half. -/
def execClaimWaitExpiry (h : Half) (s : State) : Host.Outcome State Fault Refusal :=
  next ((s.onDev fun d => if h = d.strapHalf ∨ d.dawn.step ≠ .handover then d else d.claim h).answerWaiting)
/-- LOCKSTEP_MISMATCH (R534). -/
def execLockstepMismatch (h : Half) (s : State) : Host.Outcome State Fault Refusal :=
  next (s.onDev fun d => if d.dawn.powered then d.complexFails h 1 else d)
/-- CONTROL_MEMORY_ERROR (R534). -/
def execControlMemoryError (h : Half) (s : State) : Host.Outcome State Fault Refusal := next (s.onDev (Dev.controlMemory h))
/-- WATCHDOG_WARNING (R534). -/
def execWatchdogWarning (h : Half) (s : State) : Host.Outcome State Fault Refusal := next (s.onDev (Dev.watchdogWarning h))
/-- CONTROL_WATCHDOG_EXPIRY (R534). -/
def execControlWatchdogExpiry (h : Half) (s : State) : Host.Outcome State Fault Refusal := next (s.onDev (Dev.controlWatchdog h))
/-- RESYNC_DONE (R535). -/
def execResyncDone (h : Half) (s : State) : Host.Outcome State Fault Refusal := next (s.onDev (Dev.resyncDone h))
/-- HEARTBEAT (R556). -/
def execHeartbeat (c : Fin 576) (s : State) : Host.Outcome State Fault Refusal := next (s.onDev (Dev.heartbeat c.val))
/-- HEARTBEAT_TIMEOUT (R556). -/
def execHeartbeatTimeout (c : Fin 576) (s : State) : Host.Outcome State Fault Refusal := next (s.onDev (Dev.heartbeatTimeout c.val))
/-- FETCH_TRAP (R252). -/
def execFetchTrap (c : Fin 576) (s : State) : Host.Outcome State Fault Refusal := next (s.onDev (Dev.fetchTrap c.val))
/-- CORE_RELOAD_DONE (R556). -/
def execCoreReloadDone (c : Fin 576) (s : State) : Host.Outcome State Fault Refusal := next (s.onDev (Dev.coreReloaded c.val))
/-- INTERRUPT_ARRIVAL (R546). -/
def execInterruptArrival (h : Half) (src : Fin 1024) (s : State) : Host.Outcome State Fault Refusal := next (s.onDev (Dev.irqArrive h src.val))
/-- END_OF_INTERRUPT (R547, R549). -/
def execEndOfInterrupt (h : Half) (core : Fin 4) (src : Fin 1024) (s : State) : Host.Outcome State Fault Refusal :=
  next (s.onDev (Dev.irqEnd h core.val src.val))
/-- VECTOR_ARRIVAL (R552). -/
def execVectorArrival (v : VecNo) (s : State) : Host.Outcome State Fault Refusal := next (s.onDev (Dev.arriveVec v.toNat))
/-- VECTOR_UNMASK (R552). -/
def execVectorUnmask (path : Path) (v : Word32) (s : State) : Host.Outcome State Fault Refusal :=
  next (s.onDev (Dev.accept path Reg.irq 0x114 (Dev.writeVecCtl v)))
/-- DELIVER_WRITE (R550). -/
def execDeliverWrite (path : Path) (v : Word32) (s : State) : Host.Outcome State Fault Refusal :=
  next (s.onDev (Dev.accept path Reg.irq 0x100 (Dev.writeDeliver v)))
/-- SIDEBAND_WATCHDOG_EXPIRY (R558). -/
def execSidebandWatchdogExpiry (h : Half) (s : State) : Host.Outcome State Fault Refusal := next (s.onDev (Dev.islandRestart h))
/-- REG_READ_TIMEOUT (R557). -/
def execRegReadTimeout (s : State) : Host.Outcome State Fault Refusal := next (s.onDev Dev.readTimeout)

end Sys2Proof.Machine
end

