-- ==== Sys2Proof/Machine/Arrays.lean ====
section
/-! DEFINITION. The word code outside DRAM: read and write data on the mesh, core SRAM, and the device arrays with their disabled ways (R235 to R240,
R250, R254, R255). -/

namespace Sys2Proof.Machine

/-- What an error in one word of an array does to it (R238): whether the word was clean, and whether it is lost. The syndrome is that of the flipped
bits, whatever the word and its place. -/
def wordFinding (e : WordFlip) : Finding :=
  let f : Fold := ⟨0, 0⟩
  let x := (encodeWord 0 f).flip e
  if x.syndrome f = 0 then .clean else if (x.decode f).1.isSome then .corrected else .uncorrectable

namespace Dev

/-- A finding in core SRAM or a device array is counted and logged (R259, R261). -/
def logSram (h : Half) (out : Finding) (block : Nat) (d : Dev) : Dev :=
  match out with
  | .corrected => (d.bump (Reg.ras h) 0x060 1).log h { type := 0x05, sev := 0, block := block }
  | .uncorrectable => (d.bump (Reg.ras h) 0x068 1).log h { type := 0x06, sev := 1, block := block }
  | _ => d

/-- The line that a way of a directory set holds. Which way of its set an entry stands in the model does not hold; the finding names it. The
entry is back-invalidated, as a victim under R148; one in transition is left to its transaction. -/
def clearDirWay (line : Nat) (d : Dev) : Dev :=
  match d.dirEnt line, d.extAt (line * 64), d.tx? line with
  | some ent, some (i, e), none =>
    let hs := d.holders i e ent none
    ((d.bump Reg.coh 0x058 1).beginTx line .backInval none (hs.map fun n => d.selfSnoop n .inv)).advance line
  | _, _, _ => d

/-- The way that holds a hard-faulted place is disabled until the next Dawn sequence, at most 8 of a set (R254). Set keys of array n start at
n × 2^32, with 0 for the directory, 1 for the shared translation cache and 2 for the tag cache; the device's own numbers are not visible (R237). A WAY_DISABLED record has no
DETAIL of its own; byte 40 is 1 for a further hard fault that disables nothing. DESIGN CHOICE (log 75). -/
def disableWay (h : Half) (array set way : Nat) (d : Dev) : Dev :=
  let k := array * 2 ^ 32 + set
  if (d.ras.at h).waysOff.contains (k, way) then d
  else if ((d.ras.at h).waysOff.filter fun w => w.1 == k).length ≥ 8 then
    d.log h { type := 0x09, sev := 1, block := blockOf (Reg.ras h), detail := [(40, 1, 1)] }
  else
    ({ d with ras := d.ras.mod h fun r => { r with waysOff := r.waysOff ++ [(k, way)] } }).log h { type := 0x09, sev := 1, block := blockOf (Reg.ras h) }

/-- Whether a finding makes a place hard-faulted (R254): it is uncorrectable, or was corrected at this place less than 1 s before. The correction
is remembered. -/
def hardFaulted (h : Half) (place : Nat) (out : Finding) (d : Dev) : Bool × Dev :=
  match out with
  | .uncorrectable => (true, d)
  | .corrected =>
    let before := (d.ras.at h).fixed.any fun x => x.1 == place && decide (d.now < x.2 + 1000000000)
    let keep := (d.ras.at h).fixed.filter fun x => x.1 != place && decide (d.now < x.2 + 1000000000)
    (before, { d with ras := d.ras.mod h fun r => { r with fixed := keep ++ [(place, d.now)] } })
  | _ => (false, d)

/-- An error in a way of an array (R254, R255): counted and logged, and the way disabled when the place is hard-faulted. -/
def arrayError (h : Half) (array set way word : Nat) (out : Finding) (d : Dev) : Dev :=
  let d := d.logSram h out (blockOf (Reg.ras h))
  let (hard, d) := d.hardFaulted h (((array * 2 ^ 32 + set) * 16 + way) * 4 + word) out
  if hard then d.disableWay h array set way else d

/-- Words of a pool line on the mesh or bridge (R239, R240, R249), after errors. -/
def meshRead (line : LineNo) (flips : List WordFlip) (d : Dev) : Option (Half × Ext × Finding × List Byte) :=
  let off := lineOff line
  match d.extAt off with
  | none => none
  | some (_, e) =>
    match d.lineKey e off with
    | none => none
    | some k =>
      let fabric := d.fabAddr off
      let l := (meshLine (keyChan k) (keyAddr k) fabric (d.mem.line k) (d.mem.bad k)).zipIdx.map fun x => x.1.flip (flips.getD x.2 ⟨0, 0⟩)
      let (out, syn, _) := meshDecode fabric l
      some (homeHalf e off, e, out, syn)

/-- An error in the read or write data of a line on its way (R250): corrected words are counted and logged; an uncorrectable one meets the next
reader, or the next writer, of the line at its own step. -/
def meshError (line : LineNo) (write : Bool) (flips : List WordFlip) (d : Dev) : Dev :=
  match d.meshRead line flips with
  | none => d
  | some (h, e, out, syn) =>
    let rec_ (type sev : Nat) (d : Dev) : Dev := d.log h
      { type := type, sev := sev, block := blockOf Reg.coh, part := some e.part, addr := d.fabAddr (lineOff line),
        detail := (41, 1, 0xFF) :: (List.range 8).map fun w => (42 + 2 * w, 2, (syn.getD w 0).toNat) }
    match out with
    | .corrected => rec_ 0x01 0 (d.bump (Reg.ras h) 0x040 (syn.filter (· != 0)).length)
    | .uncorrectable =>
      rec_ 0x03 1 { d with mem := if write then { d.mem with wrBad := NSet.insert line.toNat d.mem.wrBad }
                                  else { d.mem with rdBad := NSet.insert line.toNat d.mem.rdBad } }
    | _ => d

/-- A word of a core's SRAM or accumulators (R250): an uncorrectable one fails the operation, and the core is refilled before its next. -/
def coreError (c : Nat) (flip : WordFlip) (d : Dev) : Dev :=
  if !d.coreLive c then d
  else
    let out := wordFinding flip
    let d := d.logSram (halfOfCore c) out (blockOf (Reg.nmc (c / 16)))
    if out = .uncorrectable then
      (d.failOnCore c).modOpq fun o => { o with refill := if o.refill.contains c then o.refill else o.refill ++ [c] }
    else d

/-- An entry of a core's micro-TLB (R255): an uncorrectable one is invalidated, and the next access walks. -/
def microError (c place : Nat) (flip : WordFlip) (d : Dev) : Dev :=
  let out := wordFinding flip
  let d := d.logSram (halfOfCore c) out (blockOf (Reg.ras (halfOfCore c)))
  if out = .uncorrectable then
    d.modXlt fun t => { t with micro := t.micro.map fun x => if x.1 = c then (x.1, { x.2 with ents := Tbl.drop place x.2.ents }) else x }
  else d

/-- An entry of a half's shared translation cache (R255): an uncorrectable one is invalidated, and the next access walks. -/
def sharedError (h : Half) (set : BitVec 10) (way : Nat) (flip : WordFlip) (d : Dev) : Dev :=
  let out := wordFinding flip
  let own := (d.xlt.shared.at h).filter fun y => sharedSet y == set
  let d := if out = .uncorrectable then
      d.modXlt fun t => { t with shared := t.shared.set h ((t.shared.at h).filter fun y => some y != own[way]?) }
    else d
  d.arrayError h 1 set.toNat way 0 out

/-- A set of a half's tag cache (R255): it is written through, so an uncorrectable one is read again from the tag region. -/
def tagError (h : Half) (place : Nat) (flip : WordFlip) (d : Dev) : Dev :=
  let out := wordFinding flip
  let d := match (if out = .uncorrectable then (d.tier.tags.at h)[place]? else none) with
    | some s => foldN 8 (fun j (d : Dev) => d.noteRead false (Config.tagPlace s + j)) d
    | none => d
  d.arrayError h 2 (place / 16) (place % 16) 0 out

/-- Both copies of word 0 of a directory entry are lost (R255): the entry is freed, DIR_LOST set and a record of severity 3 written. -/
def dirLost (line : Nat) (d : Dev) : Dev :=
  let h := d.lineHalf line
  ((d.freeDir line).cause (Reg.ras h) 4).log h { type := 0x1D, sev := 3, block := blockOf Reg.coh, addr := d.fabAddr (line * 64) }

/-- The sharers of a directory entry are lost (R255): in S the entry becomes coarse with every group; in M the line is poisoned, and no owner is
recorded any more. -/
def sharersLost (line : Nat) (ent : DirEnt) (d : Dev) : Dev :=
  if ent.modified then
    match d.extAt (line * 64) with
    | some (_, e) => ((d.poisonWrite e (line * 64)).freeDir line)
    | none => d.freeDir line
  else d.setDir line { ent with coarse := true, sharers := [], groups := ~~~0#64 }

/-- A directory entry (R255): word 0 is held twice, word 1 once; then the ways of hard-faulted places are disabled (R254), and the entry in such a
way is back-invalidated first. -/
def dirError (line : LineNo) (way : Nat) (first second sharers : WordFlip) (d : Dev) : Dev :=
  match d.dirEnt line.toNat with
  | none => d
  | some ent =>
    let h := d.lineHalf line.toNat
    let set := (Config.dirSet line).toNat
    let a := wordFinding first
    let b := wordFinding second
    let w := wordFinding sharers
    let d := if a = .uncorrectable ∧ b = .uncorrectable then d.dirLost line.toNat
      else if w = .uncorrectable then d.sharersLost line.toNat ent
      else d
    let n := (d.ras.at h).waysOff.length
    let d := ((d.arrayError h 0 set way 0 a).arrayError h 0 set way 1 b).arrayError h 0 set way 2 w
    if (d.ras.at h).waysOff.length = n then d else d.clearDirWay line.toNat

/-- Data that the word code protects is read (R235 to R240, R242, R250, R254, R255). -/
def readSite (s : ReadSite) (d : Dev) : Dev :=
  match s with
  | .dram c a flips reader => d.dramData c.val a flips reader
  | .readData line flips => d.meshError line false flips
  | .writeData line flips => d.meshError line true flips
  | .core c _ flip => d.coreError c.val flip
  | .micro c place flip => d.microError c.val place.val flip
  | .shared h set way flip => d.sharedError h set way.val flip
  | .tags h place flip => d.tagError h place.val flip
  | .dir line way a b w => d.dirError line way.val a b w

end Dev

/-- DRAM_READ_DATA. -/
def execDramReadData (site : ReadSite) (s : State) : Host.Outcome State Fault Refusal := next (s.onDev (Dev.readSite site))

end Sys2Proof.Machine
end

