-- ==== Sys2Proof/Machine/Dawn.lean ====
section
/-! DEFINITION. Supplies, resets and the Dawn sequence (R227, R485, R489, R564 to R586), thermal trip (R625) and optical calibration (R596). -/

namespace Sys2Proof.Machine

/-- Whether the image that a manifest describes verifies against the fuses (R489). -/
def imageOk (f : Fuses) (m : Config.Manifest) : Bool :=
  m.signed && (f.ownerHash == 0 || (m.ownerKey == f.ownerHash && m.ownerSigned)) && m.control == m.controlCode && m.core == m.coreCode
    && decide (f.svn ≤ m.svn) && decide (m.svn ≤ 64)

/-- The image in the store, if it verifies (R489). -/
def State.imageInfo (s : State) : Option Config.Manifest := (Config.manifest s.nv.image.erased s.nv.image.cells).filter (imageOk s.nv.fuses)

namespace Dev

/-- Change the record of the Dawn sequence. -/
def modDawn (f : Dawn → Dawn) (d : Dev) : Dev := { d with dawn := f d.dawn }

/-! ### Resets (R18, R565 to R569) -/

/-- A cold reset (R565): everything, with the supplies and inputs as they now stand. -/
def cold (f : Dawn → Dawn) (d : Dev) : Dev :=
  let w := f d.dawn
  { Dev.reset with
    now := d.now, draws := d.draws, out := d.out, straps := d.straps, gtc := ⟨0, w.refGood, 0⟩,
    dawn := { Dawn.reset with auxGood := w.auxGood, crystal := w.crystal, mainGood := w.mainGood, mainSeen := w.mainSeen, refGood := w.refGood, convBad := w.convBad,
                              perstHigh := w.perstHigh } }

/-- Whether a warm reset keeps a register (R15, R569): sticky and RWO fields, the SBM page, what belongs to DDR training, and the marked devices, whose
marking lasts until a cold reset (R244). -/
def keptReg (a : Nat) : Bool :=
  let off := a % 4096
  let page := a / 4096
  page == Reg.sbm || (blkId page).isSome && (off == 0x018 || off == 0x030) || a == 0x100 || a == 0xD104
    || (decide (0x200 ≤ page ∧ page < 0x218) && (off == 0x100 || off == 0x110))
    || ((page == Reg.ras .west || page == Reg.ras .east) && decide (0x240 ≤ off ∧ off < 0x270))

/-- Draw a port's EPOCH (R430). -/
def drawEpochs (d : Dev) : Dev :=
  foldN 24 (fun p d =>
    let (i, d) := d.draw
    let e := Config.drawEpoch i
    d.modPort p fun x => { x with epoch := if e = 0 then 1 else e }) d

/-- The Dawn sequence starts at ROM (R565, R567, R575). -/
def dawnStart (warm : Bool) (d : Dev) : Dev :=
  ((d.modDawn fun w => { w with running := true, step := .rom, startAt := d.now, stepAt := d.now, warm := warm, full := false, waves := 0,
                                failedCh := false, testBad := [], rounds := [], mapped := false, resetAt := none }).unalert 2).drawEpochs

/-- What a warm reset keeps of a DDR channel: the DIMM, its training and its refresh, with the commands that a recovery has still to replay (R216,
R569), and what lasts until a cold reset (R244, R258). The reads that waited are gone; the scrubber starts anew. -/
def warmChan (now : Nat) (x : DdrChan) : DdrChan :=
  { chanReset with dimm := x.dimm, ranks := x.ranks, results := x.results, mr4At := x.mr4At, marks := x.marks.map fun m => (m.1, { m.2 with count := 0 }),
                   retRows := x.retRows, retBanks := x.retBanks, retry := x.retry, alerts := x.alerts, recover := x.recover, window := x.window,
                   reopen := x.reopen, retrained := x.retrained, lapStart := now,
                   banks := x.banks.filterMap fun b => let y := { b.2 with acts := [], floor := 0, nbr := [] }; if y = bankReset then none else some (b.1, y) }

/-- The registers after a warm reset: those that it keeps, CH_STS without PANIC, since the latency ports are empty (R210). -/
def warmRegs (l : Tbl Word32) : Tbl Word32 :=
  (l.filter fun r => keptReg r.1).map fun r =>
    if 0x200 ≤ r.1 / 4096 ∧ r.1 / 4096 < 0x218 ∧ r.1 % 4096 = 0x100 then (r.1, r.2 &&& ~~~0x20#32) else r

/-- What an island keeps of a firmware update when the halves are reset or lose power (R569, R649): a PLDM update goes on, with the store if it
holds it. -/
def islandFw (f : Fw) : Fw :=
  let own := f.holder == some .pldm
  { Fw.reset with pldm := f.pldm, holder := if own then f.holder else none, store := if own then f.store else Fw.reset.store, back := f.back,
                  offset := f.offset, verified := f.verified }

/-- What a warm reset keeps of an error log (R569). -/
def warmLog (x : RasHalf) : RasHalf := { RasHalf.reset with log := x.log, nextSeq := x.nextSeq }

/-- The dead hosts, which only CLEAR_DEAD or a cold reset returns to normal (R153); nothing they held is left to sweep. -/
def deadHosts (l : Tbl HostRec) : Tbl HostRec :=
  (l.filter fun h => h.2.state == .dead).map fun h => (h.1, { h.2 with swept := ⟨true, true⟩, serving := ⟨false, false⟩ })

/-- A warm reset (R566, R569): the state of the first table stays, with what the manual counts from a cold reset (R491, R507, R517, R619,
R627), and a warm Dawn sequence starts. -/
def warm (d : Dev) : Dev :=
  let d := foldN 24 (fun p d => if (d.port p).state = .off then d else d.discardSeq p) d
  ({ Dev.reset with
    now := d.now, draws := d.draws, out := d.out, straps := d.straps
    regs := { words := warmRegs d.regs.words, ctrs := d.regs.ctrs, latch := [], held := [] }
    ras := ⟨warmLog d.ras.west, warmLog d.ras.east⟩
    coh := { Coh.reset with hosts := deadHosts d.coh.hosts }
    tier := { Tier.reset with rows := d.tier.rows, pinRows := d.tier.rows - d.tier.rows / 2048 }
    ddr := d.ddr.map fun (x : Nat × DdrChan) => (x.1, warmChan d.now x.2)
    sec := { Sec.reset with log := d.sec.log, nextSeq := d.sec.nextSeq, dbgLive := d.sec.dbgLive, dbgUsed := d.sec.dbgUsed, reports := d.sec.reports,
                            tg := d.sec.tg }
    gtc := d.gtc, side := d.side
    pwr := { Pwr.reset with pseq := d.pwr.pseq, offsets := d.pwr.offsets, offsetsOk := d.pwr.offsetsOk, points := d.pwr.points, doms := d.pwr.doms.map fun (x : Nat × Domain) => (x.1, { domReset x.1 with comp := x.2.comp, fabmgr := x.2.fabmgr, at_ := d.now }) }
    ctl := { Ctl.reset with faultAt := d.ctl.faultAt, taken := d.ctl.taken }
    fw := islandFw d.fw, dawn := { d.dawn with lastMs := 0 } }).dawnStart true

/-- What is lost when the halves lose power and the islands go on (R625). -/
def halvesOff (d : Dev) : Dev :=
  { Dev.reset with
    now := d.now, draws := d.draws, out := d.out, straps := d.straps, gtc := d.gtc, side := d.side, fw := islandFw d.fw
    regs := { words := d.regs.words.filter fun r => r.1 / 4096 == Reg.sbm, ctrs := d.regs.ctrs.filter fun r => r.1 / 4096 == Reg.sbm,
              latch := [], held := [] }
    dawn := { d.dawn with powered := false, running := false, step := .rom } }

/-! ### Steps of the Dawn sequence (R570) -/

/-- Whether the sequence runs and stands at a step. -/
def atStep (d : Dev) (x : DawnStep) : Bool := d.dawn.running && d.dawn.step == x

/-- The next step starts. -/
def toStep (x : DawnStep) (d : Dev) : Dev := d.modDawn fun w => { w with step := x, stepAt := d.now }

/-- The companion link starts training, if it is off (R633). -/
def trainLink (d : Dev) : Dev :=
  if d.fld 0xD100 2 0 = 0 ∧ (d.dom 76).state = .on then ({ d with cmp := { d.cmp with trainAt := d.now } }).setFld 0xD100 2 0 1 else d

/-- Dawn hold (R574, R651): the halves lose power but for the companion link and the path to the store. A FAILED channel stays so. -/
def enterHold (d : Dev) : Dev :=
  let d := d.modDawn fun w => { w with running := false, powered := false }
  let d := foldN 24 (fun c d => if d.fld (ddrA c + 0x100) 1 0 = 2 then d else (d.setReg (ddrA c + 0x100) 0).setChan c chanReset) d
  ((d.toStep .hold).alert 2).trainLink

/-- STOPPED (R582, R584, R651). -/
def stop (d : Dev) : Dev := (((d.modDawn fun w => { w with running := false })).toStep .stopped).alert 2

/-- The image failed (R489, R573): a SECURITY_EVENT, and Dawn hold. STORE is INVALID (R595), unless a PLDM update receives one. -/
def imageFail (d : Dev) : Dev :=
  let d := { d with fw := { d.fw with store := if d.fw.store = StoreState.receiving then StoreState.receiving else StoreState.invalid } }
  (d.secLog 9 1 { type := 0, sev := 1, block := 0 }).enterHold

/-- ROM_STEP (R485, R487, R488): the boot ROM is measured, the identity key derived and the certificate chain checked. -/
def romStep (rom chain : Digest) (d : Dev) : Dev :=
  if !d.atStep .rom then d
  else
    let ok := chain == Config.chainDigest
    let d := d.modSec fun x => { x with
      measure := Tbl.put 1 rom x.measure, chainOk := ok, idScalar := identityScalar Config.uds, idPublic := publicKey (identityScalar Config.uds) }
    (if ok then d else d.secLog 10 1 { type := 0, sev := 1, block := 0 }).toStep .verify

/-- The step after VERIFY: POWER, or, where the halves are powered, ARRAYS (R566). -/
def verified (m : Config.Manifest) (d : Dev) : Dev :=
  let d := { d with fw := { islandFw d.fw with storeSvn := m.svn, runSvn := m.svn } }
  let d := d.modSec fun x => { x with measure := Tbl.put 3 m.coreCode (Tbl.put 2 m.controlCode x.measure) }
  if d.dawn.powered then d.trainLink.toStep .arrays else d.toStep .power

/-- POWER_STEP (R573). -/
def powerStep (west east : Digest) (d : Dev) : Dev :=
  if !d.atStep .power then d
  else
    let want := Tbl.get 0 d.sec.measure 2
    if west = want ∧ east = want then ((d.modDawn fun w => { w with powered := true }).trainLink).toStep .arrays else d.imageFail

/-- A fault of a device array that the spares do not cover disables its way (R254, R576). -/
def wayOff (f : ArrayFault) (d : Dev) : Dev := if f.repairable then d else d.disableWay f.half f.array f.set f.way

end Dev

/-- The offsets, the latencies and the flags of the calibration store (R375, R592, R617, R622); offsets that an accepted THERM_POINT has set stay (R627). -/
def State.loadCalibration (s : State) : State :=
  let (offs, therm) : List Int × Nat := match s.nv.thermal with | .absent => ([], 1) | .factory => (Config.factoryThermal, 0) | .saved l => (l, 0)
  let psense : Nat := match s.nv.psense with | .absent => 1 | _ => 0
  let optical : Bool := s.nv.optical != .absent
  s.onDev fun d => ((({ d with cal := { d.cal with latencies := optical } }.modPwr fun p => { p with offsets := if p.offsetsOk then p.offsets else offs }).setFld 0x2134 16 16 therm).setFld 0x2114 18 18 psense).setDegraded

/-- IMAGE_VERIFY (R489, R572). -/
def State.imageVerify (s : State) : State :=
  if !s.dev.atStep .verify then s
  else match s.imageInfo with
    | some m => s.onDev (Dev.verified m)
    | none => s.onDev Dev.imageFail

/-- ARRAYS_STEP (R576). -/
def State.arraysStep (faults : List ArrayFault) (s : State) : State :=
  if !s.dev.atStep .arrays then s
  else s.loadCalibration.onDev fun d => (faults.foldl (fun d f => d.wayOff f) d).toStep .selftest

namespace Dev

/-- The DIMMs that are larger than N, of which only the first N rows are used, are logged once in a Dawn sequence (R202): one record, for the lowest of
their channels. -/
def logMismatch (d : Dev) : Dev :=
  match (List.range 24).find? fun c => (d.chan c).dimm.any fun x => decide (dimmRows x > d.tier.rows) with
  | some c => d.logChan c 2 c 4
  | none => d

/-- Whether any channel has still to train (R566). -/
def untrained (d : Dev) : Bool := (List.range 24).any fun c => d.fld (ddrA c + 0x100) 1 0 == 0

/-- SELFTEST_WAVE (R577, R578): wave k covers clusters 4k to 4k + 3; a core that the fuses mark bad is not tested. -/
def selftestWave (failed : List CoreFailure) (d : Dev) : Dev :=
  if !d.atStep .selftest then d
  else
    let k := d.dawn.waves
    let d := (List.finRange 576).foldl (fun d c =>
      if c.val / 64 ≠ k ∨ Config.fuseBadCore c then d
      else match failed.find? fun f => f.core == c with
        | some f =>
          (d.modDawn fun w => { w with testBad := w.testBad ++ [c.val] }).log (halfOfCore c.val)
            { type := 0x14, sev := 1, block := blockOf (Reg.nmc (c.val / 16)),
              detail := [(40, 2, c.val), (42, 1, c.val / 16), (43, 1, k), (44, 1, f.part.val + 1)] }
        | none => d.setCore c.val { coreReset with found := true }) d
    let d := d.modDawn fun w => { w with waves := k + 1 }
    if k + 1 < 9 then d else if d.untrained then d.toStep .ddr else d.logMismatch.toStep .fill

/-- A channel does not train (R203). -/
def trainFail (c why : Nat) (d : Dev) : Dev := (d.modDawn fun w => { w with failedCh := true }).logChan c 2 c why

/-- A channel trains (R223, R227): with the stored results when `fast` gives them and they pass the margin test, in full otherwise. WIN is the alert
latency plus 4 DDR clocks, and a DIMM for which that is not shorter than its read latency fails; DEDUCED (log 75). -/
def trainChan (c : Nat) (fast : Option (List Byte)) (r : Option TrainResult) (d : Dev) : Dev :=
  match r with
  | none => d.trainFail c 1
  | some r =>
    let x := r.dimm
    if r.dimms = 0 then d.trainFail c 1
    else if r.dimms ≠ 1 ∨ !dimmSupported x then d.trainFail c 2
    else
      let fast := if r.margin then fast else none
      let win := x.alertLat.toNat + 4
      let rank : Rank := { rankReset with dueAt := d.now + 3900, windowAt := d.now + 32000000, calAt := d.now, trackAt := d.now }
      let d := d.setChan c { chanReset with
        dimm := some x, results := fast.getD r.results, lapStart := d.now, mr4At := d.now + 4000000
        ranks := (List.range x.ranks).map fun i => (i, rank) }
      let d := if fast.isNone then d.modDawn fun w => { w with full := true } else d
      if !r.passed ∨ x.readLat.toNat ≤ win then d.trainFail c 3
      else (d.setReg (ddrA c + 0x100) (BitVec.ofNat 32 (1 + (if x.ranks = 4 then 4 else 0) + (if x.density = 32 then 8 else 0)))).setReg (ddrA c + 0x110)
        (BitVec.ofNat 32 win)

end Dev

/-- DDR_TRAINING (R202, R203, R227). The stored results are used only when they belong to the DIMMs of all channels; a channel that is FAILED
stays so until a cold reset (R224). -/
def State.ddrTraining (results : List TrainResult) (s : State) : State :=
  if !s.dev.atStep .ddr then s
  else s.onDev fun d =>
    let res (c : Nat) : Option TrainResult := results.find? fun r => r.ch.val == c
    let known (c : Nat) : Bool := match Tbl.find s.nv.training c, res c with | some t, some r => t.1 == r.dimm.serial | _, _ => false
    let all := (List.range 24).all known
    let d := foldN 24 (fun c d =>
      if d.chanFailed c then d.trainFail c 7
      else d.trainChan c (if all then (Tbl.find s.nv.training c).map (·.2) else none) (res c)) d
    let rows := (List.range 24).filterMap fun c => (d.chan c).dimm.map dimmRows
    let n := rows.foldl min (rows.headD 0)
    (({ d with tier := { d.tier with rows := n, pinRows := n - n / 2048 } } : Dev).logMismatch).toStep .fill

namespace Dev

/-- The mandatory fill (R246, R568): DRAM, SRAM and accumulators hold zeros, and every directory entry, translation, tag, table entry and thatch map
entry is invalid, unused or 0. -/
def fillMemory (d : Dev) : Dev :=
  { d with
    mem := Dev.reset.mem
    coh := { d.coh with dir := [], exts := [], hsets := [] }
    xlt := { d.xlt with micro := [], shared := ⟨[], []⟩ }
    tier := { d.tier with frames := [], map := [], tags := ⟨[], []⟩ }
    fab := { d.fab with routes := [], trees := [], circuits := [] }
    opq := { d.opq with refill := [] } }

/-- FILL_STEP (R246, R568, R582): everything is filled; a channel that fails R203 stops the sequence. -/
def fillStep (d : Dev) : Dev :=
  if !d.atStep .fill then d
  else if d.dawn.failedCh ∨ (List.range 24).any (fun c => d.fld (ddrA c + 0x100) 1 0 != 1) then d.stop
  else d.fillMemory.toStep .handover

/-- REPAIR_ROUND_END (R583): a core that has failed 3 rounds is fenced. -/
def repairRound (failed : List Nat) (d : Dev) : Dev :=
  if !d.atStep .fill then d
  else failed.foldl (fun d c =>
    if !(d.core c).found ∨ (d.core c).fenced then d
    else
      let n := Tbl.get 0 d.dawn.rounds c + 1
      let d := d.modDawn fun w => { w with rounds := Tbl.put c n w.rounds }
      if n < 3 then d
      else (d.setCore c { d.core c with fenced := true }).log (halfOfCore c) { type := 0x19, sev := 2, block := blockOf (Reg.nmc (c / 16)) }) d

/-- The logical-to-physical core map (R579). -/
def coreMap (d : Dev) : Tbl Nat :=
  let good (lo n : Nat) : List Nat := ((List.range n).map (lo + ·)).filter fun c => (d.core c).found && !(d.core c).fenced
  let gw := good 0 288
  let ge := good 288 288
  let l := min 512 (gw.length + ge.length)
  let lw := min gw.length (max 256 (l - ge.length))
  ((gw.take lw ++ ge.take (l - lw)).zipIdx).map fun x => (x.2, x.1)

/-- HANDOVER (R579, R580, R584): the core map; then the strap half claims, or, in ridge-fault mode, becomes ACTIVE without the line. -/
def handover (d : Dev) : Dev :=
  if !d.atStep .handover then d
  else
    let map := d.coreMap
    let d := ({ d with lmap := map }).setFld 0x104 9 0 map.length
    let d := map.foldl (fun d x => d.setCore x.2 { d.core x.2 with beatAt := d.now }) (d.modDawn fun w => { w with mapped := true })
    if d.ctl.faultAt.isSome then
      (if (d.cplx d.strapHalf).role = .standby then ((d.modCtl fun c => { c with taken := true }).activate d.strapHalf false).enterService else d)
    else d.claim d.strapHalf

/-- HANDOVER_TIMEOUT (R584). -/
def handoverTimeout (d : Dev) : Dev :=
  if !d.atStep .handover ∨ d.now < d.dawn.stepAt + 1000000000 ∨ d.orders then d else d.stop.logFirmware d.strapHalf Reg.glb

/-- DAWN_SEQUENCE_START (R565, R570, R689). -/
def dawnBegin (d : Dev) : Dev :=
  let w := d.dawn
  if w.perstHigh ∧ w.islandsRun ∧ w.mainGood ∧ w.refGood ∧ !w.tripped ∧ !w.running ∧ w.step = .rom then d.dawnStart false else d

/-- THERMAL_TRIP (R625): the reading is in 0.25 °C. -/
def thermalTrip (sensor : Nat) (reading : Int) (d : Dev) : Dev :=
  if !d.dawn.powered ∨ 25 * reading < (if sensor < 40 then 11500 else 9500) then d
  else ((d.halvesOff).modDawn fun w => { w with tripped := true }).logPower (sensorHalf sensor) 3

/-! ### Optical calibration (R593, R596) -/

/-- A command of GLB.CAL_CMD (R596, R674): before SERVICE it completes STATE_CONFLICT. -/
def calCmd (f : Dev → Option Status × Dev) (d : Dev) : Dev :=
  if d.busy 0x18C then d.illegal Reg.glb
  else if d.dawn.step ≠ .service then (d.cmdBegin 0x18C).cmdEnd Reg.glb 0x18C 2 .stateConflict
  else
    match f (d.cmdBegin 0x18C) with
    | (some st, d) => d.cmdEnd Reg.glb 0x18C 2 st
    | (none, d) => d

/-- OPT_RECAL (R596). -/
def optRecal (e : Nat) (d : Dev) : Option Status × Dev :=
  if (List.range 6).any fun i => d.fld (fabA (6 * e + i) + 0x100) 0 0 == 1 then (some .stateConflict, d)
  else (none, { d with cal := { d.cal with recal := some (e, d.now) } })

/-- OPT_RECAL_DONE (R596). -/
def optRecalDone (d : Dev) : Dev :=
  if d.cal.recal.isSome then ({ d with cal := { d.cal with recal := none } }).cmdEnd Reg.glb 0x18C 2 .ok else d

end Dev

/-- OPT_SAVE (R593, R596). -/
def State.optSave (s : State) : State :=
  if s.dev.busy 0x18C ∨ s.dev.dawn.step ≠ .service then s.onDev (Dev.calCmd fun d => (some .ok, d))
  else { s with nv := { s.nv with optical := .saved () }, dev := s.dev.calCmd fun d => (some .ok, d) }

/-! ### Meanings -/

/-- PERST_N_ASSERT (R565). -/
def execPerstNAssert (s : State) : Host.Outcome State Fault Refusal := next (s.onDev (Dev.cold fun w => { w with perstHigh := false }))
/-- PERST_N_RELEASE (R565, R691). -/
def execPerstNRelease (x : Straps) (s : State) : Host.Outcome State Fault Refusal :=
  next (s.onDev fun d => ({ d with straps := if d.dawn.auxGood ∧ !d.dawn.perstHigh then x else d.straps }).modDawn fun w => { w with perstHigh := true })
/-- AUX_RAIL_GOOD (R687, R691), with whether the crystal works (R689). -/
def execAuxRailGood (x : Straps) (crystal : Bool) (s : State) : Host.Outcome State Fault Refusal :=
  next (s.onDev fun d => ({ d with straps := if d.dawn.auxGood then d.straps else x }).modDawn fun w =>
    { w with auxGood := true, crystal := crystal || (w.auxGood && w.crystal) })
/-- AUX_RAIL_LOSS (R565, R687). -/
def execAuxRailLoss (s : State) : Host.Outcome State Fault Refusal :=
  next (s.onDev (Dev.cold fun w => { w with auxGood := false, crystal := false, refGood := false }))
/-- MAIN_INPUT_GOOD (R564, R650). -/
def execMainInputGood (s : State) : Host.Outcome State Fault Refusal :=
  next (s.onDev (Dev.modDawn fun w => { w with mainGood := true, mainSeen := true, convBad := false }))
/-- MAIN_INPUT_LOSS (R565, R687). -/
def execMainInputLoss (s : State) : Host.Outcome State Fault Refusal := next (s.onDev (Dev.cold fun w => { w with mainGood := false }))
/-- CONVERTER_FAULT (R650). -/
def execConverterFault (s : State) : Host.Outcome State Fault Refusal := next (s.onDev (Dev.modDawn fun w => { w with convBad := true }))
/-- REFERENCE_STABLE (R370, R688). -/
def execReferenceStable (s : State) : Host.Outcome State Fault Refusal :=
  next (s.onDev fun d => ({ d with gtc := { d.gtc with running := true } }).modDawn fun w => { w with refGood := true })
/-- DEVICE_RESET_COMMAND (R672, R674). -/
def execDeviceResetCommand (path : Path) (v : Word32) (s : State) : Host.Outcome State Fault Refusal :=
  next (s.onDev (Dev.accept path Reg.glb 0x11C fun d =>
    if v = 0x5741524D then d.modDawn fun w => { w with resetAt := some d.now } else d.illegal Reg.glb))
/-- WARM_RESET (R566, R569): one that GLB.RESET has scheduled. -/
def execWarmReset (s : State) : Host.Outcome State Fault Refusal := next (s.onDev fun d => if d.dawn.resetAt.isSome then d.warm else d)
/-- ACTIVATION_COUNT_REACHED (R590). -/
def execActivationCountReached (s : State) : Host.Outcome State Fault Refusal :=
  next (s.onDev fun d => if d.fw.store = .pending ∧ d.fw.act ≠ 0 ∧ d.fw.act.toNat ≤ d.gtc.count.toNat then d.warm else d)
/-- DAWN_SEQUENCE_START (R565, R570). -/
def execDawnSequenceStart (s : State) : Host.Outcome State Fault Refusal := next (s.onDev Dev.dawnBegin)
/-- ROM_STEP (R485). -/
def execRomStep (rom chain : Digest) (s : State) : Host.Outcome State Fault Refusal := next (s.onDev (Dev.romStep rom chain))
/-- IMAGE_VERIFY (R572). -/
def execImageVerify (s : State) : Host.Outcome State Fault Refusal := next s.imageVerify
/-- POWER_STEP (R573). -/
def execPowerStep (west east : Digest) (s : State) : Host.Outcome State Fault Refusal := next (s.onDev (Dev.powerStep west east))
/-- ARRAYS_STEP (R576). -/
def execArraysStep (f : List ArrayFault) (s : State) : Host.Outcome State Fault Refusal := next (s.arraysStep f)
/-- SELFTEST_WAVE (R577). -/
def execSelftestWave (f : List CoreFailure) (s : State) : Host.Outcome State Fault Refusal := next (s.onDev (Dev.selftestWave f))
/-- DDR_TRAINING (R227). -/
def execDdrTraining (r : List TrainResult) (s : State) : Host.Outcome State Fault Refusal := next (s.ddrTraining r)
/-- FILL_STEP (R582). -/
def execFillStep (s : State) : Host.Outcome State Fault Refusal := next (s.onDev Dev.fillStep)
/-- REPAIR_ROUND_END (R583). -/
def execRepairRoundEnd (f : List Nat) (s : State) : Host.Outcome State Fault Refusal := next (s.onDev (Dev.repairRound f))
/-- HANDOVER (R584). -/
def execHandover (s : State) : Host.Outcome State Fault Refusal := next (s.onDev Dev.handover)
/-- HANDOVER_TIMEOUT (R584). -/
def execHandoverTimeout (s : State) : Host.Outcome State Fault Refusal := next (s.onDev Dev.handoverTimeout)
/-- THERMAL_TRIP (R625). -/
def execThermalTrip (sensor : Fin 44) (r : Int) (s : State) : Host.Outcome State Fault Refusal := next (s.onDev (Dev.thermalTrip sensor.val r))
/-- CAL_NOP (R596). -/
def execCalNop (s : State) : Host.Outcome State Fault Refusal := next (s.onDev (Dev.calCmd fun d => (some .ok, d)))
/-- OPT_RECAL (R596). -/
def execOptRecal (e : Fin 4) (s : State) : Host.Outcome State Fault Refusal := next (s.onDev (Dev.calCmd (Dev.optRecal e.val)))
/-- OPT_RECAL_DONE (R596). -/
def execOptRecalDone (s : State) : Host.Outcome State Fault Refusal := next (s.onDev Dev.optRecalDone)
/-- OPT_SAVE (R596). -/
def execOptSave (s : State) : Host.Outcome State Fault Refusal := next s.optSave

end Sys2Proof.Machine
end

