-- ==== Sys2Proof/Machine/Comp.lean ====
section
/-! DEFINITION. The companion link (R632 to R640), the module store as the companion loads it (R653, R655), and the distribution of an image
over a rafter tree (R587 to R590). -/

namespace Sys2Proof.Machine

namespace Dev

/-! ### The link layer (R633, R636, R640) -/

/-- CMP.LINK_STS.STATE (R654). -/
def linkState (d : Dev) : Nat := d.fld 0xD100 2 0

/-- Change the record of the companion link. -/
def modCmp (f : Cmp → Cmp) (d : Dev) : Dev := { d with cmp := f d.cmp }

/-- COMPANION_RETRAIN (R633): a loss of lock, or 8 consecutive replays. -/
def companionRetrain (loss : Bool) (d : Dev) : Dev :=
  if d.linkState = 2 ∧ (loss ∨ d.cmp.replays ≥ 8) then
    ((d.modCmp fun c => { c with retrainAt := d.now, activeAt := d.now, replays := 0 }).setFld 0xD100 2 0 3).bump Reg.cmp 0x048 1
  else d

/-- Every pending vector that is not masked is sent once (R550, R640). -/
def sendPending (d : Dev) : Dev :=
  d.irq.vectors.foldl (fun d x => if x.2.pend && !x.2.mask && d.msiMayLeave then d.sendVec x.1 else d) d

/-- COMPANION_LINK_ACTIVE (R633, R636, R640): the held packets leave in order, then the held snoops, then the pending vectors. -/
def companionActive (d : Dev) : Dev :=
  if d.linkState ≠ 1 ∧ d.linkState ≠ 3 then d
  else
    let out := d.cmp.heldOut
    let fresh := d.linkState == 1
    let d := (d.modCmp fun c => { c with heldOut := [], everActive := true, replays := 0, activeAt := d.now,
                                         rxSeq := if fresh then 0 else c.rxSeq, ackSeq := if fresh then 0 else c.ackSeq }).setFld 0xD100 2 0 2
    (out.foldl (fun d x => d.emit (.companion x.1 x.2)) d).releaseHeld.sendPending

/-- COMPANION_LINK_DOWN (R633): training failed; everything held is discarded. -/
def companionDown (d : Dev) : Dev :=
  if d.linkState = 1 ∨ d.linkState = 3 then (d.linkOff 4).modCmp fun c => { c with trainAt := d.now } else d

/-- COMPANION_TRAIN_RETRY (R633): a DOWN link trains again every 100 ms. -/
def companionRetry (d : Dev) : Dev :=
  if d.linkState = 4 ∧ d.cmp.trainAt + 100000000 ≤ d.now ∧ (d.dom 76).state = .on then
    (d.modCmp fun c => { c with trainAt := d.now }).setFld 0xD100 2 0 1
  else d

/-! ### The module store (R571, R589, R590, R647, R653) -/

/-- Change the firmware record. -/
def modFw (f : Fw → Fw) (d : Dev) : Dev := { d with fw := f d.fw }

/-- A command of CMP (R68, R655). -/
def cmpCmd (f : Dev → Option Status × Dev) (d : Dev) : Dev :=
  if d.busy 0xD10C then d.illegal Reg.cmp
  else
    match f (d.cmdBegin 0xD10C) with
    | (some st, d) => d.cmdEnd Reg.cmp 0xD10C 1 st
    | (none, d) => d

/-- CMP.DATA0 to DATA7. -/
def cmpData (d : Dev) : Nat := d.data 0xD120 8

/-- Image bytes of one block of IMG_BUF (R653, R660). -/
def imgBuf (d : Dev) : List Byte := (List.range 1024).flatMap fun i => leBytes 4 (d.reg (0xE000 + 4 * i)).toNat

end Dev

/-- Write bytes into the image region (R571): 15 MiB. -/
def Image.put (m : Image) (at_ : Nat) (l : List Byte) : Image :=
  { m with cells := l.zipIdx.foldl (fun t x => if at_ + x.2 < 0xF00000 then Tbl.put (at_ + x.2) x.1 t else t) m.cells }

/-- Change the image region. -/
def State.modImage (f : Image → Image) (s : State) : State := { s with nv := { s.nv with image := f s.nv.image } }

/-- The image region is erased, and a path begins to fill it. -/
def State.eraseImage (s : State) : State := s.modImage fun _ => ⟨true, []⟩

/-- The image in the store is complete (R589, R590, R653): STORE becomes PENDING or INVALID. An image whose check ends after its activation
count waits for the next reset. -/
def State.checkImage (act : Word64) (s : State) : State :=
  s.onDev fun d =>
    match s.imageInfo with
    | some m =>
      let late := act ≠ 0 ∧ act.toNat < d.gtc.count.toNat
      let d := d.modFw fun f => { f with store := .pending, storeSvn := m.svn, act := if late then 0 else act, holder := none, rx := none, erasing := false }
      if late then d.logFirmware d.strapHalf Reg.glb else d
    | none => d.modFw fun f => { f with store := .invalid, act := 0, holder := none, rx := none, erasing := false }

/-- IMG_BEGIN (R653, R655). -/
def State.imgBegin (s : State) : State :=
  if s.dev.busy 0xD10C then s.onDev (Dev.illegal Reg.cmp)
  else if s.dev.fw.holder = some .pldm ∨ s.dev.fw.holder = some .fabric then s.onDev (Dev.cmpCmd fun d => (some .stateConflict, d))
  else
    s.eraseImage.onDev (Dev.cmpCmd fun d =>
      (none, d.modFw fun f => { f with store := .receiving, holder := some .companion, erasing := true }))

/-- IMG_ERASE_DONE (R653). -/
def Dev.imgErased (d : Dev) : Dev :=
  if d.fw.erasing ∧ d.fw.holder = some .companion then (d.modFw fun f => { f with erasing := false }).cmdEnd Reg.cmp 0xD10C 1 .ok else d

/-- IMG_WRITE (R653, R655). -/
def State.imgWrite (s : State) : State :=
  let n := (s.dev.reg 0xD120).toNat
  if s.dev.busy 0xD10C then s.onDev (Dev.illegal Reg.cmp)
  else if n > 3839 then s.onDev (Dev.cmpCmd fun d => (some .malformed, d))
  else if s.dev.fw.holder ≠ some .companion then s.onDev (Dev.cmpCmd fun d => (some .stateConflict, d))
  else (s.modImage fun m => m.put (n * 4096) s.dev.imgBuf).onDev (Dev.cmpCmd fun d => (some .ok, d))

/-- A new image stands in the image region: in Dawn hold the sequence starts again (R575). -/
def Dev.afterImage (d : Dev) : Dev := if d.dawn.step = .hold then d.dawnStart false else d

/-- IMG_END (R653, R655). -/
def State.imgEnd (s : State) : State :=
  if s.dev.busy 0xD10C then s.onDev (Dev.illegal Reg.cmp)
  else if s.dev.fw.holder ≠ some .companion then s.onDev (Dev.cmpCmd fun d => (some .stateConflict, d))
  else
    let s := s.checkImage (BitVec.ofNat 64 (bits s.dev.cmpData 127 64))
    let st : Status := if s.dev.fw.store = .invalid then .malformed else .ok
    s.onDev fun d => (d.cmpCmd fun d => (some st, d)).afterImage

namespace Dev

/-! ### Distribution (R587 to R589) -/

/-- A line of a pinned extent. -/
def stagedOff (e : Ext) (i : Nat) : Nat := e.first + 64 * i

/-- The lines of the staged image: as many of the extent as the image region holds (R571). -/
def stagedLines (e : Ext) : Nat := min e.size 0xF00000 / 64

/-- The staged image as its home agents read it (R29): none when a line gives no data. -/
def staged (d : Dev) (e : Ext) : Option (List Byte) :=
  ((List.range (stagedLines e)).mapM fun i => match d.readPool e (stagedOff e i) with | some (.data x) => some (lineBytes x) | _ => none).map
    List.flatten

/-- Whether a line belongs to the staged image. -/
def stagedLine (e : Ext) (line : Nat) : Bool := decide (e.first / 64 ≤ line ∧ line < e.first / 64 + stagedLines e)

/-- Fetch Modified copies of the staged image from the hosts that hold them (R29, R130). -/
def fetchStaged (i : Nat) (e : Ext) (d : Dev) : Dev :=
  (d.coh.dir.filter fun x => x.2.modified && stagedLine e x.1).foldl (fun d x =>
    let hs := d.holders i e x.2 none
    if (d.tx? x.1).isSome then d
    else if hs.isEmpty then d.deadLookup x.1
    else if !d.snoopRoom (d.lineHalf x.1) then d
    else d.beginTx x.1 .recall none (hs.map fun n => d.selfSnoop n .toShared)) d

/-- Whether the staged image can be read: no line of it is Modified at a host or in transition, and no channel holds its reads back (R233). -/
def stagedReady (d : Dev) (e : Ext) : Bool :=
  !(d.coh.dir.any fun x => x.2.modified && stagedLine e x.1) && !(d.coh.tx.any fun x => stagedLine e x.1)
    && !((List.range (stagedLines e)).any fun i => d.readHeld e (stagedOff e i))

/-- The payload of a fragment (R588). -/
def fragPayload (tag index count : Nat) (src act : Word64) (data : List Byte) : List Byte :=
  leBytes 2 2 ++ leBytes 2 tag ++ leBytes 4 index ++ leBytes 4 count ++ leBytes 4 (crc32 data).toNat ++ leBytes 8 src.toNat ++ leBytes 8 act.toNat
    ++ data

/-- Every fragment of an image is sent once, in ascending order (R587, R588). -/
def sendFragments (n tag : Nat) (src act : Word64) (img : List Byte) (d : Dev) : Dev :=
  let count := ceilDiv img.length 4064
  foldN count (fun i d =>
    d.originate n (mkPkt d (BitVec.ofNat 16 n) 0x32 0 0 (fragPayload tag i count src act (sub img (i * 4064) 4064)) 1)) d

/-- IMG_DISTRIBUTE (R29, R587, R655) with DATA words x: the homes read the staged image, which is checked against the fuses and then sent. The command
waits while a host's Modified copy of a line comes back, or a line is in transition. An image of which a line gives no data fails the check. -/
def imgDistribute (fuses : Fuses) (x : Nat) (d : Dev) : Option Status × Dev :=
  let i := bits x 14 0
  let e := d.ext i
  let n := bits x 41 32
  let t := d.tree n
  if d.dawn.step ≠ .service ∨ e.state ≠ .active ∨ e.tiered ∨ !t.valid ∨ t.root ≠ d.nodeId then (some .stateConflict, d)
  else
    let d := d.fetchStaged i e
    if !d.stagedReady e then (none, d.modFw fun f => { f with spread := some x })
    else
      let img := d.staged e
      let d := foldN (stagedLines e) (fun j d => d.didRead false e (stagedOff e j)) d
      let ok := match img.bind fun l => Config.manifest true (l.zipIdx.map fun b => (b.2, b.1)) with | some m => imageOk fuses m | none => false
      match img, ok with
      | some l, true => (some .ok, d.sendFragments n (bits x 63 48) (BitVec.ofNat 64 (d.fabAddr e.first)) (BitVec.ofNat 64 (bits x 127 64)) l)
      | _, _ => (some .malformed, d)

/-- An IMG_DISTRIBUTE that waits goes on when its lines have come (R29). -/
def spreadStep (fuses : Fuses) (d : Dev) : Dev :=
  match d.fw.spread with
  | none => d
  | some x =>
    match (d.modFw fun f => { f with spread := none }).imgDistribute fuses x with
    | (some st, d) => d.cmdEnd Reg.cmp 0xD10C 1 st
    | (none, d) => d

/-- The reads that fetch a fragment from the source (R589): LOAD_SHARED with NC = 1 of the lines that hold it, without a source partition. -/
def fetchFragment (r : Reception) (i : Nat) (d : Dev) : Dev :=
  let node : NodeId := BitVec.ofNat 16 (r.src.toNat / 2 ^ 48)
  let first := r.src.toNat % 2 ^ 48 + i * 4064
  let lo := first / 64
  (List.range ((first + 4063) / 64 - lo + 1)).foldl (fun (d : Dev) j =>
    let tag := d.devTag node
    let d := { d with fab := { d.fab with nextTag := tag.toNat + 1, tagsUsed := d.fab.tagsUsed ++ [(node, tag, d.now + 2 * d.dto + 160000)] } }
    (d.send 0 (mkPkt d node 0x01 tag (requestWord ((lo + j) * 64) 0 false 0) [] 1)).2) d

/-- The fragments that are missing. -/
def missing (r : Reception) : List Nat := (List.range r.count).filter fun i => !r.have_.contains i

/-- The multicast has ended: the missing fragments are fetched (R589). -/
def startRepair (d : Dev) : Dev :=
  match d.fw.rx with
  | none => d
  | some r =>
    if r.repair then d
    else (missing r).foldl (fun d i => d.fetchFragment r i) (d.modFw fun f => { f with rx := some { r with repair := true } })

end Dev

/-- When every fragment is in place the image is checked (R589). -/
def State.receptionStep (s : State) : State :=
  match s.dev.fw.rx with
  | some r => if (Dev.missing r).isEmpty then s.checkImage r.act else s
  | none => s

/-- Whether a fragment is valid: its index and count lie in range and its data pass their check (R588). -/
def fragmentOk (f : Fragment) : Bool :=
  decide (1 ≤ f.count.toNat ∧ f.count.toNat ≤ 3871 ∧ f.index.toNat < f.count.toNat) && crc32 f.data == f.crc
    && (f.data.length == 4064 || (f.index.toNat + 1 == f.count.toNat && decide (1 ≤ f.data.length ∧ f.data.length < 4064)))

/-- FW_FRAG (R589, R647): a fragment with a new TAG starts a reception; while another path holds the store, fragments are discarded. -/
def State.fwFrag (f : Fragment) (s : State) : State :=
  let held := s.dev.fw.holder = some .companion ∨ s.dev.fw.holder = some .pldm
  if !fragmentOk f ∨ held ∨ f.root = s.dev.nodeId ∨ s.dev.dawn.step ≠ .service then s
  else
    let fresh := s.dev.fw.store = .running ∨ f.tag ≠ s.dev.fw.tag
    let s := if fresh then
        s.eraseImage.onDev fun d => d.modFw fun w =>
          { w with store := .receiving, holder := some .fabric, tag := f.tag, verified := false,
                   rx := some { tag := f.tag, count := f.count.toNat, src := f.srcAddr, act := f.actCount, have_ := [], lastAt := d.now, repair := false,
                                failed := [] } }
      else s
    match s.dev.fw.rx with
    | none => s
    | some r =>
      if r.count ≠ f.count.toNat then s
      else
        let s := (s.modImage fun m => m.put (f.index.toNat * 4064) f.data).onDev fun d => d.modFw fun w =>
          { w with rx := some { r with have_ := NSet.insert f.index.toNat r.have_, lastAt := d.now } }
        (if f.index.toNat + 1 = r.count then s.onDev Dev.startRepair else s).receptionStep

/-- FRAGMENT_TIMEOUT (R589): 10 ms without a fragment. -/
def Dev.fragTimeout (d : Dev) : Dev :=
  match d.fw.rx with
  | some r => if r.lastAt + 10000000 ≤ d.now then d.startRepair else d
  | none => d

/-- FRAGMENT_FETCH (R589): a fetched fragment is written; one that fails is fetched once more, and the second failure ends the reception. -/
def State.fragFetch (i : Nat) (data : Option (List Byte)) (s : State) : State :=
  match s.dev.fw.rx with
  | none => s
  | some r =>
    if !r.repair ∨ r.count ≤ i ∨ r.have_.contains i then s
    else match data with
      | some b =>
        ((s.modImage fun m => m.put (i * 4064) (b.take 4064)).onDev fun d => d.modFw fun w =>
          { w with rx := some { r with have_ := NSet.insert i r.have_ } }).receptionStep
      | none =>
        if r.failed.contains i then
          s.onDev fun d => (d.modFw fun w => { w with store := .invalid, holder := none, rx := none }).logFirmware d.strapHalf Reg.glb
        else s.onDev fun d => (d.modFw fun w => { w with rx := some { r with failed := i :: r.failed } }).fetchFragment r i

/-! ### Meanings -/

/-- COMPANION_RETRAIN (R633). -/
def execCompanionRetrain (l : Bool) (s : State) : Host.Outcome State Fault Refusal := next (s.onDev (Dev.companionRetrain l))
/-- COMPANION_LINK_ACTIVE (R636). -/
def execCompanionLinkActive (s : State) : Host.Outcome State Fault Refusal := next (s.onDev Dev.companionActive)
/-- COMPANION_LINK_DOWN (R633). -/
def execCompanionLinkDown (s : State) : Host.Outcome State Fault Refusal := next (s.onDev Dev.companionDown)
/-- COMPANION_TRAIN_RETRY (R633). -/
def execCompanionTrainRetry (s : State) : Host.Outcome State Fault Refusal := next (s.onDev Dev.companionRetry)
/-- CMP_NOP (R655). -/
def execCmpNop (s : State) : Host.Outcome State Fault Refusal := next (s.onDev (Dev.cmpCmd fun d => (some .ok, d)))
/-- IMG_BEGIN (R653). -/
def execImgBegin (s : State) : Host.Outcome State Fault Refusal := next s.imgBegin
/-- IMG_ERASE_DONE (R653). -/
def execImgEraseDone (s : State) : Host.Outcome State Fault Refusal := next (s.onDev Dev.imgErased)
/-- IMG_WRITE (R653). -/
def execImgWrite (s : State) : Host.Outcome State Fault Refusal := next s.imgWrite
/-- IMG_END (R653). -/
def execImgEnd (s : State) : Host.Outcome State Fault Refusal := next s.imgEnd
/-- IMG_DISTRIBUTE (R587). -/
def execImgDistribute (s : State) : Host.Outcome State Fault Refusal :=
  next (s.onDev (Dev.cmpCmd fun d => d.imgDistribute s.nv.fuses d.cmpData))
/-- FW_FRAG (R589). -/
def execFwFrag (f : Fragment) (s : State) : Host.Outcome State Fault Refusal := next (s.fwFrag f)
/-- FRAGMENT_TIMEOUT (R589). -/
def execFragmentTimeout (s : State) : Host.Outcome State Fault Refusal := next (s.onDev Dev.fragTimeout)
/-- FRAGMENT_FETCH (R589). -/
def execFragmentFetch (i : Nat) (b : Option (List Byte)) (s : State) : Host.Outcome State Fault Refusal := next (s.fragFetch i b)

end Sys2Proof.Machine
end

