-- ==== Sys2Proof/Machine/Side.lean ====
section
/-! DEFINITION. The side-band management port and the MCTP endpoints (R641 to R649): I3C, MCTP control, and PLDM. Codes of the standards that the
manual names are theirs. -/

namespace Sys2Proof.Machine

namespace Dev

/-- Change the record of the side-band port. -/
def modSide (f : Side → Side) (d : Dev) : Dev := { d with side := f d.side }

/-- Whether the side-band port answers (R649, R558): with the auxiliary rail, and not in the 50 ms of an island restart. -/
def portUp (d : Dev) : Bool :=
  d.dawn.islandsRun && (match d.side.restart.at d.strapHalf with | some t => decide (t + 50000000 ≤ d.now) | none => true)

/-- Act on the side-band port while it answers. -/
def whenUp (f : Dev → Dev) (d : Dev) : Dev := if d.portUp then f d else d

/-! ### I3C (R642, R643) -/

/-- ENTDAA and SETDASA: a dynamic address, once (R643). -/
def setDynamic (a : BitVec 7) (d : Dev) : Dev :=
  d.whenUp fun d => if d.side.dynAddr = 0 ∧ a ≠ 0 then d.modSide fun x => { x with dynAddr := a, i3c := true } else d

/-- RSTDAA: the port is an I²C target again (R643). -/
def rstdaa (d : Dev) : Dev := d.whenUp (Dev.modSide fun x => { x with dynAddr := 0, i3c := false })

/-- A common command code that the port takes as an I3C target only (R643). -/
def ccc (f : Dev → Dev) (d : Dev) : Dev := d.whenUp fun d => if d.side.i3c then f d else d

/-- The provisioned ID (R642). -/
def provisionedId : Nat := Config.mipiId.toNat * 2 ^ 33 + 0x7400 * 2 ^ 16 + Config.serial.toNat % 65536

/-- The answer to a common command code: its bytes, most significant first. -/
def cccAnswer (code : BitVec 8) (n v : Nat) (d : Dev) : Dev := d.ccc (Dev.emit (.answer code (leBytes n v).reverse))

/-- GETSTATUS. -/
def cccStatus (d : Dev) : Dev := d.ccc fun d => let (i, d) := d.draw; d.emit (.answer 0x90 (leBytes 2 (Config.i3cStatus i).toNat).reverse)

/-! ### MCTP control (R641, R644) -/

/-- An answer of the MCTP control responder. -/
def mctpAnswer (code : BitVec 8) (body : List Byte) (d : Dev) : Dev := d.emit (.answer code body)

/-- Set Endpoint ID: the bus owner of the side-band, or the companion, assigns it. -/
def mctpSetEid (side : Bool) (e : BitVec 8) (d : Dev) : Dev :=
  if e = 0 ∨ e = 255 then d.mctpAnswer 0x01 [2]
  else (d.modSide fun x => if side then { x with eid := e } else { x with compEid := e }).mctpAnswer 0x01 [0, 0, e, 0]

/-- Get Endpoint ID. -/
def mctpGetEid (side : Bool) (d : Dev) : Dev := d.mctpAnswer 0x02 [0, if side then d.side.eid else d.side.compEid, 0, 0]

/-- Get Endpoint UUID. -/
def mctpUuid (d : Dev) : Dev := d.mctpAnswer 0x03 (([0] : List Byte) ++ leBytes 16 Config.mctpUuid.toNat)

/-- Get MCTP Version Support. -/
def mctpVersion (d : Dev) : Dev := d.mctpAnswer 0x04 (([0] : List Byte) ++ Config.mctpVersions)

/-- Get Message Type Support. -/
def mctpTypes (side : Bool) (d : Dev) : Dev := d.mctpAnswer 0x05 (if side then [0, 4, 0, 1, 5, 6] else [0, 3, 0, 5, 6])

/-! ### PLDM base (R645) -/

/-- An answer of the PLDM responder: type, completion code and data. -/
def pldmAnswer (type cmd : BitVec 8) (cc : BitVec 8) (data : List Byte) (d : Dev) : Dev := d.emit (.answer cmd (type :: cc :: data))

/-- The commands of a supported PLDM type (R645); the manual gives those of type 63 no codes. -/
def pldmCommands (type : Nat) : Option (List Nat) :=
  match type with
  | 0 => some [0x01, 0x02, 0x03, 0x04, 0x05]
  | 2 => some [0x11, 0x21, 0x39, 0x3A, 0x50, 0x51]
  | 5 => some [0x01, 0x02, 0x10, 0x13, 0x14, 0x15, 0x16, 0x17, 0x18, 0x1A, 0x1B, 0x1C, 0x1D]
  | 63 => some []
  | _ => none

/-- GetTID. -/
def getTid (d : Dev) : Dev := d.pldmAnswer 0 0x02 0 [d.side.tid]
/-- SetTID. -/
def setTid (t : BitVec 8) (d : Dev) : Dev :=
  if t = 0 ∨ t = 255 then d.pldmAnswer 0 0x01 2 [] else (d.modSide fun x => { x with tid := t }).pldmAnswer 0 0x01 0 []
/-- GetPLDMVersion. -/
def pldmVersion (d : Dev) : Dev := d.pldmAnswer 0 0x03 0 Config.pldmVersion
/-- GetPLDMTypes: types 0, 2, 5 and 63. -/
def pldmTypes (d : Dev) : Dev := d.pldmAnswer 0 0x04 0 (leBytes 8 (1 + 2 ^ 2 + 2 ^ 5 + 2 ^ 63))
/-- GetPLDMCommands. -/
def pldmCmds (type : Nat) (d : Dev) : Dev :=
  match pldmCommands type with
  | some l => d.pldmAnswer 0 0x05 0 (leBytes 32 (l.foldl (fun a c => a + 2 ^ c) 0))
  | none => d.pldmAnswer 0 0x05 0x83 []

/-! ### PLDM monitoring and control (R646) -/

/-- Whether numeric sensors and effecters answer (R649): not while the halves are unpowered or in Dawn hold. -/
def sensorsUp (d : Dev) : Bool := d.dawn.powered && d.dawn.step != .hold

/-- The reading of a numeric sensor and whether its domain is on: temperatures in 0.25 °C, powers in 0.1 W, the voltage in 10 mV. -/
def sensorReading (id : Nat) (d : Dev) : Option ((Int × Bool) × Dev) :=
  if 0x0001 ≤ id ∧ id ≤ 0x0024 then
    let n := id - 1
    some ((d.readings.getD n 0 / 25, (d.dom n).state == .on || (d.dom n).state == .dusk), d)
  else if 0x0025 ≤ id ∧ id ≤ 0x002C then some ((d.readings.getD (id - 1) 0 / 25, true), d)
  else if id = 0x0030 then some ((Int.ofNat (d.fld 0x2118 15 0), true), d)
  else if id = 0x0031 then some ((Int.ofNat (d.fld 0x2114 15 0), true), d)
  else if id = 0x0032 then
    let (i, d) := d.draw
    some ((Int.ofNat (Config.inputVoltage i), true), d)
  else none

/-- GetSensorReading: a sensor of an unpowered domain is unavailable (R646, R649). -/
def getSensor (id : Nat) (d : Dev) : Dev :=
  match d.sensorReading id with
  | none => d.pldmAnswer 2 0x11 0x80 []
  | some ((v, on), d) => d.pldmAnswer 2 0x11 0 (if on && d.sensorsUp then ([0] : List Byte) ++ leBytes 4 (BitVec.ofInt 32 v).toNat else [2])

/-- GetStateSensorReadings. -/
def getStates (id : Nat) (d : Dev) : Dev :=
  if id = 0x0040 then d.pldmAnswer 2 0x21 0 [1, BitVec.ofNat 8 (dawnCode d.dawn.step)]
  else if id = 0x0041 then d.pldmAnswer 2 0x21 0 [1, BitVec.ofNat 8 (storeCode d.fw.store)]
  else if id = 0x0042 then d.pldmAnswer 2 0x21 0 (([5] : List Byte) ++ (List.range 5).map fun i => BitVec.ofNat 8 (bits (d.reg 0x1100).toNat i i))
  else d.pldmAnswer 2 0x21 0x80 []

/-- The optical port of an effecter (R646). -/
def effecterPort (id : Nat) : Option Nat := if 0x0100 ≤ id ∧ id < 0x0118 then some (id - 0x0100) else none

/-- SetStateEffecterStates: the FABMGR vote on a port (R599, R646). -/
def setEffecter (id state : Nat) (d : Dev) : Dev :=
  if !d.sensorsUp then d.pldmAnswer 2 0x39 4 []
  else
    match effecterPort id with
    | none => d.pldmAnswer 2 0x39 0x80 []
    | some p =>
      if state = 1 then (d.modDom (36 + p) fun x => { x with fabmgr := true }).pldmAnswer 2 0x39 0 []
      else if state = 2 then ((d.modDom (36 + p) fun x => { x with fabmgr := false }).midnightEntry (36 + p)).pldmAnswer 2 0x39 0 []
      else d.pldmAnswer 2 0x39 2 []

/-- GetStateEffecterStates. -/
def getEffecter (id : Nat) (d : Dev) : Dev :=
  if !d.sensorsUp then d.pldmAnswer 2 0x3A 4 []
  else
    match effecterPort id with
    | none => d.pldmAnswer 2 0x3A 0x80 []
    | some p => d.pldmAnswer 2 0x3A 0 [1, if (d.dom (36 + p)).fabmgr then 1 else 2]

/-- GetPDRRepositoryInfo: 47 numeric, 3 state sensors and 24 effecters. -/
def pdrInfo (d : Dev) : Dev := d.pldmAnswer 2 0x50 0 (([0] : List Byte) ++ leBytes 4 74)

/-- GetPDR: records 1 to 74; 0 asks for the first. -/
def getPdr (record : Nat) (d : Dev) : Dev :=
  if record ≤ 74 then d.pldmAnswer 2 0x51 0 (Config.pdr (max 1 record)) else d.pldmAnswer 2 0x51 0x82 []

/-! ### PLDM firmware update (R647) -/

/-- Whether type 5 is served (R649): not in the Dawn steps from POWER on, nor after a stop. -/
def updateUp (d : Dev) : Bool :=
  match d.dawn.step with
  | .power | .arrays | .selftest | .ddr | .fill | .handover | .stopped => false
  | _ => true

/-- An answer of the firmware device. -/
def fwAnswer (cmd cc : BitVec 8) (data : List Byte) (d : Dev) : Dev := d.pldmAnswer 5 cmd cc data

/-- A command of type 5: ERROR_NOT_READY while type 5 is not served. -/
def fwCmd (cmd : BitVec 8) (f : Dev → Dev) (d : Dev) : Dev := d.whenUp fun d => if d.updateUp then f d else d.fwAnswer cmd 4 []

/-- QueryDeviceIdentifiers. -/
def fwIdentify (d : Dev) : Dev := d.fwAnswer 0x01 0 Config.pldmIdentifiers
/-- GetFirmwareParameters. -/
def fwParameters (d : Dev) : Dev := d.fwAnswer 0x02 0 (Config.firmwareParameters d.fw.runSvn d.fw.storeSvn)

/-- RequestUpdate (R647). -/
def fwRequest (d : Dev) : Dev :=
  if d.fw.pldm ≠ .idle ∨ d.fw.holder.isSome then d.fwAnswer 0x10 0x81 []
  else
    (d.modFw fun f => { f with pldm := .learn, holder := some .pldm, back := f.store, store := .receiving, offset := 0, verified := false }).fwAnswer 0x10
      0 []

/-- Answers for a command outside its phase. -/
def fwBad (cmd : BitVec 8) (d : Dev) : Dev := d.fwAnswer cmd (if d.fw.pldm = .idle then 0x80 else 0x84) []

/-- PassComponentTable. -/
def fwTable (d : Dev) : Dev :=
  if d.fw.pldm = .learn then (d.modFw fun f => { f with pldm := .ready }).fwAnswer 0x13 0 [] else d.fwBad 0x13

/-- GetStatus: the phase, from 0 idle to 6 activate. -/
def fwStatus (d : Dev) : Dev :=
  let p : Byte := match d.fw.pldm with | .idle => 0 | .learn => 1 | .ready => 2 | .download => 3 | .verify => 4 | .apply => 5 | .activate => 6
  d.fwAnswer 0x1B 0 [p]

/-- TransferComplete (R647): the store is released; its image has not been checked. -/
def fwTransferred (d : Dev) : Dev :=
  if d.fw.pldm = .download then
    (d.modFw fun f => { f with pldm := .verify, holder := none, store := .invalid, back := .invalid }).fwAnswer 0x16 0 []
  else d.fwBad 0x16

/-- ApplyComplete. -/
def fwApplied (d : Dev) : Dev :=
  if d.fw.pldm = .apply then (d.modFw fun f => { f with pldm := .activate }).fwAnswer 0x18 0 [] else d.fwBad 0x18

/-- ActivateFirmware (R647): activation at the next reset; in Dawn hold the Dawn sequence starts again. -/
def fwActivate (svn : Nat) (d : Dev) : Dev :=
  if d.fw.pldm = .activate ∧ d.fw.verified ∧ d.fw.holder.isNone then
    ((d.modFw fun f => { f with pldm := .idle, store := .pending, storeSvn := svn, act := 0 }).fwAnswer 0x1A 0 [0, 0]).afterImage
  else d.fwBad 0x1A

/-- CancelUpdateComponent. -/
def fwCancelComponent (d : Dev) : Dev :=
  match d.fw.pldm with
  | .download | .verify | .apply => (d.modFw fun f => { f with pldm := .ready, verified := false }).fwAnswer 0x1C 0 []
  | _ => d.fwBad 0x1C

/-- CancelUpdate (R647): the store is released. An image that has been erased is INVALID. -/
def fwCancel (d : Dev) : Dev :=
  if d.fw.pldm = .idle then d.fwBad 0x1D
  else
    (d.modFw fun f => { f with pldm := .idle, verified := false, store := if f.holder = some .pldm then f.back else f.store,
                               holder := if f.holder = some .pldm then none else f.holder }).fwAnswer 0x1D 0 []

end Dev

/-- UpdateComponent (R647): the image region is erased, and the device begins to request data. -/
def State.fwComponent (s : State) : State :=
  if !s.dev.portUp then s
  else if !s.dev.updateUp then s.onDev (Dev.fwAnswer 0x14 4 [])
  else if s.dev.fw.pldm ≠ .ready ∨ !(s.dev.fw.holder.isNone || s.dev.fw.holder == some .pldm) then s.onDev (Dev.fwBad 0x14)
  else
    s.eraseImage.onDev fun d => (d.modFw fun f =>
      { f with pldm := .download, holder := some .pldm, store := .receiving, back := .invalid, offset := 0, verified := false }).fwAnswer 0x14 0 []

/-- RequestFirmwareData (R647): a transfer of up to 1,024 bytes is written to the store. -/
def State.fwData (data : List Byte) (s : State) : State :=
  if !s.dev.portUp ∨ !s.dev.updateUp ∨ s.dev.fw.pldm ≠ .download then s
  else
    (s.modImage fun m => m.put s.dev.fw.offset (data.take 1024)).onDev (Dev.modFw fun f => { f with offset := f.offset + 1024 })

/-- VerifyComplete (R647): the image is checked under R489. -/
def State.fwVerify (s : State) : State :=
  if !s.dev.portUp then s
  else if !s.dev.updateUp then s.onDev (Dev.fwAnswer 0x17 4 [])
  else if s.dev.fw.pldm ≠ .verify then s.onDev (Dev.fwBad 0x17)
  else
    match s.imageInfo with
    | some _ => s.onDev fun d => (d.modFw fun f => { f with pldm := .apply, verified := true }).fwAnswer 0x17 0 [0]
    | none => s.onDev fun d => (d.modFw fun f => { f with pldm := .ready, verified := false, store := .invalid }).fwAnswer 0x17 0 [1]

/-- ActivateFirmware as the store holds the image. -/
def State.fwActivate (s : State) : State :=
  s.onDev (Dev.fwCmd 0x1A (Dev.fwActivate (match s.imageInfo with | some m => m.svn | none => 0)))

/-! ### Messages (R641, R644, R645) -/

/-- An MCTP control request: its flags, its command code, its data. Any other command receives ERROR_UNSUPPORTED_CMD. -/
def Dev.mctpControl (side : Bool) (body : List Byte) (d : Dev) : Dev :=
  match body with
  | _ :: code :: data =>
    match code.toNat with
    | 1 => d.mctpSetEid side ((data[1]?).getD 0)
    | 2 => d.mctpGetEid side
    | 3 => d.mctpUuid
    | 4 => d.mctpVersion
    | 5 => d.mctpTypes side
    | _ => d.mctpAnswer code [5]
  | _ => d

/-- A PLDM request: its flags, its type, its command code, its data. An unsupported command receives ERROR_UNSUPPORTED_PLDM_CMD. -/
def State.pldmRequest (body : List Byte) (s : State) : State :=
  match body with
  | _ :: type :: code :: data =>
    match (type &&& 0x3F).toNat, code.toNat with
    | 0, 0x01 => s.onDev (Dev.setTid ((data[0]?).getD 0))
    | 0, 0x02 => s.onDev Dev.getTid
    | 0, 0x03 => s.onDev Dev.pldmVersion
    | 0, 0x04 => s.onDev Dev.pldmTypes
    | 0, 0x05 => s.onDev (Dev.pldmCmds (leAt data 0 1))
    | 2, 0x11 => s.onDev (Dev.getSensor (leAt data 0 2))
    | 2, 0x21 => s.onDev (Dev.getStates (leAt data 0 2))
    | 2, 0x39 => s.onDev (Dev.setEffecter (leAt data 0 2) (leAt data 4 1))
    | 2, 0x3A => s.onDev (Dev.getEffecter (leAt data 0 2))
    | 2, 0x50 => s.onDev Dev.pdrInfo
    | 2, 0x51 => s.onDev (Dev.getPdr (leAt data 0 4))
    | 5, 0x01 => s.onDev (Dev.fwCmd 0x01 Dev.fwIdentify)
    | 5, 0x02 => s.onDev (Dev.fwCmd 0x02 Dev.fwParameters)
    | 5, 0x10 => s.onDev (Dev.fwCmd 0x10 Dev.fwRequest)
    | 5, 0x13 => s.onDev (Dev.fwCmd 0x13 Dev.fwTable)
    | 5, 0x14 => s.fwComponent
    | 5, 0x15 => s.fwData data
    | 5, 0x16 => s.onDev (Dev.fwCmd 0x16 Dev.fwTransferred)
    | 5, 0x17 => s.fwVerify
    | 5, 0x18 => s.onDev (Dev.fwCmd 0x18 Dev.fwApplied)
    | 5, 0x1A => s.fwActivate
    | 5, 0x1B => s.onDev (Dev.fwCmd 0x1B Dev.fwStatus)
    | 5, 0x1C => s.onDev (Dev.fwCmd 0x1C Dev.fwCancelComponent)
    | 5, 0x1D => s.onDev (Dev.fwCmd 0x1D Dev.fwCancel)
    | t, _ => s.onDev (Dev.pldmAnswer (BitVec.ofNat 8 t) code 5 [])
  | _ => s

/-- MCTP_MESSAGE (R641, R644): a message of a type that the channel does not support is discarded and counted. A secured message is taken by
the commands of its session. -/
def State.mctpMessage (side : Bool) (type : BitVec 8) (body : List Byte) (s : State) : State :=
  if side ∧ !s.dev.portUp ∨ !side ∧ s.dev.linkState ≠ 2 then s
  else
    let s := if side then s.onDev (Dev.bump Reg.sbm 0x040 1) else s
    match type.toNat with
    | 0 => s.onDev (Dev.mctpControl side body)
    | 1 => if side then s.pldmRequest body else s.onDev (Dev.bump Reg.cmp 0x060 1)
    | 5 => (match body with | _ :: code :: rest => s.onDev (Dev.spdmRequest code (rest.drop 2)) | _ => s)
    | 6 => s
    | _ => s.onDev (if side then Dev.bump Reg.sbm 0x048 1 else Dev.bump Reg.cmp 0x060 1)

/-! ### LOG_READ over the side-band (R648) -/

/-- PLDM_LOG_READ (R648, R649): the island's copy while the halves are unpowered or before SERVICE, the error log in service. -/
def Dev.pldmLog (seq : Word32) (d : Dev) : Dev :=
  let l := if d.dawn.powered ∧ d.dawn.step = .service then (d.ras.at d.strapHalf).log ++ (d.ras.at (otherHalf d.strapHalf)).log else d.side.island
  match l.find? fun e => e.seq == seq with
  | some e => d.emit (.answer 0 (63 :: Status.ok.code :: lineBytes e.view))
  | none => d.emit (.answer 0 [63, Status.stateConflict.code])

/-! ### Meanings -/

/-- MCTP_MESSAGE (R641). -/
def execMctpMessage (side : Bool) (t : BitVec 8) (b : List Byte) (s : State) : Host.Outcome State Fault Refusal := next (s.mctpMessage side t b)
/-- ENTDAA (R642). -/
def execEntdaa (a : BitVec 7) (s : State) : Host.Outcome State Fault Refusal := next (s.onDev (Dev.setDynamic a))
/-- SETDASA (R642). -/
def execSetdasa (a : BitVec 7) (s : State) : Host.Outcome State Fault Refusal := next (s.onDev (Dev.setDynamic a))
/-- RSTDAA (R643). -/
def execRstdaa (s : State) : Host.Outcome State Fault Refusal := next (s.onDev Dev.rstdaa)
/-- ENEC (R642). -/
def execEnec (e : BitVec 8) (s : State) : Host.Outcome State Fault Refusal :=
  next (s.onDev (Dev.ccc (Dev.modSide fun x => { x with events := x.events ||| e })))
/-- DISEC (R642). -/
def execDisec (e : BitVec 8) (s : State) : Host.Outcome State Fault Refusal :=
  next (s.onDev (Dev.ccc (Dev.modSide fun x => { x with events := x.events &&& ~~~e })))
/-- GETPID (R642). -/
def execGetpid (s : State) : Host.Outcome State Fault Refusal := next (s.onDev (Dev.cccAnswer 0x8D 6 Dev.provisionedId))
/-- GETBCR (R642). -/
def execGetbcr (s : State) : Host.Outcome State Fault Refusal := next (s.onDev (Dev.cccAnswer 0x8E 1 Config.i3cBcr.toNat))
/-- GETDCR (R642). -/
def execGetdcr (s : State) : Host.Outcome State Fault Refusal := next (s.onDev (Dev.cccAnswer 0x8F 1 Config.i3cDcr.toNat))
/-- GETSTATUS (R642). -/
def execGetstatus (s : State) : Host.Outcome State Fault Refusal := next (s.onDev Dev.cccStatus)
/-- GETMRL (R642). -/
def execGetmrl (s : State) : Host.Outcome State Fault Refusal := next (s.onDev fun d => d.cccAnswer 0x8C 2 d.side.mrl.toNat)
/-- GETMWL (R642). -/
def execGetmwl (s : State) : Host.Outcome State Fault Refusal := next (s.onDev fun d => d.cccAnswer 0x8B 2 d.side.mwl.toNat)
/-- SETMRL (R642). -/
def execSetmrl (n : BitVec 16) (s : State) : Host.Outcome State Fault Refusal := next (s.onDev (Dev.ccc (Dev.modSide fun x => { x with mrl := n })))
/-- SETMWL (R642). -/
def execSetmwl (n : BitVec 16) (s : State) : Host.Outcome State Fault Refusal := next (s.onDev (Dev.ccc (Dev.modSide fun x => { x with mwl := n })))
/-- SET_ENDPOINT_ID (R644). -/
def execSetEndpointId (e : BitVec 8) (s : State) : Host.Outcome State Fault Refusal := next (s.onDev (Dev.whenUp (Dev.mctpSetEid true e)))
/-- GET_ENDPOINT_ID (R644). -/
def execGetEndpointId (s : State) : Host.Outcome State Fault Refusal := next (s.onDev (Dev.whenUp (Dev.mctpGetEid true)))
/-- GET_ENDPOINT_UUID (R644). -/
def execGetEndpointUuid (s : State) : Host.Outcome State Fault Refusal := next (s.onDev (Dev.whenUp Dev.mctpUuid))
/-- GET_MCTP_VERSION_SUPPORT (R644). -/
def execGetMctpVersionSupport (s : State) : Host.Outcome State Fault Refusal := next (s.onDev (Dev.whenUp Dev.mctpVersion))
/-- GET_MESSAGE_TYPE_SUPPORT (R644). -/
def execGetMessageTypeSupport (s : State) : Host.Outcome State Fault Refusal := next (s.onDev (Dev.whenUp (Dev.mctpTypes true)))
/-- GET_TID (R645). -/
def execGetTid (s : State) : Host.Outcome State Fault Refusal := next (s.onDev (Dev.whenUp Dev.getTid))
/-- SET_TID (R645). -/
def execSetTid (t : BitVec 8) (s : State) : Host.Outcome State Fault Refusal := next (s.onDev (Dev.whenUp (Dev.setTid t)))
/-- GET_PLDM_VERSION (R645). -/
def execGetPldmVersion (s : State) : Host.Outcome State Fault Refusal := next (s.onDev (Dev.whenUp Dev.pldmVersion))
/-- GET_PLDM_TYPES (R645). -/
def execGetPldmTypes (s : State) : Host.Outcome State Fault Refusal := next (s.onDev (Dev.whenUp Dev.pldmTypes))
/-- GET_PLDM_COMMANDS (R645). -/
def execGetPldmCommands (t : BitVec 6) (s : State) : Host.Outcome State Fault Refusal := next (s.onDev (Dev.whenUp (Dev.pldmCmds t.toNat)))
/-- GET_PDR_REPOSITORY_INFO (R646). -/
def execGetPdrRepositoryInfo (s : State) : Host.Outcome State Fault Refusal := next (s.onDev (Dev.whenUp Dev.pdrInfo))
/-- GET_PDR (R646). -/
def execGetPdr (r : BitVec 32) (s : State) : Host.Outcome State Fault Refusal := next (s.onDev (Dev.whenUp (Dev.getPdr r.toNat)))
/-- GET_SENSOR_READING (R646). -/
def execGetSensorReading (i : BitVec 16) (s : State) : Host.Outcome State Fault Refusal := next (s.onDev (Dev.whenUp (Dev.getSensor i.toNat)))
/-- GET_STATE_SENSOR_READINGS (R646). -/
def execGetStateSensorReadings (i : BitVec 16) (s : State) : Host.Outcome State Fault Refusal := next (s.onDev (Dev.whenUp (Dev.getStates i.toNat)))
/-- SET_STATE_EFFECTER_STATES (R646). -/
def execSetStateEffecterStates (i : BitVec 16) (x : BitVec 8) (s : State) : Host.Outcome State Fault Refusal :=
  next (s.onDev (Dev.whenUp (Dev.setEffecter i.toNat x.toNat)))
/-- GET_STATE_EFFECTER_STATES (R646). -/
def execGetStateEffecterStates (i : BitVec 16) (s : State) : Host.Outcome State Fault Refusal := next (s.onDev (Dev.whenUp (Dev.getEffecter i.toNat)))
/-- QUERY_DEVICE_IDENTIFIERS (R645). -/
def execQueryDeviceIdentifiers (s : State) : Host.Outcome State Fault Refusal := next (s.onDev (Dev.fwCmd 0x01 Dev.fwIdentify))
/-- GET_FIRMWARE_PARAMETERS (R645). -/
def execGetFirmwareParameters (s : State) : Host.Outcome State Fault Refusal := next (s.onDev (Dev.fwCmd 0x02 Dev.fwParameters))
/-- REQUEST_UPDATE (R647). -/
def execRequestUpdate (s : State) : Host.Outcome State Fault Refusal := next (s.onDev (Dev.fwCmd 0x10 Dev.fwRequest))
/-- PASS_COMPONENT_TABLE (R645). -/
def execPassComponentTable (s : State) : Host.Outcome State Fault Refusal := next (s.onDev (Dev.fwCmd 0x13 Dev.fwTable))
/-- UPDATE_COMPONENT (R647). -/
def execUpdateComponent (s : State) : Host.Outcome State Fault Refusal := next s.fwComponent
/-- REQUEST_FIRMWARE_DATA (R647). -/
def execRequestFirmwareData (b : List Byte) (s : State) : Host.Outcome State Fault Refusal := next (s.fwData b)
/-- TRANSFER_COMPLETE (R647). -/
def execTransferComplete (s : State) : Host.Outcome State Fault Refusal := next (s.onDev (Dev.fwCmd 0x16 Dev.fwTransferred))
/-- VERIFY_COMPLETE (R647). -/
def execVerifyComplete (s : State) : Host.Outcome State Fault Refusal := next s.fwVerify
/-- APPLY_COMPLETE (R645). -/
def execApplyComplete (s : State) : Host.Outcome State Fault Refusal := next (s.onDev (Dev.fwCmd 0x18 Dev.fwApplied))
/-- ACTIVATE_FIRMWARE (R647). -/
def execActivateFirmware (s : State) : Host.Outcome State Fault Refusal := next s.fwActivate
/-- GET_STATUS (R645). -/
def execGetStatus (s : State) : Host.Outcome State Fault Refusal := next (s.onDev (Dev.fwCmd 0x1B Dev.fwStatus))
/-- CANCEL_UPDATE_COMPONENT (R645). -/
def execCancelUpdateComponent (s : State) : Host.Outcome State Fault Refusal := next (s.onDev (Dev.fwCmd 0x1C Dev.fwCancelComponent))
/-- CANCEL_UPDATE (R647). -/
def execCancelUpdate (s : State) : Host.Outcome State Fault Refusal := next (s.onDev (Dev.fwCmd 0x1D Dev.fwCancel))
/-- PLDM_LOG_READ (R648). -/
def execPldmLogRead (q : Word32) (s : State) : Host.Outcome State Fault Refusal := next (s.onDev (Dev.whenUp (Dev.pldmLog q)))

end Sys2Proof.Machine
end

