-- ==== Sys2Proof/Machine/Deliver.lean ====
section
/-! DEFINITION. The router's handling of a received packet (R441 to R459, R469 to R475, R503 to R505): delivery to this node, forwarding, copies of
a tree, hop messages and notices. -/

namespace Sys2Proof.Machine

/-- The virtual channels of a packet type (R442); none for a reserved code. -/
def vcsOf (opc : Nat) : Option (List Nat) :=
  if 0x01 ≤ opc ∧ opc ≤ 0x06 then some [0]
  else match opc with
    | 0x10 | 0x11 => some [2]
    | 0x20 => some [1, 3]
    | 0x21 | 0x22 => some [1]
    | 0x30 | 0x31 => some [7]
    | 0x32 => some [5]
    | 0x40 | 0x41 | 0x42 | 0x43 | 0x44 | 0x45 | 0x46 => some [6]
    | _ => none

/-- The pool offset that a Request word names (R443). -/
def pktOffset (p : Packet) : Nat := bits p.word.toNat 47 2 * 4

/-- The header of a request (R443). -/
def reqHdr (via : Via) (p : Packet) (key : Option (BitVec 13)) : ReqHdr :=
  let w := p.word.toNat
  { via := via, src := p.src, tag := p.tag, retry := BitVec.ofNat 4 (bits w 51 48), riss := bits w 0 0 = 1, pv := p.pv,
    spart := BitVec.ofNat 12 (bits w 63 52), fkey := key, offset := BitVec.ofNat 48 (pktOffset p) }

/-- What a request packet asks (R120, R444, R445), from its plain payload; none when a reserved field is set or the payload is not the one its
type carries. -/
def reqKind (p : Packet) (b : List Byte) : Option ReqKind :=
  let opc := p.opc.toNat
  let arg := p.arg.toNat
  let reserved : Bool := bits p.word.toNat 1 1 == 1 || (p.poison && opc != 4) || (opc != 6 && pktOffset p % 64 != 0)
    || (opc == 1 && decide (arg > 1)) || (decide (2 ≤ opc ∧ opc ≤ 5) && arg != 0)
  if reserved then none
  else
    match opc with
    | 1 => if b.isEmpty then some (.loadShared (arg == 1)) else none
    | 2 => if b.isEmpty then some .loadOwn else none
    | 3 => if b.length = 64 then some (.store (lineOf b)) else none
    | 4 => if b.length = 64 then some (.writeInval (lineOf b) p.poison) else none
    | 5 => if b.length = 72 then some (.writePartial (lineOf b) (BitVec.ofNat 64 (leAt b 64 8))) else none
    | 6 => some (.atomic (BitVec.ofNat 4 arg) (decide (arg ≥ 16)) b)
    | _ => none

namespace Dev

/-- The class and partition under which a packet is metered (R472). -/
def meterClass (d : Dev) (p : Packet) : Option (Nat × PartId) :=
  let opc := p.opc.toNat
  let off := pktOffset p
  if inGutter off then (if opc = 0x30 ∨ (opc = 0x05 ∧ off % 4096 < 2048) then some (1, gutterPart off) else none)
  else if 1 ≤ opc ∧ opc ≤ 6 then (d.extAt off).map fun x => (0, x.2.part)
  else none

/-- A packet passes the shaper (R472 to R475), or is dropped or refused. The companion's are not metered (R635). -/
def passShaper (via : Via) (p : Packet) (d : Dev) : Bool × Dev :=
  match (if via = .companion then none else d.meterClass p) with
  | none => (true, d)
  | some (cls, part) =>
    let (c, hint, d) := d.shape part cls 16 p.payload.length
    match c with
    | .green => (true, d)
    | .red => (false, d.policedNotice part cls hint p.src p.tag)
    | .yellow =>
      if cls = 0 ∧ d.homeUse (d.lineHalf (pktOffset p / 64)) + 1024 > 8192 then
        (false, (d.bump Reg.shp 0x058 1).refuse (reqHdr via p none) d.now d.baseHint (d.lineHalf (pktOffset p / 64)))
      else (true, d)

/-- The plain payload of a packet and the entry that admitted it (R505); none when a check failed. Nothing on the companion link is ENC (R635). -/
def plain (via : Via) (p : Packet) (tree : Option (BitVec 10)) (d : Dev) : Option (List Byte × Option (BitVec 13)) × Dev :=
  if p.enc ∧ via ≠ .companion then
    match d.openEnc ((pktBytes p).take 16) p.payload p.src tree with
    | (some (b, i), d) => (some (b, some i), d)
    | (none, d) => (none, d)
  else (some (p.payload, none), d)

/-- A request on VC0 addressed to this node (R122, R472, R505). -/
def takeRequest (via : Via) (p : Packet) (d : Dev) : Dev :=
  let (pass, d) := d.passShaper via p
  if !pass then d
  else
    match d.plain via p none with
    | (none, d) => (d.bump Reg.sec 0x050 1).nack (reqHdr via p none) .keyError 0 false
    | (some (b, key), d) =>
      match reqKind p b with
      | some k => d.hostRequest (reqHdr via p key) k
      | none => (d.logMalformed via (some (d.lineHalf (pktOffset p / 64))) 4 p.opc.toNat 0 (some p.src) .malformed).nack (reqHdr via p key) .malformed 0 false

/-- A DOORBELL addressed to this node (R543). -/
def takeDoorbell (via : Via) (p : Packet) (d : Dev) : Dev :=
  let (pass, d) := d.passShaper via p
  if !pass then d
  else
    match d.plain via p none with
    | (none, d) => d
    | (some (b, key), d) => d.doorbellReq (reqHdr via p key) (.packet b)

/-- An ACK or NACK on VC1 (R136, R443, R454): an answer to a device-issued transaction. A reserved status is logged (R22). -/
def takeAnswer (via : Via) (p : Packet) (d : Dev) : Dev :=
  match d.plain via p none with
  | (none, d) => d
  | (some (b, _), d) =>
    let w := p.word.toNat
    let code : BitVec 8 := BitVec.ofNat 8 w
    let retry : BitVec 4 := BitVec.ofNat 4 (bits w 31 28)
    let d := if code.toNat > 0x11 then d.logMalformed via none 6 p.opc.toNat 1 (some p.src) .malformed else d
    if p.opc = 0x20 ∧ bits w 8 8 = 1 ∧ bits w 9 9 = 1 then
      match d.fab.dev.find? fun t => t.tag == p.tag && t.retry == retry && t.again.isNone with
      | some t => d.devAnswer t.node p.tag (.forwarded b retry)
      | none => d
    else d.devAnswer p.src p.tag (.home code b (bits w 9 9 == 1) retry (BitVec.ofNat 16 (bits w 26 11)))

/-- An ACK on VC3 (R134, R137, R506). -/
def takeVc3 (via : Via) (p : Packet) (d : Dev) : Dev :=
  match d.plain via p none with
  | (none, d) => d
  | (some (b, key), d) =>
    let w := p.word.toNat
    d.vc3Ack via p.src p.tag (BitVec.ofNat 8 w) (if bits w 8 8 = 1 then some (lineOf b) else none) (bits w 10 10 == 1) false key

/-- A snoop addressed to this node: the device caches nothing (R118) and answers as a holder of I (R134). -/
def takeSnoop (p : Packet) (d : Dev) : Dev :=
  (d.send 3 (mkPkt d p.src 0x20 p.tag (answerWord .ok false false false 0 false (bits p.word.toNat 3 0)))).2

/-- NOTICE (R454, R471, R475). -/
def notice (via : Via) (p : Packet) (d : Dev) : Dev :=
  let w := p.word.toNat
  let code := bits w 7 0
  if code > 0x11 then d.logMalformed via none 6 0x31 7 (some p.src) .malformed
  else if code = Status.unreached.code.toNat then
    let n := p.tag.toNat % 1024
    if (d.tree n).valid ∧ (d.tree n).root = d.nodeId then d.unreached n (bits w 63 32) else d
  else if code = Status.policed.code.toNat then d.devAnswer p.src p.tag (.policed (BitVec.ofNat 16 (bits w 23 8)))
  else d

/-- A hop message (R374, R459, R461, R466). -/
def hopMessage (port : Nat) (p : Packet) (d : Dev) : Dev :=
  match p.opc.toNat with
  | 0x40 =>
    if p.dst ≠ d.nodeId then d
    else
      let m := syncOf p.payload
      if m.type = 1 then d.syncReceive port m
      else if m.type = 2 then d.echoReceive port m
      else d.logMalformed (.port (portNo port)) none 3 m.type.toNat 6 (some p.src) .ok
  | 0x43 => d.cktSetup port p
  | 0x44 => d.cktConfirm port p
  | 0x45 => d.cktReject port p
  | _ => d.cktTear port p

/-- The data of a tree packet is written here (R469): metered, opened, and written as full lines. -/
def treeData (n : Nat) (t : Tree) (p : Packet) (d : Dev) : Dev :=
  let (c, _, d) := d.shape t.part 3 16 p.payload.length
  if c = .red then d
  else
    match d.plain (.port (portNo t.up.toNat)) p (some (BitVec.ofNat 10 n)) with
    | (none, d) => d
    | (some (b, key), d) =>
      if pktOffset p % 64 ≠ 0 ∨ b.isEmpty ∨ b.length % 64 ≠ 0 then d
      else
        let first := pktOffset p / 64
        let ls := (List.range (b.length / 64)).map fun i =>
          ((BitVec.ofNat 42 (first + i) : LineNo), if p.poison then none else some (lineOf (b.drop (64 * i))))
        (d.modCoh fun x => { x with posted := x.posted ++ [⟨t.root, if p.pv then some (BitVec.ofNat 12 (bits p.word.toNat 63 52)) else none, key, ls, .ok, none⟩] }).tryPosted

end Dev

/-- The fragment that a control message carries (R588). -/
def fragmentOf (root : NodeId) (b : List Byte) : Fragment :=
  { root := root, tag := BitVec.ofNat 16 (leAt b 2 2), index := BitVec.ofNat 16 (leAt b 4 4), count := BitVec.ofNat 16 (leAt b 8 4),
    crc := BitVec.ofNat 32 (leAt b 12 4), srcAddr := BitVec.ofNat 64 (leAt b 16 8), actCount := BitVec.ofNat 64 (leAt b 24 8), data := b.drop 32 }

/-- A control message of a tree reaches firmware (R469): a pace notice (R619, R620) or a fragment (R588). -/
def State.treeControl (root : NodeId) (b : List Byte) (s : State) : State :=
  match leAt b 0 2 with
  | 1 => s.onDev (Dev.paceReceive (BitVec.ofNat 16 (leAt b 2 2)) (BitVec.ofNat 3 (leAt b 5 1)) (BitVec.ofNat 64 (leAt b 8 8)))
  | 2 => if leAt b 4 4 < 65536 ∧ leAt b 8 4 < 65536 then s.fwFrag (fragmentOf root b) else s
  | _ => s

/-- MCAST (R469): refused at the tree entry, or copied down and delivered here. POISON is a reserved value in a control message (R445). -/
def State.mcast (via : Via) (p : Packet) (s : State) : State :=
  let n := p.dst.toNat % 1024
  let t := s.dev.tree n
  let onUp : Bool := match via with | .port q => t.up.toNat == q.val | .companion => false
  if !t.valid ∨ p.src ≠ t.root ∨ !onUp ∨ p.dst.toNat ≥ 1024 then s.onDev (Dev.bump Reg.rte 0x080 1)
  else
    let s := s.onDev (Dev.copyDown n (pktBytes p))
    if !t.local_ then s
    else if p.arg.getLsbD 0 && p.poison then s.onDev (Dev.logMalformed via none 2 0x32 5 (some p.src) .ok)
    else if p.arg.getLsbD 0 then s.treeControl t.root p.payload
    else s.onDev (Dev.treeData n t p)

/-- A packet addressed to this node on a port (R442): by its type. A reserved bit POISON (R445) or type, or a wrong VC, discards it. -/
def Dev.deliverHere (via : Via) (vc : Nat) (p : Packet) (d : Dev) : Dev :=
  let opc := p.opc.toNat
  match vcsOf opc with
  | none =>
    if vc = 0 then
      (d.logMalformed via (some (d.lineHalf (pktOffset p / 64))) 4 opc 0 (some p.src) .malformed).nack (reqHdr via p none) .malformed 0 false
    else d.logMalformed via none 2 opc vc (some p.src) .ok
  | some l =>
    if !l.contains vc then d.logMalformed via none 2 opc vc (some p.src) .ok
    else if vc = 0 then d.takeRequest via p
    else if p.poison then d.logMalformed via none (if vc = 3 then 5 else 2) opc vc (some p.src) .ok
    else
      match opc with
      | 0x10 | 0x11 => d.takeSnoop p
      | 0x20 => if vc = 3 then d.takeVc3 via p else d.takeAnswer via p
      | 0x21 => d.takeAnswer via p
      | 0x22 =>
        let d := if bits p.word.toNat 7 0 > 0x11 then d.logMalformed via none 6 0x22 1 (some p.src) .malformed else d
        (match d.plain via p none with | (some _, d) => d.cktAck p | (none, d) => d)
      | 0x30 => d.takeDoorbell via p
      | 0x31 => d.notice via p
      | 0x41 => d.probed via p.src p.tag p.word
      | 0x42 => d.probeAnswer p.src p.word
      | _ => d

/-- A packet on the COH channel of the companion link (R634, R635): its source is the companion, whatever it says. A type that the channel does not
carry is discarded and logged as a packet of the wrong kind; R634 does not say so: DESIGN CHOICE (log 76). -/
def Dev.cohPacket (vc : Nat) (p : Packet) (d : Dev) : Dev :=
  let opc := p.opc.toNat
  let p := { p with src := d.compNode }
  if opc ∈ [0x22, 0x30, 0x31, 0x32, 0x40, 0x43, 0x44, 0x45, 0x46] then d.logMalformed .companion none 2 opc vc (some p.src) .ok
  else d.deliverHere .companion vc p

/-- COMPANION_FLIT (R633, R634): a bad flit is counted and replayed; a good one in sequence is taken, with its acknowledgement and its packet. -/
def Dev.companionFlit (f : Flit) (d : Dev) : Dev :=
  if d.linkState ≠ 2 then d
  else if f.bad then (d.modCmp fun c => { c with replays := c.replays + 1 }).bump Reg.cmp 0x040 1
  else if f.seq = d.cmp.rxSeq then
    let d := d.modCmp fun c => { c with rxSeq := c.rxSeq + 1, ackSeq := f.ack, replays := 0 }
    match f.coh with
    | none => d
    | some (vc, p) => d.cohPacket vc.toNat p
  else d

/-- A transit packet (R449 to R452): forwarded whole, or dropped and counted. -/
def Dev.transit (port vc time : Nat) (bytes : List Byte) (dst : NodeId) (d : Dev) : Dev :=
  match d.routeFrom dst (some port) with
  | some q =>
    let id := d.fab.nextTransit
    ({ d with fab := { d.fab with nextTransit := id + 1 } }).pushItem q ⟨BitVec.ofNat 3 vc, bytes, false, some (id, time), 0⟩
  | none => d.bump Reg.rte 0x048 1

/-- The router handles a received packet (R442, R449, R459). -/
def State.route (port : Nat) (r : RxItem) (s : State) : State :=
  let via : Via := .port (Dev.portNo port)
  let vc := r.vc.toNat
  if vc = 4 then s.onDev (Dev.cktFrame port (Dev.cktFrameOf r.bytes))
  else
    match pktOf r.bytes with
    | none => s.onDev (Dev.logMalformed via none 2 0 vc none .ok)
    | some p =>
      let opc := p.opc.toNat
      let hop : Bool := opc == 0x40 || decide (0x43 ≤ opc ∧ opc ≤ 0x46)
      if (opc = 0x32 ∧ vc ≠ 5) ∨ (hop ∧ vc ≠ 6) then s.onDev (Dev.logMalformed via none 2 opc vc (some p.src) .ok)
      else if opc = 0x32 then s.mcast via p
      else if hop then
        s.onDev fun d => if p.poison then d.logMalformed via none 2 opc vc (some p.src) .ok else d.hopMessage port p
      else if p.dst = s.dev.nodeId then s.onDev (Dev.deliverHere via vc p)
      else s.onDev (Dev.transit port vc r.time r.bytes p.dst)

/-- FABRIC_PACKET (R449): the router takes the oldest packet of a port. -/
def State.fabricPacket (port : Nat) (s : State) : State :=
  match s.dev.popRx port with
  | none => s
  | some (r, d) => ({ s with dev := d }).route port r

/-! ### Meanings -/

/-- FABRIC_PACKET (R449). -/
def execFabricPacket (p : PortNo) (s : State) : Host.Outcome State Fault Refusal := next (s.fabricPacket p.val)
/-- COMPANION_FLIT (R633). -/
def execCompanionFlit (f : Flit) (s : State) : Host.Outcome State Fault Refusal := next (s.onDev (Dev.companionFlit f))
/-- MCAST (R469). -/
def execMcast (via : Via) (p : Packet) (s : State) : Host.Outcome State Fault Refusal := next (s.mcast via p)
/-- NOTICE (R471). -/
def execNotice (via : Via) (p : Packet) (s : State) : Host.Outcome State Fault Refusal := next (s.onDev (Dev.notice via p))

end Sys2Proof.Machine
end

