-- ==== Sys2Proof/Machine/Regs.lean ====
section
/-! DEFINITION. Register writes (R14 to R17, R665 to R675), OWNER (R668, R669), and the reads and writes of the companion and of the side-band
(R637 to R639, R648). -/

namespace Sys2Proof.Machine

namespace Dev

/-! ### The common header (R662 to R666) -/

/-- The bits of a word that show live state of what a block controls: the core map, performance levels and power modes, synchronisation, the last
CSN, a channel and its window, the companion link, and marked devices. A block reset never changes that state (R665), so it does not change how it
reads; R665 names register fields without this exception. DESIGN CHOICE (log 43). -/
def liveBits (ty off : Nat) : Word32 :=
  match ty, off with
  | 0x01, 0x104 => 0xFFFFFFFF
  | 0x02, 0x10C => 0xFFFFFFFF
  | 0x02, 0x114 => 0x70000
  | 0x02, 0x134 => 0x10000
  | 0x03, 0x110 => 0xFFFFFFFF
  | 0x04, 0x10C => 0xFFFFFFFF
  | 0x0C, 0x100 => 0xFFFFFFFF
  | 0x0C, 0x110 => 0xFFFFFFFF
  | 0x11, 0x100 => 0xFFFFFFFF
  | 0x13, off => if 0x240 ≤ off then 0xFFFFFFFF else 0
  | _, _ => 0

/-- What a block reset leaves of a word of its page: sticky and RWO fields, and live state (R665). -/
def blkKeeps (ty off : Nat) : Word32 :=
  if off = 0x018 ∨ off = 0x030 ∨ (ty = 0x01 ∧ off = 0x100) ∨ (ty = 0x11 ∧ off = 0x104) then 0xFFFFFFFF else liveBits ty off

/-- A block reset (R665), of both pages of CMP (R660). The reset of IRQ.GLB_CTL and of GTC.SYNC_CFG acts as a write of their reset value, and
SBM.ALERT_STS keeps its read-only bits. -/
def blkReset (page : Nat) (d : Dev) : Dev :=
  match blkId page with
  | none => d
  | some (ty, _) =>
    if d.blkBusy page then d.illegal page
    else
      let d := if ty = 0x05 then d.writeDeliver 1 else if ty = 0x03 then d.writeSyncCfg 0x0800 else d
      let alerts := d.reg 0x1100 &&& 0x6
      let mine (a : Nat) : Bool := a / 4096 == page || (ty == 0x11 && a / 4096 == 0x00E)
      let keep (a : Nat) : Word32 := if a / 4096 = page then blkKeeps ty (a % 4096) else 0
      let d := { d with regs := { d.regs with
        words := d.regs.words.filterMap fun r => if !mine r.1 then some r else if keep r.1 = 0 then none else some (r.1, r.2 &&& keep r.1)
        latch := d.regs.latch.filter fun r => !mine (r.1 / 4)
        held := d.regs.held.filter fun r => !mine (r.1 / 4) } }
      if ty = 0x12 then d.setReg 0x1100 alerts else d

/-- Every counter of a page becomes 0 (R663). -/
def clrCnt (page : Nat) (d : Dev) : Dev := { d with regs := { d.regs with ctrs := d.regs.ctrs.filter fun r => r.1 / 4096 != page } }

/-- BLK_CTL (R663). -/
def writeBlkCtl (page : Nat) (v : Word32) (d : Dev) : Dev :=
  let d := if v.getLsbD 0 then d.blkReset page else d
  if v.getLsbD 1 then d.clrCnt page else d

/-- ERR_INJ (R663): the bits are set as if their errors occurred, with INJECTED. -/
def writeErrInj (page : Nat) (v : Word32) (d : Dev) : Dev :=
  if v &&& 7 = 0 then d
  else (foldN 3 (fun i d => if v.getLsbD i then d.errEvent page i else d) d).errEvent page 3

/-- A write of a register of the common header other than OWNER (R662 to R664). -/
def writeHeader (page off : Nat) (v : Word32) (d : Dev) : Dev :=
  let a := page * 4096 + off
  match off with
  | 0x010 => d.writeBlkCtl page v
  | 0x018 => d.setReg a (d.reg a &&& ~~~v)
  | 0x01C => d.setReg a (v &&& 0xF)
  | 0x020 => d.setReg a (v &&& 0xF)
  | 0x024 => d.writeErrInj page v
  | 0x028 => d.setReg a (d.reg a &&& ~~~v)
  | 0x02C => (d.setReg a (v &&& 0xFFFF)).blkEdge page (d.blkLive page)
  | _ => d

/-! ### OWNER (R669) -/

/-- Whether the side-band may take a page that the companion holds: the link has not been ACTIVE for 10 ms, or the companion is dead. -/
def sidebandMayTake (d : Dev) : Bool :=
  (d.linkState != 2 && decide (d.cmp.activeAt + 10000000 ≤ d.now)) || (d.compNode != 0xFFFF && d.isDead d.compNode)

/-- Whether a party may write OWNER with a value (R669, R670). -/
def mayOwn (d : Dev) (path : Path) (page holder : Nat) : Bool :=
  match path, d.fld (Reg.owner page) 1 0 with
  | .firmware, _ => true
  | .companion, 0 => true
  | .sideband, 0 => d.sidebandMayTake
  | .sideband, 2 => true
  | _, 1 => (holder == 0 || holder == 2) && d.fld (Reg.owner page) 3 2 == pathCode path
  | _, _ => false

/-- OWNER_WRITE (R669): HOLDER and its SETTER. -/
def writeOwner (path : Path) (page : Nat) (v : Word32) (d : Dev) : Dev :=
  if (blkId page).isNone ∨ page = Reg.sbm ∨ !d.writeAnswers path page 0x030 then d
  else
    let h := fieldOf v 1 0
    if !d.mayOwn path page h then d.refuseWrite path page
    else if h = 3 then d.illegal page
    else (d.setFld (Reg.owner page) 1 0 h).setFld (Reg.owner page) 3 2 (pathCode path)

/-! ### Registers with behaviour of their own -/

/-- GLB.NODE_ID (R672, R673): the first valid write sets it, and ports with EN = 1 start. -/
def writeNodeId (v : Word32) (d : Dev) : Dev :=
  if d.nodeId ≠ 0xFFFF then d
  else if fieldOf v 15 0 = 0xFFFF then d.illegal Reg.glb
  else
    let d := d.setReg 0x100 (v &&& 0xFFFF)
    if d.dawn.step ≠ .service then d
    else foldN 24 (fun p d => if d.fld (fabA p + 0x100) 0 0 = 1 ∧ (d.dom (36 + p)).state = .on then d.startReset p ⟨7, none, false⟩ else d) d

/-- CMP.COMP_NODE (R654). -/
def writeCompNode (v : Word32) (d : Dev) : Dev :=
  if d.compNode ≠ 0xFFFF then d
  else if fieldOf v 15 0 = 0xFFFF ∨ fieldOf v 15 0 = d.nodeId.toNat then d.illegal Reg.cmp
  else d.setReg 0xD104 (v &&& 0xFFFF)

/-- FAB.PORT_CFG (R17, R437, R661, R673): EN acts where the node has its ID, the halves serve and the domain is on. -/
def writePortCfg (p : Nat) (v : Word32) (d : Dev) : Dev :=
  let a := fabA p + 0x100
  let old := d.reg a
  let bad := fieldOf v 2 1 = 3
  let new := insField (v &&& 0xFF07FF) 2 1 (if bad then fieldOf old 2 1 else fieldOf v 2 1)
  let d := d.setReg a new
  let d := if bad then d.illegal (Reg.fab p) else d
  if d.nodeId ≠ 0xFFFF ∧ d.dawn.step = .service ∧ (d.dom (36 + p)).state = .on then d.portEnable p (fieldOf v 0 0 == 1) else d

/-- FAB.VC_CFGn (R417, R437). -/
def writeVcCfg (p n : Nat) (v : Word32) (d : Dev) : Dev :=
  let a := fabA p + 0x120 + 4 * n
  let sum := (List.range 8).foldl (fun s i => s + (if i = n then fieldOf v 10 0 else d.vcInit p i)) 0
  if fieldOf v 10 0 < (if n = 4 then 34 else 17) ∨ sum > 1024 then d.illegal (Reg.fab p)
  else d.setReg a (v &&& 0xF07FF)

/-- The registers of IRQ that act on the selected vector or block (R562). -/
def writeIrq (off : Nat) (v : Word32) (d : Dev) : Dev :=
  let n := d.fld 0x5104 10 0
  match off with
  | 0x100 => d.writeDeliver v
  | 0x104 => d.setReg 0x5104 (v &&& 0x7FF)
  | 0x110 => d.setVec n { d.vec n with data := v }
  | 0x114 => d.writeVecCtl v
  | 0x118 => d.setReg 0x5118 (v &&& 0xFFFF)
  | 0x11C =>
    let b := d.fld 0x5118 15 0
    match (List.range 0x418).find? fun p => blkId p == some (b / 256, b % 256) with
    | some p => { d with irq := { d.irq with routes := Tbl.set 0 p (v &&& 0xFFF) d.irq.routes } }
    | none => d
  | _ => d

/-- The DATA registers of a block: first and last offset, and the status register whose BUSY guards them (R666). -/
def dataRegs (ty : Nat) : Option (Nat × Nat × Nat) :=
  match ty with
  | 0x01 => some (0x120, 0x15C, 0x118) | 0x02 => some (0x140, 0x15C, 0x104) | 0x06 => some (0x120, 0x15C, 0x104) | 0x07 => some (0x110, 0x12C, 0x104)
  | 0x09 => some (0x110, 0x12C, 0x104) | 0x0A => some (0x110, 0x12C, 0x104) | 0x0B => some (0x120, 0x13C, 0x104) | 0x0F => some (0x120, 0x13C, 0x104)
  | 0x10 => some (0x110, 0x12C, 0x104) | 0x11 => some (0x120, 0x13C, 0x10C) | 0x13 => some (0x120, 0x15C, 0x104)
  | _ => none

/-- Whether a write goes to a DATA register while its block is BUSY (R666). -/
def dataBusy (d : Dev) (ty page off : Nat) : Bool :=
  match dataRegs ty with
  | some (lo, hi, sts) => decide (lo ≤ off ∧ off ≤ hi) && d.busy (page * 4096 + sts)
  | none => false

/-- A write of a register without behaviour of its own (R14, R16, R17): the fields that software may set. -/
def writePlain (ty page off : Nat) (v : Word32) (d : Dev) : Dev :=
  let a := page * 4096 + off
  match regRow ty off with
  | none => d
  | some r =>
    let new := (d.reg a &&& ~~~r.rw) ||| (v &&& r.rw)
    if ty = 0x0C ∧ off = 0x10C ∧ (fieldOf v 17 16 = 0 ∨ fieldOf v 17 16 = 3) then
      (d.setReg a (insField new 17 16 (fieldOf (d.reg a) 17 16))).illegal page
    else if ty = 0x12 ∧ off = 0x100 then d.setReg a (d.reg a &&& ~~~(v &&& 0x19))
    else d.setReg a new

end Dev

/-! ### Commands written through a command register -/

/-- The state that a meaning answers. -/
def State.after (s : State) (o : Host.Outcome State Fault Refusal) : State := match o with | .next t => t | _ => s

/-- A channel, port, drive, class, engine or half from a number. -/
def chanNo (n : Nat) : ChanNo := ⟨n % 24, Nat.mod_lt _ (by decide)⟩
@[inherit_doc chanNo] def driveNo (n : Nat) : DriveNo := ⟨n % 16, Nat.mod_lt _ (by decide)⟩
@[inherit_doc chanNo] def fin4 (n : Nat) : Fin 4 := ⟨n % 4, Nat.mod_lt _ (by decide)⟩
@[inherit_doc chanNo] def halfNo (n : Nat) : Half := if n = 0 then .west else .east

/-- A write of a command register (R68 and the command tables): the command that OP names; a reserved OP completes MALFORMED. None for an offset
that is no command register. -/
def State.command (ty inst off : Nat) (v : Word32) (s : State) : Option (Host.Outcome State Fault Refusal) :=
  let op := fieldOf v 3 0
  let part : PartId := BitVec.ofNat 12 (fieldOf v 15 4)
  let bad (f : (Dev → Option Status × Dev) → Dev → Dev) : Host.Outcome State Fault Refusal := next (s.onDev (f fun d => (some .malformed, d)))
  match ty, off with
  | 0x01, 0x114 => some (match op with
    | 0 => execGlbNop s | 1 => execPartCreate part (v.getLsbD 16) s | 2 => execPartDestroy part s | 3 => execPartQuery part s | _ => bad Dev.glbCmd)
  | 0x01, 0x188 => some (match op with
    | 0 => execCalNop s | 1 => execOptRecal (fin4 (fieldOf v 5 4)) s | 2 => execOptSave s | _ => bad Dev.calCmd)
  | 0x02, 0x100 => some (match op with
    | 0 => execPwrNop s | 1 => execVote s | 2 => execPartPolicy part s | 3 => execThermPoint s | 4 => execThermSave s | 5 => execPsensePoint s
    | 6 => execPsenseSave s | _ => bad Dev.pwrCmd)
  | 0x04, 0x104 => some (match op with
    | 0 => execCtlNop s | 1 => execSwitchover s | 2 => execStandbyResync s | _ => bad Dev.ctlCmd)
  | 0x06, 0x100 => some (match op with
    | 0 => execSecNop s | 1 => execSlotRead part s | 2 => execSecLogRead s | 3 => execQuietSet part s | 4 => execFkeyFlush part s | 5 => execSvnCommit s
    | _ => bad Dev.secCmd)
  | 0x07, 0x100 =>
    let q : QueueId := BitVec.ofNat 16 (fieldOf v 31 16)
    some (match op with
    | 0 => execOpqNop s | 1 => execQCreate q part s | 2 => execQRead q s | 3 => execQDrain q s | 4 => execQEnable q s | 5 => execQReset q s
    | 6 => execQDestroy q s | 7 => execPartSet part s | 8 => execPartRead part s | 9 => execCoreAssign part s | 10 => execCoreRelease part s
    | 11 => execPartReset part s | _ => bad Dev.opqCmd)
  | 0x09, 0x100 =>
    let r : BitVec 9 := BitVec.ofNat 9 (fieldOf v 24 16)
    some (match op with
    | 0 => execXltNop s | 1 => execCtxRead part s | 2 => execCtxWrite part s | 3 => execInvPage part s | 4 => execInvRange part s | 5 => execInvPart part s
    | 6 => execFaultRead r s | 7 => execFaultResume r s | 8 => execFaultAbort r s | _ => bad Dev.xltCmd)
  | 0x0A, 0x100 =>
    let i : ExtIdx := BitVec.ofNat 15 (fieldOf v 18 4)
    let n : BitVec 12 := BitVec.ofNat 12 (fieldOf v 18 4)
    let sl : BitVec 4 := BitVec.ofNat 4 (fieldOf v 22 19)
    some (match op with
    | 0 => execCohNop s | 1 => execExtRead i s | 2 => execExtAssign i s | 3 => execExtGrant i s | 4 => execExtRestrict i s
    | 5 => execExtRevoke i (BitVec.ofNat 8 (fieldOf v 30 23)) s | 6 => execExtScrub i s | 7 => execHsetRead n sl s | 8 => execHsetWrite n sl s
    | 9 => execRegionCreate n s | 10 => execRegionDestroy n s | _ => bad Dev.extCmd)
  | 0x0A, 0x140 =>
    let n : NodeId := BitVec.ofNat 16 (fieldOf v 19 4)
    some (match op with
    | 0 => execHostNop s | 1 => execHostRead n s | 2 => execClearDead n s | 3 => execDeclareDead n s
    | _ => next (s.onDev (Dev.hostCmd fun d => (.malformed, d))))
  | 0x0B, 0x100 =>
    let p := driveNo (fieldOf v 7 4)
    some (match op with
    | 0 => execTierNop s | 1 => execAreaSet s | 2 => execThatchInit s | 3 => execFlush s | 4 => execDriveFail p s | 5 => execDriveRebuild p s
    | _ => bad Dev.tierCmd)
  | 0x0C, 0x114 =>
    let c := chanNo inst
    some (match op with
    | 0 => execDdrNop c s | 1 => execTrainSave c s | 2 => execTrainCheck c s | _ => bad (Dev.trainCmd inst))
  | 0x0E, 0x108 =>
    let p := Dev.portNo inst
    some (match op with
    | 0 => execFabNop p s | 1 => execRetrain p (BitVec.ofNat 2 (fieldOf v 5 4)) (v.getLsbD 6) s | 2 => execTestStart p s | 3 => execTestStop p s
    | 4 => execClearHeld p s | _ => bad (Dev.portCmd inst))
  | 0x0F, 0x100 => some (match op with
    | 0 => execRteNop s | 1 => execRtRead s | 2 => execRtWrite s | 3 => execTreeRead s | 4 => execTreeWrite s | 5 => execCktOpen s | 6 => execCktClose s
    | 7 => execCktRead s | _ => bad Dev.rteCmd)
  | 0x10, 0x100 =>
    let c := fin4 (fieldOf v 17 16)
    some (match op with
    | 0 => execShpNop s | 1 => execMtrRead part c s | 2 => execMtrWrite part c s | _ => next (s.onDev (Dev.shpCmd fun d => (.malformed, d))))
  | 0x11, 0x108 => some (match op with
    | 0 => execCmpNop s | 1 => execImgBegin s | 2 => execImgWrite s | 3 => execImgEnd s | 4 => execImgDistribute s | _ => bad Dev.cmpCmd)
  | 0x13, 0x100 =>
    let h := halfNo inst
    some (match op with
    | 0 => execRasNop h s | 1 => execRasLogRead h s | 2 => execMarkDevice h s | 3 => execRetireRow h s | 4 => execRetireBank h s
    | 5 => execClearLostSet h s | _ => bad (Dev.rasCmd h))
  | _, _ => none

/-- The effect of a write that its page accepts (R13 to R17, R662 to R675). -/
def State.writeReg (path : Path) (a : Nat) (v : Word32) (s : State) : State :=
  let page := a / 4096
  let off := a % 4096
  match blkId page with
  | none => if page = 0x00E then s.onDev (Dev.setReg a v) else s
  | some (ty, inst) =>
    if off < 0x100 then s.onDev (Dev.writeHeader page off v)
    else if s.dev.dataBusy ty page off then s.onDev (Dev.illegal page)
    else
      match s.command ty inst off v with
      | some o => s.after o
      | none =>
        match ty, off with
        | 0x01, 0x100 => s.onDev (Dev.writeNodeId v)
        | 0x01, 0x11C => s.after (execDeviceResetCommand .firmware v s)
        | 0x03, 0x108 => s.onDev (Dev.writeSyncCfg v)
        | 0x03, 0x120 => s.onDev (Dev.holdLow path a v)
        | 0x03, 0x124 => s.onDev (Dev.writeSetHi path v)
        | 0x05, 0x108 => s.onDev (Dev.holdLow path a v)
        | 0x05, 0x10C => s.onDev fun d =>
          let n := d.fld 0x5104 10 0
          d.setVec n { d.vec n with addr := (v ++ (d.heldLow path 0x5108 &&& 0xFFFFFFFC) : BitVec 64) }
        | 0x05, _ => s.onDev (Dev.writeIrq off v)
        | 0x0B, 0x10C => s.onDev fun d => (d.writePlain ty page off v).cleanerStop
        | 0x0C, 0x104 => s.onDev fun d => (d.writePlain ty page off v).setPanic inst
        | 0x0E, 0x100 => s.onDev (Dev.writePortCfg inst v)
        | 0x11, 0x104 => s.onDev (Dev.writeCompNode v)
        | _, _ =>
          if ty = 0x0E ∧ 0x120 ≤ off ∧ off < 0x140 then s.onDev (Dev.writeVcCfg inst ((off - 0x120) / 4) v)
          else s.onDev (Dev.writePlain ty page off v)

/-- A register write that arrives on a path (R638, R668, R671): checked against HOLDER as it stands, and applied. -/
def State.putReg (path : Path) (a : Nat) (v : Word32) (s : State) : State :=
  let page := a / 4096
  let off := a % 4096
  if a % 4 ≠ 0 then s
  else if off = 0x030 ∧ (blkId page).isSome then s.onDev (Dev.writeOwner path page v)
  else if path ≠ .firmware ∧ !s.dev.writeAnswers path page off then s
  else if s.dev.holdsPage path page then s.writeReg path a v
  else if (blkId page).isSome ∨ page = 0x00E then s.onDev (Dev.refuseWrite path page)
  else s

/-! ### Reads and writes of the two paths (R557, R638, R639, R648) -/

/-- A read of the companion completes; error completions are counted (R639, R657). -/
def State.completeRead (addr : Word32) (size : Nat) (s : State) : State :=
  let (x, s) := if size ≠ 4 then ((.malformed, (0xFFFFFFFF : Word32)), s) else s.answerRead .companion addr
  s.onDev fun d => (if x.1 = .ok then d else d.bump Reg.cmp 0x050 1).emit (.reg .companion x.1 x.2)

/-- COMPANION_REG_READ (R526, R638): in service a read waits while no complex is ACTIVE, except of the SBM page. -/
def State.companionRead (addr : Word32) (size : Nat) (s : State) : State :=
  if s.dev.linkState ≠ 2 then s
  else if s.dev.dawn.step = .service ∧ !s.dev.orders ∧ addr.toNat / 4096 ≠ Reg.sbm ∧ size = 4 then
    s.onDev (Dev.modCmp fun c => { c with reads := c.reads ++ [⟨addr, s.dev.now⟩] })
  else s.completeRead addr size

/-- COMPANION_REG_WRITE (R638): posted. -/
def State.companionWrite (addr : Word32) (size : Nat) (v : Word32) (s : State) : State :=
  if s.dev.linkState ≠ 2 ∨ size ≠ 4 then s else s.putReg .companion addr.toNat v

/-- PLDM_REG_READ (R648, R649): with no ACTIVE complex in service the read gets no answer. -/
def State.sidebandRead (addr : Word32) (s : State) : State :=
  if !s.dev.portUp then s
  else if s.dev.dawn.step = .service ∧ !s.dev.orders ∧ addr.toNat / 4096 ≠ Reg.sbm then
    s.onDev fun d => (d.bump Reg.ctl 0x070 1).emit (.reg .sideband .timeout 0xFFFFFFFF)
  else
    let (x, s) := s.answerRead .sideband addr
    s.onDev (Dev.emit (.reg .sideband x.1 x.2))

/-- PLDM_REG_WRITE (R648, R649, R659). -/
def State.sidebandWrite (addr v : Word32) (s : State) : State :=
  let a := addr.toNat
  let page := a / 4096
  if !s.dev.portUp then s
  else if a % 4 ≠ 0 then s.onDev (Dev.emit (.reg .sideband .malformed 0))
  else if (blkId page).isNone ∧ page ≠ 0x00E then s.onDev (Dev.emit (.reg .sideband .noAccess 0))
  else if !s.dev.readAnswers .sideband page (a % 4096) then s.onDev (Dev.emit (.reg .sideband .stateConflict 0))
  else (s.putReg .sideband a v).onDev (Dev.emit (.reg .sideband .ok 0))

/-- PAIR_LOW_WORD_READ (R13, R667): the value, and the latch of the path. -/
def State.readPairLow (path : Path) (a : Nat) (s : State) : State :=
  if !isPairLow a ∨ !s.dev.readAnswers path (a / 4096) (a % 4096) then s
  else
    let (v, s) := s.readReg path a
    s.onDev (Dev.emit (.reg path .ok v))

/-! ### Meanings -/

/-- PAIR_LOW_WORD_READ (R13). -/
def execPairLowWordRead (path : Path) (a : BitVec 26) (s : State) : Host.Outcome State Fault Refusal := next (s.readPairLow path a.toNat)
/-- PAIR_HIGH_WORD_WRITE (R13). -/
def execPairHighWordWrite (path : Path) (a : BitVec 26) (v : Word32) (s : State) : Host.Outcome State Fault Refusal :=
  next (if isPairHigh a.toNat then s.putReg path a.toNat v else s)
/-- REGISTER_WRITE (R14). -/
def execRegisterWrite (path : Path) (a : BitVec 26) (v : Word32) (s : State) : Host.Outcome State Fault Refusal := next (s.putReg path a.toNat v)
/-- OWNER_WRITE (R669). -/
def execOwnerWrite (path : Path) (page : BitVec 14) (v : Word32) (s : State) : Host.Outcome State Fault Refusal :=
  next (s.onDev (Dev.writeOwner path page.toNat v))
/-- BLK_RESET (R665). -/
def execBlkReset (path : Path) (page : BitVec 14) (s : State) : Host.Outcome State Fault Refusal :=
  next (s.onDev (Dev.accept path page.toNat 0x010 (Dev.blkReset page.toNat)))
/-- CLR_CNT (R663). -/
def execClrCnt (path : Path) (page : BitVec 14) (s : State) : Host.Outcome State Fault Refusal :=
  next (s.onDev (Dev.accept path page.toNat 0x010 (Dev.clrCnt page.toNat)))
/-- ERR_INJ (R663). -/
def execErrInj (path : Path) (page : BitVec 14) (v : Word32) (s : State) : Host.Outcome State Fault Refusal :=
  next (s.onDev (Dev.accept path page.toNat 0x024 (Dev.writeErrInj page.toNat v)))
/-- NODE_ID_WRITE (R673). -/
def execNodeIdWrite (path : Path) (v : Word32) (s : State) : Host.Outcome State Fault Refusal :=
  next (s.onDev (Dev.accept path Reg.glb 0x100 (Dev.writeNodeId v)))
/-- COMP_NODE_WRITE (R654). -/
def execCompNodeWrite (path : Path) (v : Word32) (s : State) : Host.Outcome State Fault Refusal :=
  next (s.onDev (Dev.accept path Reg.cmp 0x104 (Dev.writeCompNode v)))
/-- PORT_ENABLE_WRITE (R437). -/
def execPortEnableWrite (path : Path) (p : PortNo) (v : Word32) (s : State) : Host.Outcome State Fault Refusal :=
  next (s.onDev (Dev.accept path (Reg.fab p.val) 0x100 (Dev.writePortCfg p.val v)))
/-- COMPANION_REG_READ (R638). -/
def execCompanionRegRead (a : Word32) (n : Nat) (s : State) : Host.Outcome State Fault Refusal := next (s.companionRead a n)
/-- COMPANION_REG_WRITE (R638). -/
def execCompanionRegWrite (a : Word32) (n : Nat) (v : Word32) (s : State) : Host.Outcome State Fault Refusal := next (s.companionWrite a n v)
/-- PLDM_REG_READ (R648). -/
def execPldmRegRead (a : Word32) (s : State) : Host.Outcome State Fault Refusal := next (s.sidebandRead a)
/-- PLDM_REG_WRITE (R648). -/
def execPldmRegWrite (a v : Word32) (s : State) : Host.Outcome State Fault Refusal := next (s.sidebandWrite a v)

end Sys2Proof.Machine
end

