-- ==== Sys2Proof/Machine/Dispatch.lean ====
section
/-! DEFINITION. One arm for each command: the call of its meaning. -/

namespace Sys2Proof.Machine

def exec (i : Instr) (s : State) : Host.Outcome State Fault Refusal :=
  match i with
  | .perstNAssert => Sys2Proof.Machine.execPerstNAssert s
  | .perstNRelease straps => Sys2Proof.Machine.execPerstNRelease straps s
  | .auxRailGood straps crystal => Sys2Proof.Machine.execAuxRailGood straps crystal s
  | .auxRailLoss => Sys2Proof.Machine.execAuxRailLoss s
  | .mainInputGood => Sys2Proof.Machine.execMainInputGood s
  | .mainInputLoss => Sys2Proof.Machine.execMainInputLoss s
  | .converterFault => Sys2Proof.Machine.execConverterFault s
  | .referenceStable => Sys2Proof.Machine.execReferenceStable s
  | .deviceResetCommand path value => Sys2Proof.Machine.execDeviceResetCommand path value s
  | .warmReset => Sys2Proof.Machine.execWarmReset s
  | .activationCountReached => Sys2Proof.Machine.execActivationCountReached s
  | .dawnSequenceStart => Sys2Proof.Machine.execDawnSequenceStart s
  | .romStep romDigest chainDigest => Sys2Proof.Machine.execRomStep romDigest chainDigest s
  | .imageVerify => Sys2Proof.Machine.execImageVerify s
  | .powerStep westDigest eastDigest => Sys2Proof.Machine.execPowerStep westDigest eastDigest s
  | .arraysStep faults => Sys2Proof.Machine.execArraysStep faults s
  | .selftestWave failed => Sys2Proof.Machine.execSelftestWave failed s
  | .ddrTraining results => Sys2Proof.Machine.execDdrTraining results s
  | .fillStep => Sys2Proof.Machine.execFillStep s
  | .repairRoundEnd failed => Sys2Proof.Machine.execRepairRoundEnd failed s
  | .handover => Sys2Proof.Machine.execHandover s
  | .handoverTimeout => Sys2Proof.Machine.execHandoverTimeout s
  | .thermalTrip sensor reading => Sys2Proof.Machine.execThermalTrip sensor reading s
  | .temperatureSample raw => Sys2Proof.Machine.execTemperatureSample raw s
  | .powerSample meas est => Sys2Proof.Machine.execPowerSample meas est s
  | .decisionPoint estimates => Sys2Proof.Machine.execDecisionPoint estimates s
  | .paceNoticeReceive node level count => Sys2Proof.Machine.execPaceNoticeReceive node level count s
  | .pwrNop => Sys2Proof.Machine.execPwrNop s
  | .vote => Sys2Proof.Machine.execVote s
  | .partPolicy part => Sys2Proof.Machine.execPartPolicy part s
  | .thermPoint => Sys2Proof.Machine.execThermPoint s
  | .thermSave => Sys2Proof.Machine.execThermSave s
  | .psensePoint => Sys2Proof.Machine.execPsensePoint s
  | .psensePointDone rawMilliwatt => Sys2Proof.Machine.execPsensePointDone rawMilliwatt s
  | .psenseSave => Sys2Proof.Machine.execPsenseSave s
  | .duskEntry cluster => Sys2Proof.Machine.execDuskEntry cluster s
  | .midnightEntry domain => Sys2Proof.Machine.execMidnightEntry domain s
  | .entryStepDone domain => Sys2Proof.Machine.execEntryStepDone domain s
  | .duskSamplerWake cluster => Sys2Proof.Machine.execDuskSamplerWake cluster s
  | .clusterResume cluster => Sys2Proof.Machine.execClusterResume cluster s
  | .domainReturn domain => Sys2Proof.Machine.execDomainReturn domain s
  | .domainUsable domain => Sys2Proof.Machine.execDomainUsable domain s
  | .plannedShutdown port => Sys2Proof.Machine.execPlannedShutdown port s
  | .shutdownDrainEnd port => Sys2Proof.Machine.execShutdownDrainEnd port s
  | .syncSend => Sys2Proof.Machine.execSyncSend s
  | .syncReceive port msg => Sys2Proof.Machine.execSyncReceive port msg s
  | .echoReceive port msg => Sys2Proof.Machine.execEchoReceive port msg s
  | .freezeEnd => Sys2Proof.Machine.execFreezeEnd s
  | .holdoverEntry => Sys2Proof.Machine.execHoldoverEntry s
  | .exchangeTimeout => Sys2Proof.Machine.execExchangeTimeout s
  | .setHiWrite path value => Sys2Proof.Machine.execSetHiWrite path value s
  | .syncRoleWrite path value => Sys2Proof.Machine.execSyncRoleWrite path value s
  | .pairLowWordRead path addr => Sys2Proof.Machine.execPairLowWordRead path addr s
  | .pairHighWordWrite path addr value => Sys2Proof.Machine.execPairHighWordWrite path addr value s
  | .registerWrite path addr value => Sys2Proof.Machine.execRegisterWrite path addr value s
  | .ownerWrite path page value => Sys2Proof.Machine.execOwnerWrite path page value s
  | .blkReset path page => Sys2Proof.Machine.execBlkReset path page s
  | .clrCnt path page => Sys2Proof.Machine.execClrCnt path page s
  | .errInj path page value => Sys2Proof.Machine.execErrInj path page value s
  | .nodeIdWrite path value => Sys2Proof.Machine.execNodeIdWrite path value s
  | .compNodeWrite path value => Sys2Proof.Machine.execCompNodeWrite path value s
  | .portEnableWrite path port value => Sys2Proof.Machine.execPortEnableWrite path port value s
  | .deliverWrite path value => Sys2Proof.Machine.execDeliverWrite path value s
  | .vectorUnmask path value => Sys2Proof.Machine.execVectorUnmask path value s
  | .companionRegRead addr size => Sys2Proof.Machine.execCompanionRegRead addr size s
  | .companionRegWrite addr size value => Sys2Proof.Machine.execCompanionRegWrite addr size value s
  | .regReadTimeout => Sys2Proof.Machine.execRegReadTimeout s
  | .cohNop => Sys2Proof.Machine.execCohNop s
  | .extRead index => Sys2Proof.Machine.execExtRead index s
  | .extAssign index => Sys2Proof.Machine.execExtAssign index s
  | .extInitDone index => Sys2Proof.Machine.execExtInitDone index s
  | .extGrant index => Sys2Proof.Machine.execExtGrant index s
  | .extRestrict index => Sys2Proof.Machine.execExtRestrict index s
  | .extRevoke index count => Sys2Proof.Machine.execExtRevoke index count s
  | .changeEnd change => Sys2Proof.Machine.execChangeEnd change s
  | .sweepPassStart half => Sys2Proof.Machine.execSweepPassStart half s
  | .sweepPassEnd half => Sys2Proof.Machine.execSweepPassEnd half s
  | .extScrub index => Sys2Proof.Machine.execExtScrub index s
  | .scrubDone index => Sys2Proof.Machine.execScrubDone index s
  | .hsetRead set slot => Sys2Proof.Machine.execHsetRead set slot s
  | .hsetWrite set slot => Sys2Proof.Machine.execHsetWrite set slot s
  | .regionCreate region => Sys2Proof.Machine.execRegionCreate region s
  | .regionDestroy region => Sys2Proof.Machine.execRegionDestroy region s
  | .hostNop => Sys2Proof.Machine.execHostNop s
  | .hostRead node => Sys2Proof.Machine.execHostRead node s
  | .clearDead node => Sys2Proof.Machine.execClearDead node s
  | .declareDead node => Sys2Proof.Machine.execDeclareDead node s
  | .loadShared h nc => Sys2Proof.Machine.execLoadShared h nc s
  | .loadOwn h => Sys2Proof.Machine.execLoadOwn h s
  | .store h data => Sys2Proof.Machine.execStore h data s
  | .writeInval h data poison => Sys2Proof.Machine.execWriteInval h data poison s
  | .writePartial h data mask => Sys2Proof.Machine.execWritePartial h data mask s
  | .atomic h aop wide operand => Sys2Proof.Machine.execAtomic h aop wide operand s
  | .snoopResponse via node tag status data wbPending poison fkey => Sys2Proof.Machine.execSnoopResponse via node tag status data wbPending poison fkey s
  | .grantAcknowledgement node tag => Sys2Proof.Machine.execGrantAcknowledgement node tag s
  | .answerPoint line => Sys2Proof.Machine.execAnswerPoint line s
  | .snoopDeadline line node => Sys2Proof.Machine.execSnoopDeadline line node s
  | .storeWaitExpiry line => Sys2Proof.Machine.execStoreWaitExpiry line s
  | .grantWaitExpiry line => Sys2Proof.Machine.execGrantWaitExpiry line s
  | .reservationLapse line node tag => Sys2Proof.Machine.execReservationLapse line node tag s
  | .probeInterval node => Sys2Proof.Machine.execProbeInterval node s
  | .probeAnswer node nonce => Sys2Proof.Machine.execProbeAnswer node nonce s
  | .suspicionExpiry node => Sys2Proof.Machine.execSuspicionExpiry node s
  | .probe via node tag nonce => Sys2Proof.Machine.execProbe via node tag nonce s
  | .replyCacheExpiry half src tag => Sys2Proof.Machine.execReplyCacheExpiry half src tag s
  | .deviceTransactionAnswer via node tag ans => Sys2Proof.Machine.execDeviceTransactionAnswer via node tag ans s
  | .dtoExpiry node tag => Sys2Proof.Machine.execDtoExpiry node tag s
  | .engineRetry access => Sys2Proof.Machine.execEngineRetry access s
  | .engineAccess who part va kind => Sys2Proof.Machine.execEngineAccess who part va kind s
  | .pageTableWalk half => Sys2Proof.Machine.execPageTableWalk half s
  | .walkTableRead walk => Sys2Proof.Machine.execWalkTableRead walk s
  | .walkTimeout walk => Sys2Proof.Machine.execWalkTimeout walk s
  | .prefetchWalk op stream half => Sys2Proof.Machine.execPrefetchWalk op stream half s
  | .faultHoldExpiry record => Sys2Proof.Machine.execFaultHoldExpiry record s
  | .xltNop => Sys2Proof.Machine.execXltNop s
  | .ctxRead part => Sys2Proof.Machine.execCtxRead part s
  | .ctxWrite part => Sys2Proof.Machine.execCtxWrite part s
  | .invPage part => Sys2Proof.Machine.execInvPage part s
  | .invRange part => Sys2Proof.Machine.execInvRange part s
  | .invPart part => Sys2Proof.Machine.execInvPart part s
  | .invalidationDrainEnd => Sys2Proof.Machine.execInvalidationDrainEnd s
  | .faultRead record => Sys2Proof.Machine.execFaultRead record s
  | .faultResume record => Sys2Proof.Machine.execFaultResume record s
  | .faultAbort record => Sys2Proof.Machine.execFaultAbort record s
  | .tierNop => Sys2Proof.Machine.execTierNop s
  | .areaSet => Sys2Proof.Machine.execAreaSet s
  | .thatchInit => Sys2Proof.Machine.execThatchInit s
  | .flush => Sys2Proof.Machine.execFlush s
  | .driveFail drive => Sys2Proof.Machine.execDriveFail drive s
  | .driveRebuild drive => Sys2Proof.Machine.execDriveRebuild drive s
  | .rebuildStripe old => Sys2Proof.Machine.execRebuildStripe old s
  | .fillFrameReady block => Sys2Proof.Machine.execFillFrameReady block s
  | .driveReadComplete block granules => Sys2Proof.Machine.execDriveReadComplete block granules s
  | .evictionRecallDone block => Sys2Proof.Machine.execEvictionRecallDone block s
  | .writeback block old => Sys2Proof.Machine.execWriteback block old s
  | .writebackComplete block => Sys2Proof.Machine.execWritebackComplete block s
  | .cleanerStart => Sys2Proof.Machine.execCleanerStart s
  | .ageStep => Sys2Proof.Machine.execAgeStep s
  | .driveCommandTimeout drive block => Sys2Proof.Machine.execDriveCommandTimeout drive block s
  | .driveLinkDown drive removed => Sys2Proof.Machine.execDriveLinkDown drive removed s
  | .driveFatalStatus drive => Sys2Proof.Machine.execDriveFatalStatus drive s
  | .ddrNop ch => Sys2Proof.Machine.execDdrNop ch s
  | .trainSave ch => Sys2Proof.Machine.execTrainSave ch s
  | .trainCheck ch => Sys2Proof.Machine.execTrainCheck ch s
  | .trainCheckDone ch pass => Sys2Proof.Machine.execTrainCheckDone ch pass s
  | .refreshDue ch rank => Sys2Proof.Machine.execRefreshDue ch rank s
  | .mr4Poll ch hot => Sys2Proof.Machine.execMr4Poll ch hot s
  | .dramReadIssue ch => Sys2Proof.Machine.execDramReadIssue ch s
  | .neighbourRefresh ch bank => Sys2Proof.Machine.execNeighbourRefresh ch bank s
  | .refreshWindowClear ch rank => Sys2Proof.Machine.execRefreshWindowClear ch rank s
  | .parityAlert ch => Sys2Proof.Machine.execParityAlert ch s
  | .parityReplay ch => Sys2Proof.Machine.execParityReplay ch s
  | .caRetrain ch alertAgain => Sys2Proof.Machine.execCaRetrain ch alertAgain s
  | .periodicCalibration ch rank tracking => Sys2Proof.Machine.execPeriodicCalibration ch rank tracking s
  | .dramReadData site => Sys2Proof.Machine.execDramReadData site s
  | .scrubRead ch sub flips => Sys2Proof.Machine.execScrubRead ch sub flips s
  | .rasNop half => Sys2Proof.Machine.execRasNop half s
  | .rasLogRead half => Sys2Proof.Machine.execRasLogRead half s
  | .markDevice half => Sys2Proof.Machine.execMarkDevice half s
  | .retireRow half => Sys2Proof.Machine.execRetireRow half s
  | .retireBank half => Sys2Proof.Machine.execRetireBank half s
  | .clearLostSet half => Sys2Proof.Machine.execClearLostSet half s
  | .opqNop => Sys2Proof.Machine.execOpqNop s
  | .qCreate queue part => Sys2Proof.Machine.execQCreate queue part s
  | .qRead queue => Sys2Proof.Machine.execQRead queue s
  | .qDrain queue => Sys2Proof.Machine.execQDrain queue s
  | .qEnable queue => Sys2Proof.Machine.execQEnable queue s
  | .qReset queue => Sys2Proof.Machine.execQReset queue s
  | .qDestroy queue => Sys2Proof.Machine.execQDestroy queue s
  | .partSet part => Sys2Proof.Machine.execPartSet part s
  | .partRead part => Sys2Proof.Machine.execPartRead part s
  | .coreAssign part => Sys2Proof.Machine.execCoreAssign part s
  | .coreRelease part => Sys2Proof.Machine.execCoreRelease part s
  | .partReset part => Sys2Proof.Machine.execPartReset part s
  | .doorbellWrite h form => Sys2Proof.Machine.execDoorbellWrite h form s
  | .contextReload queue => Sys2Proof.Machine.execContextReload queue s
  | .descriptorFetch queue => Sys2Proof.Machine.execDescriptorFetch queue s
  | .operationStart op => Sys2Proof.Machine.execOperationStart op s
  | .launchCountReached op => Sys2Proof.Machine.execLaunchCountReached op s
  | .unitTake op core => Sys2Proof.Machine.execUnitTake op core s
  | .unitWritePhase op unit => Sys2Proof.Machine.execUnitWritePhase op unit s
  | .unitDone op unit => Sys2Proof.Machine.execUnitDone op unit s
  | .timeBudgetExpiry op => Sys2Proof.Machine.execTimeBudgetExpiry op s
  | .completionRecordWrite queue => Sys2Proof.Machine.execCompletionRecordWrite queue s
  | .headLinePoll queue => Sys2Proof.Machine.execHeadLinePoll queue s
  | .resetRecordTimeout queue => Sys2Proof.Machine.execResetRecordTimeout queue s
  | .queueStall queue => Sys2Proof.Machine.execQueueStall queue s
  | .gatherReduce op unit => Sys2Proof.Machine.execGatherReduce op unit s
  | .scatterUpdate op unit => Sys2Proof.Machine.execScatterUpdate op unit s
  | .attend op unit => Sys2Proof.Machine.execAttend op unit s
  | .scanScoreTopk op unit => Sys2Proof.Machine.execScanScoreTopk op unit s
  | .hashProbe op unit => Sys2Proof.Machine.execHashProbe op unit s
  | .filter op unit => Sys2Proof.Machine.execFilter op unit s
  | .map op unit => Sys2Proof.Machine.execMap op unit s
  | .copy op unit => Sys2Proof.Machine.execCopy op unit s
  | .move op unit => Sys2Proof.Machine.execMove op unit s
  | .fill op unit => Sys2Proof.Machine.execFill op unit s
  | .atomicBatch op unit => Sys2Proof.Machine.execAtomicBatch op unit s
  | .publish op => Sys2Proof.Machine.execPublish op s
  | .publishDrainEnd region => Sys2Proof.Machine.execPublishDrainEnd region s
  | .advise op => Sys2Proof.Machine.execAdvise op s
  | .fence op => Sys2Proof.Machine.execFence op s
  | .signal op => Sys2Proof.Machine.execSignal op s
  | .waitCount op => Sys2Proof.Machine.execWaitCount op s
  | .waitCountReached op => Sys2Proof.Machine.execWaitCountReached op s
  | .saveState op => Sys2Proof.Machine.execSaveState op s
  | .restoreState op => Sys2Proof.Machine.execRestoreState op s
  | .microNop => Sys2Proof.Machine.execMicroNop s
  | .add t d a b => Sys2Proof.Machine.execAdd t d a b s
  | .sub t d a b => Sys2Proof.Machine.execSub t d a b s
  | .mul t d a b => Sys2Proof.Machine.execMul t d a b s
  | .fma d a b c => Sys2Proof.Machine.execFma d a b c s
  | .min t d a b => Sys2Proof.Machine.execMin t d a b s
  | .max t d a b => Sys2Proof.Machine.execMax t d a b s
  | .abs t d a => Sys2Proof.Machine.execAbs t d a s
  | .neg t d a => Sys2Proof.Machine.execNeg t d a s
  | .cmp t cond d a b => Sys2Proof.Machine.execCmp t cond d a b s
  | .sel d a b c => Sys2Proof.Machine.execSel d a b c s
  | .cvt mode d a => Sys2Proof.Machine.execCvt mode d a s
  | .floor d a => Sys2Proof.Machine.execFloor d a s
  | .bkt d a => Sys2Proof.Machine.execBkt d a s
  | .hash high d a b => Sys2Proof.Machine.execHash high d a b s
  | .exp d a => Sys2Proof.Machine.execExp d a s
  | .log1p d a => Sys2Proof.Machine.execLog1p d a s
  | .rsqrt d a => Sys2Proof.Machine.execRsqrt d a s
  | .ldc d index => Sys2Proof.Machine.execLdc d index s
  | .mov d a => Sys2Proof.Machine.execMov d a s
  | .dataFrame port frame => Sys2Proof.Machine.execDataFrame port frame s
  | .status port frame => Sys2Proof.Machine.execStatus port frame s
  | .sreq port frame => Sys2Proof.Machine.execSreq port frame s
  | .linkReset port frame => Sys2Proof.Machine.execLinkReset port frame s
  | .ts port frame => Sys2Proof.Machine.execTs port frame s
  | .linkDown port frame => Sys2Proof.Machine.execLinkDown port frame s
  | .testFrame port frame => Sys2Proof.Machine.execTestFrame port frame s
  | .ackTimerExpiry port => Sys2Proof.Machine.execAckTimerExpiry port s
  | .sreqRepeat port seq => Sys2Proof.Machine.execSreqRepeat port seq s
  | .coalesceTimer port => Sys2Proof.Machine.execCoalesceTimer port s
  | .statusTimer port => Sys2Proof.Machine.execStatusTimer port s
  | .leakReset port => Sys2Proof.Machine.execLeakReset port s
  | .lossOfLock port => Sys2Proof.Machine.execLossOfLock port s
  | .quiesceEnd port => Sys2Proof.Machine.execQuiesceEnd port s
  | .tuneEnd port rxGood => Sys2Proof.Machine.execTuneEnd port rxGood s
  | .alignEnd port locked => Sys2Proof.Machine.execAlignEnd port locked s
  | .negotiateEnd port => Sys2Proof.Machine.execNegotiateEnd port s
  | .verifyEnd port bad => Sys2Proof.Machine.execVerifyEnd port bad s
  | .resumeEnd port => Sys2Proof.Machine.execResumeEnd port s
  | .stepLimitExpiry port => Sys2Proof.Machine.execStepLimitExpiry port s
  | .darkCheck port light => Sys2Proof.Machine.execDarkCheck port light s
  | .downRetry port => Sys2Proof.Machine.execDownRetry port s
  | .fabNop port => Sys2Proof.Machine.execFabNop port s
  | .retrain port width halfSpeed => Sys2Proof.Machine.execRetrain port width halfSpeed s
  | .testStart port => Sys2Proof.Machine.execTestStart port s
  | .testStop port => Sys2Proof.Machine.execTestStop port s
  | .clearHeld port => Sys2Proof.Machine.execClearHeld port s
  | .fabricPacket port => Sys2Proof.Machine.execFabricPacket port s
  | .transitLifetimeExpiry packet => Sys2Proof.Machine.execTransitLifetimeExpiry packet s
  | .mcast via pkt => Sys2Proof.Machine.execMcast via pkt s
  | .notice via pkt => Sys2Proof.Machine.execNotice via pkt s
  | .branchPrune tree port => Sys2Proof.Machine.execBranchPrune tree port s
  | .cktSetup port pkt => Sys2Proof.Machine.execCktSetup port pkt s
  | .cktConfirm port pkt => Sys2Proof.Machine.execCktConfirm port pkt s
  | .cktReject port pkt => Sys2Proof.Machine.execCktReject port pkt s
  | .cktTear port pkt => Sys2Proof.Machine.execCktTear port pkt s
  | .cktSetupTimeout label => Sys2Proof.Machine.execCktSetupTimeout label s
  | .battenCircuitFrame port frame => Sys2Proof.Machine.execBattenCircuitFrame port frame s
  | .cktAck pkt => Sys2Proof.Machine.execCktAck pkt s
  | .circuitFrameTimeout label ftag => Sys2Proof.Machine.execCircuitFrameTimeout label ftag s
  | .rteNop => Sys2Proof.Machine.execRteNop s
  | .rtRead => Sys2Proof.Machine.execRtRead s
  | .rtWrite => Sys2Proof.Machine.execRtWrite s
  | .treeRead => Sys2Proof.Machine.execTreeRead s
  | .treeWrite => Sys2Proof.Machine.execTreeWrite s
  | .cktOpen => Sys2Proof.Machine.execCktOpen s
  | .cktClose => Sys2Proof.Machine.execCktClose s
  | .cktRead => Sys2Proof.Machine.execCktRead s
  | .shpNop => Sys2Proof.Machine.execShpNop s
  | .mtrRead part cls => Sys2Proof.Machine.execMtrRead part cls s
  | .mtrWrite part cls => Sys2Proof.Machine.execMtrWrite part cls s
  | .secNop => Sys2Proof.Machine.execSecNop s
  | .slotRead part => Sys2Proof.Machine.execSlotRead part s
  | .secLogRead => Sys2Proof.Machine.execSecLogRead s
  | .quietSet part => Sys2Proof.Machine.execQuietSet part s
  | .fkeyFlush part => Sys2Proof.Machine.execFkeyFlush part s
  | .svnCommit => Sys2Proof.Machine.execSvnCommit s
  | .mailboxRequest h line => Sys2Proof.Machine.execMailboxRequest h line s
  | .mailboxResponse part payload => Sys2Proof.Machine.execMailboxResponse part payload s
  | .spdmRequest via code body => Sys2Proof.Machine.execSpdmRequest via code body s
  | .keyExchange via mutualAuth => Sys2Proof.Machine.execKeyExchange via mutualAuth s
  | .finish session leafKeyHash verified => Sys2Proof.Machine.execFinish session leafKeyHash verified s
  | .endSession session => Sys2Proof.Machine.execEndSession session s
  | .measurements session nonce => Sys2Proof.Machine.execMeasurements session nonce s
  | .heartbeatMissed session => Sys2Proof.Machine.execHeartbeatMissed session s
  | .fkeyInstall session args => Sys2Proof.Machine.execFkeyInstall session args s
  | .fkeyDestroy session index => Sys2Proof.Machine.execFkeyDestroy session index s
  | .xltCommand session cmd image => Sys2Proof.Machine.execXltCommand session cmd image s
  | .opqCommand session cmd image => Sys2Proof.Machine.execOpqCommand session cmd image s
  | .extAccept session index gen => Sys2Proof.Machine.execExtAccept session index gen s
  | .quietSetMessage session data => Sys2Proof.Machine.execQuietSetMessage session data s
  | .tenantLogRead session seq => Sys2Proof.Machine.execTenantLogRead session seq s
  | .debugChallenge session => Sys2Proof.Machine.execDebugChallenge session s
  | .debugUnlock session signature => Sys2Proof.Machine.execDebugUnlock session signature s
  | .ownerSet session key => Sys2Proof.Machine.execOwnerSet session key s
  | .debugDisable session signature => Sys2Proof.Machine.execDebugDisable session signature s
  | .quietIssueSlot part => Sys2Proof.Machine.execQuietIssueSlot part s
  | .quietRelease part item => Sys2Proof.Machine.execQuietRelease part item s
  | .glbNop => Sys2Proof.Machine.execGlbNop s
  | .partCreate part conf => Sys2Proof.Machine.execPartCreate part conf s
  | .partDestroy part => Sys2Proof.Machine.execPartDestroy part s
  | .partQuery part => Sys2Proof.Machine.execPartQuery part s
  | .calNop => Sys2Proof.Machine.execCalNop s
  | .optRecal engine => Sys2Proof.Machine.execOptRecal engine s
  | .optSave => Sys2Proof.Machine.execOptSave s
  | .ctlNop => Sys2Proof.Machine.execCtlNop s
  | .switchover => Sys2Proof.Machine.execSwitchover s
  | .standbyResync => Sys2Proof.Machine.execStandbyResync s
  | .controlInput input => Sys2Proof.Machine.execControlInput input s
  | .controlMessage from_ csn egress => Sys2Proof.Machine.execControlMessage from_ csn egress s
  | .ridgeStatusSend half => Sys2Proof.Machine.execRidgeStatusSend half s
  | .ridgeStatus half msg => Sys2Proof.Machine.execRidgeStatus half msg s
  | .ridgeFaultTakeover => Sys2Proof.Machine.execRidgeFaultTakeover s
  | .peerLost half => Sys2Proof.Machine.execPeerLost half s
  | .ridgeClaim half => Sys2Proof.Machine.execRidgeClaim half s
  | .claimWaitExpiry half => Sys2Proof.Machine.execClaimWaitExpiry half s
  | .lockstepMismatch half => Sys2Proof.Machine.execLockstepMismatch half s
  | .controlMemoryError half => Sys2Proof.Machine.execControlMemoryError half s
  | .watchdogWarning half => Sys2Proof.Machine.execWatchdogWarning half s
  | .controlWatchdogExpiry half => Sys2Proof.Machine.execControlWatchdogExpiry half s
  | .resyncDone half => Sys2Proof.Machine.execResyncDone half s
  | .heartbeat core => Sys2Proof.Machine.execHeartbeat core s
  | .heartbeatTimeout core => Sys2Proof.Machine.execHeartbeatTimeout core s
  | .fetchTrap core => Sys2Proof.Machine.execFetchTrap core s
  | .interruptArrival half source => Sys2Proof.Machine.execInterruptArrival half source s
  | .endOfInterrupt half core source => Sys2Proof.Machine.execEndOfInterrupt half core source s
  | .vectorArrival vector => Sys2Proof.Machine.execVectorArrival vector s
  | .sidebandWatchdogExpiry half => Sys2Proof.Machine.execSidebandWatchdogExpiry half s
  | .companionFlit flit => Sys2Proof.Machine.execCompanionFlit flit s
  | .companionRetrain lossOfLock => Sys2Proof.Machine.execCompanionRetrain lossOfLock s
  | .companionLinkActive => Sys2Proof.Machine.execCompanionLinkActive s
  | .companionTrainRetry => Sys2Proof.Machine.execCompanionTrainRetry s
  | .heldSnoopRelease => Sys2Proof.Machine.execHeldSnoopRelease s
  | .mctpMessage sideband msgType body => Sys2Proof.Machine.execMctpMessage sideband msgType body s
  | .cmpNop => Sys2Proof.Machine.execCmpNop s
  | .imgBegin => Sys2Proof.Machine.execImgBegin s
  | .imgEraseDone => Sys2Proof.Machine.execImgEraseDone s
  | .imgWrite => Sys2Proof.Machine.execImgWrite s
  | .imgEnd => Sys2Proof.Machine.execImgEnd s
  | .imgDistribute => Sys2Proof.Machine.execImgDistribute s
  | .fwFrag frag => Sys2Proof.Machine.execFwFrag frag s
  | .fragmentTimeout => Sys2Proof.Machine.execFragmentTimeout s
  | .fragmentFetch index data => Sys2Proof.Machine.execFragmentFetch index data s
  | .entdaa addr => Sys2Proof.Machine.execEntdaa addr s
  | .setdasa addr => Sys2Proof.Machine.execSetdasa addr s
  | .rstdaa => Sys2Proof.Machine.execRstdaa s
  | .enec events => Sys2Proof.Machine.execEnec events s
  | .disec events => Sys2Proof.Machine.execDisec events s
  | .getpid => Sys2Proof.Machine.execGetpid s
  | .getbcr => Sys2Proof.Machine.execGetbcr s
  | .getdcr => Sys2Proof.Machine.execGetdcr s
  | .getstatus => Sys2Proof.Machine.execGetstatus s
  | .getmrl => Sys2Proof.Machine.execGetmrl s
  | .getmwl => Sys2Proof.Machine.execGetmwl s
  | .setmrl len => Sys2Proof.Machine.execSetmrl len s
  | .setmwl len => Sys2Proof.Machine.execSetmwl len s
  | .setEndpointId eid => Sys2Proof.Machine.execSetEndpointId eid s
  | .getEndpointId => Sys2Proof.Machine.execGetEndpointId s
  | .getEndpointUuid => Sys2Proof.Machine.execGetEndpointUuid s
  | .getMctpVersionSupport => Sys2Proof.Machine.execGetMctpVersionSupport s
  | .getMessageTypeSupport => Sys2Proof.Machine.execGetMessageTypeSupport s
  | .getTid => Sys2Proof.Machine.execGetTid s
  | .setTid tid => Sys2Proof.Machine.execSetTid tid s
  | .getPldmVersion => Sys2Proof.Machine.execGetPldmVersion s
  | .getPldmTypes => Sys2Proof.Machine.execGetPldmTypes s
  | .getPldmCommands pldmType => Sys2Proof.Machine.execGetPldmCommands pldmType s
  | .getPdrRepositoryInfo => Sys2Proof.Machine.execGetPdrRepositoryInfo s
  | .getPdr record => Sys2Proof.Machine.execGetPdr record s
  | .getSensorReading id => Sys2Proof.Machine.execGetSensorReading id s
  | .getStateSensorReadings id => Sys2Proof.Machine.execGetStateSensorReadings id s
  | .setStateEffecterStates id state => Sys2Proof.Machine.execSetStateEffecterStates id state s
  | .getStateEffecterStates id => Sys2Proof.Machine.execGetStateEffecterStates id s
  | .queryDeviceIdentifiers => Sys2Proof.Machine.execQueryDeviceIdentifiers s
  | .getFirmwareParameters => Sys2Proof.Machine.execGetFirmwareParameters s
  | .requestUpdate => Sys2Proof.Machine.execRequestUpdate s
  | .passComponentTable => Sys2Proof.Machine.execPassComponentTable s
  | .updateComponent => Sys2Proof.Machine.execUpdateComponent s
  | .requestFirmwareData data => Sys2Proof.Machine.execRequestFirmwareData data s
  | .transferComplete => Sys2Proof.Machine.execTransferComplete s
  | .verifyComplete => Sys2Proof.Machine.execVerifyComplete s
  | .applyComplete => Sys2Proof.Machine.execApplyComplete s
  | .activateFirmware => Sys2Proof.Machine.execActivateFirmware s
  | .getStatus => Sys2Proof.Machine.execGetStatus s
  | .cancelUpdateComponent => Sys2Proof.Machine.execCancelUpdateComponent s
  | .cancelUpdate => Sys2Proof.Machine.execCancelUpdate s
  | .pldmRegRead addr => Sys2Proof.Machine.execPldmRegRead addr s
  | .pldmRegWrite addr value => Sys2Proof.Machine.execPldmRegWrite addr value s
  | .pldmLogRead seq => Sys2Proof.Machine.execPldmLogRead seq s
  | .scrubLapAlarm ch => Sys2Proof.Machine.execScrubLapAlarm ch s
  | .aerError drive correctable => Sys2Proof.Machine.execAerError drive correctable s
  | .companionLinkDown => Sys2Proof.Machine.execCompanionLinkDown s
  | .driveBringUpDone drives => Sys2Proof.Machine.execDriveBringUpDone drives s
  | .coreRefillDone core => Sys2Proof.Machine.execCoreRefillDone core s
  | .coreReloadDone core => Sys2Proof.Machine.execCoreReloadDone core s
  | .optRecalDone => Sys2Proof.Machine.execOptRecalDone s
  | .svnCommitDone => Sys2Proof.Machine.execSvnCommitDone s
  | .debugPortAccess => Sys2Proof.Machine.execDebugPortAccess s
  | .circuitFrameResend label ftag => Sys2Proof.Machine.execCircuitFrameResend label ftag s

end Sys2Proof.Machine
end

