-- ==== Sys2Proof/Machine/Tick.lean ====
section
/-! DEFINITION. What time alone does: 1 ns passes, the global count advances, and the counters that count clocks of a condition. -/

namespace Sys2Proof.Machine

namespace Dev

/-- The whole cycles of a clock of `num` / `den` GHz that end in the nanosecond after `t`. -/
def cyclesAt (num den t : Nat) : Nat := (t + 1) * num / den - t * num / den

/-- The global count advances by 1 in each ns (R369), once it has started (R370) and unless a freeze holds it (R379). -/
def countNs (d : Dev) : Dev :=
  if d.gtc.running ∧ d.gtc.freeze ≤ d.now then { d with gtc := { d.gtc with count := d.gtc.count + 1 } } else d

/-- Mesh cycles with the latency port of a channel in panic (R209, R234); the mesh runs at 1.6 GHz (R39). -/
def countPanic (d : Dev) : Dev :=
  (List.range 24).foldl
    (fun (x : Dev) c => if x.fld (ddrA c + 0x100) 5 5 = 1 then x.bump (Reg.ddr c) 0x070 (cyclesAt 8 5 d.now) else x) d

/-- Port clocks with a replay buffer that is full (R439); the port clock is 1.5625 GHz (R399) and the buffer holds 1,024 frames (R407). -/
def countReplay (d : Dev) : Dev :=
  (List.range 24).foldl
    (fun (x : Dev) p => if (x.port p).replay.length ≥ 1024 then x.bump (Reg.fab p) 0x098 (cyclesAt 25 16 d.now) else x) d

/-- One nanosecond passes. -/
def tick (d : Dev) : Dev :=
  let x := d.countReplay.countPanic.countNs
  { x with now := x.now + 1 }

end Dev

/-- The step of the block when no command waits (R372: a duration passes whether or not the global count runs). A distribution that waits for lines
of its image goes on here, and so do control messages that wait for a block (R670). -/
def State.tick (s : State) : State := s.onDev fun d => (d.tick.spreadStep s.nv.fuses).runMsgs

end Sys2Proof.Machine
end

