-- ==== Sys2Proof/Machine/Pins.lean ====
section
/-! DEFINITION. What the device's output lands show (R586, R625, R650, R693): functions of the state, with no field of their own. -/

namespace Sys2Proof.Machine

/-- What an output land shows: driven low or high, released (an open drain that pulls nothing), or floating. -/
inductive PinLevel where
  | low
  | high
  | released
  | floats
deriving DecidableEq, Repr

namespace Dev

/-- An open-drain output that is low while a condition holds and the auxiliary rail is present (R650). -/
def openDrain (d : Dev) (pulls : Bool) : PinLevel := if d.dawn.auxGood && pulls then .low else .released

/-- READY (R650, R693): high in SERVICE only; it floats without the auxiliary rail. -/
def pinReady (d : Dev) : PinLevel :=
  if !d.dawn.auxGood then .floats else if d.dawn.powered && d.dawn.step == .service then .high else .low

/-- ALERT_N (R650): low while SBM.ALERT_STS AND SBM.ALERT_EN is not 0. -/
def pinAlert (d : Dev) : PinLevel := d.openDrain (d.reg 0x1100 &&& d.reg 0x1104 != 0)

/-- THERMTRIP_N (R625, R650): low from a trip until a cold reset. -/
def pinThermTrip (d : Dev) : PinLevel := d.openDrain d.dawn.tripped

/-- PWR_FAULT_N (R650): low from the loss of a main input that had been good, or a converter fault, until the main input is good again. -/
def pinPwrFault (d : Dev) : PinLevel := d.openDrain ((d.dawn.mainSeen && !d.dawn.mainGood) || d.dawn.convBad)

/-- Whether the outputs of a unit are in high impedance, or a fibre's transmitter is dark (R693): without the auxiliary rail, while the halves are
unpowered, and while the unit's own domain is in Midnight. The domains are the root ports (PCIe lanes), the companion link and the optical ports; the
DDR and DIMM management lands have none. -/
def outputsOff (d : Dev) (domain : Option Nat) : Bool :=
  !d.dawn.auxGood || !d.dawn.powered || match domain with | some n => (d.dom n).state == .midnight | none => false

/-- RP_PERST_Np (R586, R650, R693): driven low until THATCH_INIT or DRIVE_REBUILD releases it; it floats without power and in Midnight. -/
def pinPortReset (d : Dev) (p : DriveNo) : PinLevel :=
  if d.outputsOff (some (60 + p.val)) then .floats
  else if (Tbl.get driveReset d.tier.drives p.val).released then .high
  else .low

/-- DRAM_RESET_N of a channel (R693): driven low after POWER and released at DDR training; it floats without power. -/
def pinDramReset (d : Dev) (c : ChanNo) : PinLevel :=
  if d.outputsOff none then .floats
  else
    let trains : Bool := match d.dawn.step with | .ddr | .fill | .handover | .service => true | _ => d.dawn.warm
    if trains || d.fld (ddrA c.val + 0x100) 1 0 != 0 then .high else .low

/-- XTAL_OUT (R689, R693): it oscillates where the auxiliary rail and a working crystal are present. -/
def pinXtal (d : Dev) : Bool := d.dawn.auxGood && d.dawn.crystal

end Dev

end Sys2Proof.Machine
end

