-- ==== Sys2Proof/Safety.lean ====
section
/-! DEFINITION. The terms in which claims about the machine are stated: what a command answers, the parts of the state that it leaves alone,
and the invariants of the machine. -/

namespace Sys2Proof.Machine

/-- A command answers a next state that has a property. -/
def Completes (c : Instr) (s : State) (p : State → Prop) : Prop := ∃ t, exec c s = .next t ∧ p t

/-- The device without what a notification may change: registers and counters, interrupts, outputs, the control messages, the error logs and the
copy of the log in the island. Two devices with the same rest differ in those at most. -/
def Dev.rest (d : Dev) : Dev :=
  { d with regs := Dev.reset.regs, irq := Dev.reset.irq, out := [], ctl := Dev.reset.ctl, ras := Dev.reset.ras, side := Dev.reset.side }

/-- The fuses that only ever gain (R486, R490, R521): FW_SVN never falls, the owner's key hash is set once, and a debug port that is disabled
stays disabled. -/
def Fuses.Grow (a b : Fuses) : Prop :=
  a.svn ≤ b.svn ∧ (a.dbgOff = true → b.dbgOff = true) ∧ (a.ownerHash ≠ 0 → b.ownerHash = a.ownerHash)

/-- The state after a block command that runs to its end with status OK (R68): BUSY set, the command's effect, and the end of the command. -/
def State.commandDone (page sts bit : Nat) (f : Dev → Dev) (s : State) : State :=
  s.onDev fun d => (f (d.cmdBegin sts)).cmdEnd page sts bit .ok

/-- The state after a block command that another event ends (R67, R68): BUSY set and the command's effect so far. -/
def State.commandBegun (sts : Nat) (f : Dev → Dev) (s : State) : State := s.onDev fun d => f (d.cmdBegin sts)

end Sys2Proof.Machine
end

