-- ==== Sys2Proof/Certificates/Slice0/Obligations.lean ====
section
/-! DEFINITION. The statements about the machine. Each docstring says what the statement says, and which rules of the specification it rests on
(`log n` is an entry of the assumption log). -/

namespace Sys2Proof.Machine

/-! ### Abbreviations of the statements -/

/-- The next state of a micro-operation that writes one register and nothing else (R327). -/
def Obl.micro (s : State) (d : Fin 16) (v : Word32) : State :=
  { s with dev := { s.dev with micro := { s.dev.micro with regs := Tbl.set 0 d.val v s.dev.micro.regs } } }

/-- The page and the command status register of a block command (R68, and the command tables of the blocks), but for the commands of
COH.EXT_CMD and those that write the module store or the fuses. -/
def Obl.commandOf (c : Instr) : Option (Nat × Nat) :=
  match c with
  | .hostNop | .hostRead _ | .clearDead _ | .declareDead _ => some (Reg.coh, 0x9144)
  | .xltNop | .ctxRead _ | .ctxWrite _ | .invPage _ | .invRange _ | .invPart _ | .faultRead _ | .faultResume _ | .faultAbort _ => some (Reg.xlt, 0x8104)
  | .tierNop | .areaSet | .thatchInit | .flush | .driveFail _ | .driveRebuild _ => some (Reg.tier, 0xA104)
  | .opqNop | .qCreate _ _ | .qRead _ | .qDrain _ | .qEnable _ | .qReset _ | .qDestroy _ | .partSet _ | .partRead _ | .coreAssign _ | .coreRelease _ | .partReset _ => some (Reg.opq, 0x7104)
  | .rteNop | .rtRead | .rtWrite | .treeRead | .treeWrite | .cktOpen | .cktClose | .cktRead => some (Reg.rte, 0xB104)
  | .shpNop | .mtrRead _ _ | .mtrWrite _ _ => some (Reg.shp, 0xC104)
  | .secNop | .slotRead _ | .secLogRead | .quietSet _ | .fkeyFlush _ => some (Reg.sec, 0x6104)
  | .ctlNop | .switchover | .standbyResync => some (Reg.ctl, 0x4108)
  | .pwrNop | .vote | .partPolicy _ | .thermPoint | .psensePoint => some (Reg.pwr, 0x2104)
  | .cmpNop | .imgDistribute => some (Reg.cmp, 0xD10C)
  | .glbNop | .partCreate _ _ | .partDestroy _ | .partQuery _ => some (Reg.glb, 0x118)
  | .calNop | .optRecal _ => some (Reg.glb, 0x18C)
  | .ddrNop c | .trainCheck c => some (Reg.ddr c.val, Dev.ddrA c.val + 0x118)
  | .rasNop c | .rasLogRead c | .markDevice c | .retireRow c | .retireBank c | .clearLostSet c => some (Reg.ras c, Reg.ras c * 4096 + 0x104)
  | .fabNop c | .retrain c _ _ | .testStart c | .testStop c | .clearHeld c => some (Reg.fab c.val, Dev.fabA c.val + 0x10C)
  | _ => none

/-- The commands of COH.EXT_CMD (R66, R69). -/
def Obl.isExtCommand (c : Instr) : Bool :=
  match c with
  | .cohNop | .extRead .. | .extAssign .. | .extGrant .. | .extRestrict .. | .extRevoke .. | .extScrub .. | .hsetRead .. | .hsetWrite .. | .regionCreate .. | .regionDestroy .. => true
  | _ => false

/-- The next state in which the device is `d` and everything else as before. -/
def Obl.dev (s : State) (d : Dev) : Host.Outcome State Fault Refusal := .next { s with dev := d }

/-- A request that its home admits (R60) and may start at once: below the gutter (the companion's with a node ID set), from a host that is
not dead, with room at the home, allowed by every check of R60 in the extent `e` (entry `i`), on a resident line that is not in transition, not
reserved, not held by a dead owner, and whose data bring no uncorrectable word. -/
def Obl.Admits (d : Dev) (h : ReqHdr) (kind : ReqKind) (i : Nat) (e : Ext) : Prop :=
  let line := h.offset.toNat / 64; let d0 := d.lookTag i e h.offset.toNat
  (h.via = .companion → d.compNode ≠ 0xFFFF) ∧ h.offset.toNat < gutterBase ∧ d.isDead (d.sentBy h).src = false ∧ d.trackerRoom (d.lineHalf line) = true ∧
  (d.hostChecks (d.sentBy h) kind).toOption = some (i, e) ∧ (match d0.dirEnt line with | some ent => ent.modified && ent.sharers.any d0.isDead | none => false) = false ∧ d0.tx? line = none ∧
  d.firstResv (BitVec.ofNat 42 line) = none ∧ d0.firstResv (BitVec.ofNat 42 line) = none ∧ d0.resident e h.offset.toNat = true ∧
  d0.mem.wrBad.contains line = false ∧ d0.mem.rdBad.contains line = false

/-- A request that passes the checks of R60 at its home: below the gutter (the companion's with a node ID set), from a host that is not dead, with
room at the home, in the extent `e` (entry `i`), on a line that is not reserved for it. -/
def Obl.Checked (d : Dev) (h : ReqHdr) (kind : ReqKind) (i : Nat) (e : Ext) : Prop :=
  (h.via = .companion → d.compNode ≠ 0xFFFF) ∧ h.offset.toNat < gutterBase ∧ d.isDead (d.sentBy h).src = false ∧
  d.trackerRoom (d.lineHalf (h.offset.toNat / 64)) = true ∧ d.reserved (d.sentBy h).src h.tag (BitVec.ofNat 42 (h.offset.toNat / 64)) = false ∧
  (d.hostChecks (d.sentBy h) kind).toOption = some (i, e)

/-- A request with bytes to write or an ATOMIC that R122 and R124 let run. -/
def Obl.Formed (h : ReqHdr) : ReqKind → Prop
  | .writePartial _ m => m ≠ 0
  | .atomic aop wide o => aop.toNat < 10 ∧ h.offset.toNat % (if wide then 8 else 4) = 0 ∧ o.length = atomicLen aop wide
  | _ => True

/-- The command that carries a request. -/
def Obl.homeCommand (h : ReqHdr) : ReqKind → Instr
  | .loadShared nc => .loadShared h nc
  | .loadOwn => .loadOwn h
  | .store x => .store h x
  | .writeInval x bad => .writeInval h x bad
  | .writePartial x m => .writePartial h x m
  | .atomic aop wide operand => .atomic h aop wide operand

/-- Whether an ATOMIC is well formed (R122, R124) and finds, where it may come again, no stored answer but room for its own (R455); a WRITE_PARTIAL
has bytes to write. -/
def Obl.WellMade (d : Dev) (h : ReqHdr) (e : Ext) : ReqKind → Prop
  | .writePartial _ m => m ≠ 0
  | .atomic aop wide o => aop.toNat < 10 ∧ h.offset.toNat % (if wide then 8 else 4) = 0 ∧ o.length = atomicLen aop wide ∧
      (h.riss = true → (d.coh.replies.find? fun x => x.half == homeHalf e h.offset.toNat && x.src == (d.sentBy h).src && x.tag == h.tag &&
        x.offset == h.offset) = none) ∧
      (h.pv = true → (d.coh.replies.filter fun x => x.half == homeHalf e h.offset.toNat).length < 16384)
  | _ => True

/-- A record of a finding in the words of a line on the mesh (R250). -/
def Obl.meshRecord (h : Half) (e : Ext) (line : LineNo) (syn : List Byte) (type sev : Nat) (d : Dev) : Dev :=
  d.log h { type := type, sev := sev, block := blockOf Reg.coh, part := some e.part, addr := d.fabAddr (lineOff line),
            detail := (41, 1, 0xFF) :: (List.range 8).map fun w => (42 + 2 * w, 2, (syn.getD w 0).toNat) }

/-- What a received frame finds of an acknowledgement and of returned credits (R407, R420): taken in RESUME, ACTIVE and TEST. -/
def Obl.inService (st : LinkState) : Bool := st == .resume || st == .active || st == .test

/-- A TEST frame as a port sends it (R404). -/
def Obl.testFrame (b : List Byte) : LinkFrame :=
  { seq := 0, vc := 0, kind := 2, sop := false, eop := false, av := false, len := 0, ack := 0, cretVc := 0, cretValid := false, cret := 0, payload := b,
    crcBad := false, fecBad := false }

end Sys2Proof.Machine

open Sys2Proof Sys2Proof.Machine

/-- For every command c and every state s whose queue is c followed by rest, step answers what exec answers for c on s with the queue rest (the
model's queue, log entry 3). (01_pool_node.md, log 3.) -/
def Obligations.StepRunsTheFrontCommand : Prop :=
  ∀ (c : Instr) (rest : List Instr) (s : State), s.pending = c :: rest → step s = exec c { s with pending := rest }

/-- For every state with an empty queue, one nanosecond passes: the duration is one more, the global count is one more modulo 2^64 if it runs
and no freeze holds it and is unchanged otherwise, every register word, latch and held word is unchanged, and everything but the time, the
count and the counters is as before. The step answers that state where no IMG_DISTRIBUTE waits for its lines and no control message waits
for its block; else those that wait are tried again on it. That time passes on an empty queue, and that what waits is tried again then, is
the model's choice (log 4, log 77, log 78); counting by 1 in each ns is R369, the freeze is R379. (R369, R370, R372, R379, log 4, log 77,
log 78.) -/
def Obligations.IdleStepLetsOneNanosecondPass : Prop :=
  ∀ s : State, s.pending = [] →
    ∃ u : Dev, step s = .next { s with dev := (u.spreadStep s.nv.fuses).runMsgs } ∧
      (s.dev.fw.spread = none → s.dev.sec.msgs = [] → step s = .next { s with dev := u }) ∧ u.now = s.dev.now + 1 ∧
      u.gtc = (if s.dev.gtc.running = true ∧ s.dev.gtc.freeze ≤ s.dev.now then { s.dev.gtc with count := s.dev.gtc.count + 1 }
        else s.dev.gtc) ∧
      u.regs.words = s.dev.regs.words ∧ u.regs.latch = s.dev.regs.latch ∧ u.regs.held = s.dev.regs.held ∧
      ({ u with now := s.dev.now, gtc := s.dev.gtc, regs := s.dev.regs } : Dev) = s.dev

/-- For every state and every register operands, MICRO_NOP changes nothing, and ADD, SUB, MUL of INT32 give the sum, difference and product
modulo 2^32; MIN and MAX of INT32 and UINT32 the smaller and the larger; ABS and NEG of INT32 modulo 2^32; CMP of INT32 and UINT32 1 or 0
for its condition; SEL, LDC and MOV the selected value; HASH the low or high half of the keyed hash of A then B. Each writes register D and
nothing else in the whole state. (R327, R328, R365.) -/
def Obligations.MicroIntegerResults : Prop :=
  ∀ (s : State) (d a b c : Fin 16),
    let r (i : Fin 16) : Word32 := Tbl.get 0 s.dev.micro.regs i.val
    exec .microNop s = .next s ∧
    exec (.add .i32 d a b) s = .next (Obl.micro s d (r a + r b)) ∧
    exec (.sub .i32 d a b) s = .next (Obl.micro s d (r a - r b)) ∧
    exec (.mul .i32 d a b) s = .next (Obl.micro s d (r a * r b)) ∧
    exec (.min .i32 d a b) s = .next (Obl.micro s d (if (r b).slt (r a) then r b else r a)) ∧
    exec (.min .u32 d a b) s = .next (Obl.micro s d (if (r b).ult (r a) then r b else r a)) ∧
    exec (.max .i32 d a b) s = .next (Obl.micro s d (if (r a).slt (r b) then r b else r a)) ∧
    exec (.max .u32 d a b) s = .next (Obl.micro s d (if (r a).ult (r b) then r b else r a)) ∧
    exec (.abs .i32 d a) s = .next (Obl.micro s d (if (r a).msb then - r a else r a)) ∧
    exec (.neg .i32 d a) s = .next (Obl.micro s d (- r a)) ∧
    exec (.sel d a b c) s = .next (Obl.micro s d (if r a = 0 then r c else r b)) ∧
    exec (.ldc d c) s = .next (Obl.micro s d (Tbl.get 0 s.dev.micro.consts c.val)) ∧
    exec (.mov d a) s = .next (Obl.micro s d (r a)) ∧
    (∀ high, exec (.hash high d a b) s = .next (Obl.micro s d
      (let h := sipHash (s.dev.hashKeyOf s.dev.micro.part) (leBytes 4 (r a).toNat ++ leBytes 4 (r b).toNat)
       if high then h.extractLsb' 32 32 else h.extractLsb' 0 32)))

/-- For every state, type, condition and registers, CMP writes 1 to D when the condition holds of A and B and 0 otherwise, and nothing else
changes: for INT32 and UINT32 always; for FP32 when neither operand is NaN. With a NaN operand it writes 1 or 0 too, a free value (log 14),
and nothing else changes. (R328, R360, log 14.) -/
def Obligations.MicroCompareResults : Prop :=
  ∀ (s : State) (t : OrdType) (k : MicroCond) (d a b : Fin 16),
    let m := s.dev.micro
    let lt : Bool := match t with
      | .f32 => (f32 (m.r a).toNat).lt (f32 (m.r b).toNat)
      | .i32 => (m.r a).slt (m.r b)
      | .u32 => (m.r a).ult (m.r b)
    let gt : Bool := match t with
      | .f32 => (f32 (m.r b).toNat).lt (f32 (m.r a).toNat)
      | .i32 => (m.r b).slt (m.r a)
      | .u32 => (m.r b).ult (m.r a)
    ((t = .f32 → (f32 (m.r a).toNat).isNan = false ∧ (f32 (m.r b).toNat).isNan = false) →
      exec (.cmp t k d a b) s = .next (Obl.micro s d (if (match k with
        | .eq => !lt && !gt | .ne => lt || gt | .lt => lt | .le => !gt | .gt => gt | .ge => !lt) then 1 else 0))) ∧
    (∃ v : Bool, exec (.cmp t k d a b) s = .next (Obl.micro s d (if v then 1 else 0)))

/-- For every state and registers, ADD, SUB, MUL and FMA of FP32 write the exact sum, difference, product, or product plus addend, rounded once
to nearest even; MIN and MAX give canonical NaN for a NaN operand and else the smaller and the larger operand; ABS and NEG act on the sign
and give canonical NaN for NaN; CVT, FLOOR, BKT, EXP, LOG1P and RSQRT write the value of their rule. Each writes register D and nothing else
in the whole state. (R327, R328, R360, R362, R363.) -/
def Obligations.MicroFloatResults : Prop :=
  ∀ (s : State) (d a b c : Fin 16),
    let m := s.dev.micro
    let r (i : Fin 16) : Word32 := m.r i
    let x (i : Fin 16) : XV := f32 (m.r i).toNat
    let nan : Word32 := BitVec.ofNat 32 Ff.fp32.nanCode
    exec (.add .f32 d a b) s = .next (Obl.micro s d (BitVec.ofNat 32 (rnSum [x a, x b]))) ∧
    exec (.sub .f32 d a b) s = .next (Obl.micro s d (BitVec.ofNat 32 (rnSum [x a, (x b).negate]))) ∧
    exec (.mul .f32 d a b) s = .next (Obl.micro s d (BitVec.ofNat 32 (rnSum [(x a).mul (x b)]))) ∧
    exec (.fma d a b c) s = .next (Obl.micro s d (BitVec.ofNat 32 (rnSum [(x a).mul (x b), x c]))) ∧
    exec (.min .f32 d a b) s = .next (Obl.micro s d
      (if (x a).isNan || (x b).isNan then nan else if (x b).lt (x a) then r b else r a)) ∧
    exec (.max .f32 d a b) s = .next (Obl.micro s d
      (if (x a).isNan || (x b).isNan then nan else if (x a).lt (x b) then r b else r a)) ∧
    exec (.abs .f32 d a) s = .next (Obl.micro s d (if (x a).isNan then nan else r a &&& 0x7FFFFFFF)) ∧
    exec (.neg .f32 d a) s = .next (Obl.micro s d (if (x a).isNan then nan else r a ^^^ 0x80000000)) ∧
    exec (.cvt .i32ToF32 d a) s = .next (Obl.micro s d (BitVec.ofNat 32 (rn32 (.ofInt (r a).toInt)))) ∧
    exec (.cvt .toBf16 d a) s = .next (Obl.micro s d (BitVec.ofNat 32 (rn32 (Ff.bf16.value (Ff.bf16.ofXV .nearest 0 (x a)))))) ∧
    exec (.cvt .toFp16 d a) s = .next (Obl.micro s d (BitVec.ofNat 32 (rn32 (Ff.fp16.value (Ff.fp16.ofXV .nearest 0 (x a)))))) ∧
    (∀ q, exec (.cvt (.f32ToI32 q) d a) s = .next (Obl.micro s d (match x a with
      | .nan => 0
      | .inf neg => if neg then 0x80000000 else 0x7FFFFFFF
      | .fin neg mm e => if Micro.toInt q neg mm e ≥ 2 ^ 31 then 0x7FFFFFFF
          else if Micro.toInt q neg mm e < -(2 ^ 31) then 0x80000000 else BitVec.ofInt 32 (Micro.toInt q neg mm e)))) ∧
    exec (.floor d a) s = .next (Obl.micro s d (match x a with
      | .nan => nan
      | .inf _ => r a
      | .fin neg mm e => if mm = 0 then r a else BitVec.ofNat 32 (rn32 (.ofInt (Micro.toInt .floor neg mm e))))) ∧
    exec (.bkt d a) s = .next (Obl.micro s d (BitVec.ofNat 32
      (if (x a).isNan then m.bounds.length else (m.bounds.filter fun y => !((x a).lt (f32 y.toNat))).length))) ∧
    exec (.exp d a) s = .next (Obl.micro s d (BitVec.ofNat 32 (exp32 (r a).toNat))) ∧
    exec (.log1p d a) s = .next (Obl.micro s d (BitVec.ofNat 32 (log1p32 (r a).toNat))) ∧
    exec (.rsqrt d a) s = .next (Obl.micro s d (BitVec.ofNat 32 (rsqrt32 (r a).toNat)))

/-- For every state, register D and value v: after the write of one register that the statements of the micro-operations name, D reads v, every
other register reads as before, and the constants, boundaries and partition are as before. (R327, R328.) -/
def Obligations.MicroRegisterReadsBack : Prop :=
  ∀ (s : State) (d : Fin 16) (v : Word32),
    (Obl.micro s d v).dev.micro.r d = v ∧ (∀ i, i ≠ d → (Obl.micro s d v).dev.micro.r i = s.dev.micro.r i) ∧
    (Obl.micro s d v).dev.micro.consts = s.dev.micro.consts ∧ (Obl.micro s d v).dev.micro.bounds = s.dev.micro.bounds ∧
    (Obl.micro s d v).dev.micro.part = s.dev.micro.part

/-- For every block and every state whose command status shows no BUSY (for GLB and CAL: in SERVICE), the NOP command of the block is the begin
and the end of a command with status OK and no effect between. What the end of a command changes is stated in
CommandEndChangesStatusAndCause. (R68, R69, R95, R155, R197, R233, R265, R303, R477, R521, R560, R630.) -/
def Obligations.BlockNopsCompleteOk : Prop :=
  ∀ s : State,
    (s.dev.busy 0x9104 = false → exec .cohNop s = .next (s.commandDone Reg.coh 0x9104 1 id)) ∧
    (s.dev.busy 0x9144 = false → exec .hostNop s = .next (s.commandDone Reg.coh 0x9144 4 id)) ∧
    (s.dev.busy 0x8104 = false → exec .xltNop s = .next (s.commandDone Reg.xlt 0x8104 1 id)) ∧
    (s.dev.busy 0xA104 = false → exec .tierNop s = .next (s.commandDone Reg.tier 0xA104 1 id)) ∧
    (s.dev.busy 0x7104 = false → exec .opqNop s = .next (s.commandDone Reg.opq 0x7104 1 id)) ∧
    (s.dev.busy 0xB104 = false → exec .rteNop s = .next (s.commandDone Reg.rte 0xB104 1 id)) ∧
    (s.dev.busy 0xC104 = false → exec .shpNop s = .next (s.commandDone Reg.shp 0xC104 1 id)) ∧
    (s.dev.busy 0x6104 = false → exec .secNop s = .next (s.commandDone Reg.sec 0x6104 1 id)) ∧
    (s.dev.busy 0x4108 = false → exec .ctlNop s = .next (s.commandDone Reg.ctl 0x4108 1 id)) ∧
    (s.dev.busy 0x2104 = false → exec .pwrNop s = .next (s.commandDone Reg.pwr 0x2104 1 id)) ∧
    (s.dev.busy 0xD10C = false → exec .cmpNop s = .next (s.commandDone Reg.cmp 0xD10C 1 id)) ∧
    (∀ c : ChanNo, s.dev.busy (Dev.ddrA c.val + 0x118) = false →
      exec (.ddrNop c) s = .next (s.commandDone (Reg.ddr c.val) (Dev.ddrA c.val + 0x118) 1 id)) ∧
    (∀ h : Half, s.dev.busy (Reg.ras h * 4096 + 0x104) = false →
      exec (.rasNop h) s = .next (s.commandDone (Reg.ras h) (Reg.ras h * 4096 + 0x104) 1 id)) ∧
    (∀ p : PortNo, s.dev.busy (Dev.fabA p.val + 0x10C) = false →
      exec (.fabNop p) s = .next (s.commandDone (Reg.fab p.val) (Dev.fabA p.val + 0x10C) 1 id)) ∧
    (s.dev.dawn.step = .service → s.dev.busy 0x118 = false → exec .glbNop s = .next (s.commandDone Reg.glb 0x118 1 id)) ∧
    (s.dev.dawn.step = .service → s.dev.busy 0x18C = false → exec .calNop s = .next (s.commandDone Reg.glb 0x18C 2 id))

/-- For every device state, page, command status register, cause bit and status, when no control message runs the command: the end of the
command clears BUSY, sets the STATUS field to the status code and sets the bit of the block's INT_CAUSE; every register but that status
register, that INT_CAUSE and CTL.CSN (which a message interrupt advances) is unchanged; latches and held words are unchanged; and everything
but registers, interrupts, outputs and control messages is unchanged. The status register is none of the two others. (R13, R68, R540, R553,
R664.) -/
def Obligations.CommandEndChangesStatusAndCause : Prop :=
  ∀ (d : Dev) (page sts bit : Nat) (st : Status), Tbl.find d.sec.borrow sts = none → sts ≠ Reg.intCause page → sts ≠ 0x410C → bit < 32 →
    let t := d.cmdEnd page sts bit st
    t.busy sts = false ∧ fieldOf (t.reg sts) 15 8 = st.code.toNat ∧ (t.reg (Reg.intCause page)).getLsbD bit = true ∧
    (∀ a, a ≠ sts → a ≠ Reg.intCause page → a ≠ 0x410C → t.reg a = d.reg a) ∧
    t.regs.latch = d.regs.latch ∧ t.regs.held = d.regs.held ∧ t.ras = d.ras ∧ t.side = d.side ∧ t.rest = d.rest

/-- For every command of COH.EXT_CMD and every state with COH.EXT_STS.BUSY = 1: exec answers the state in which only the illegal-write event of
COH has happened; COH.ERR_STS bit 0 is set in it, every register but ERR_STS, the INT_CAUSE of COH and GLB and CTL.CSN is unchanged, and so
is everything but registers, interrupts, outputs and control messages. And when such a command ends with a status (no control message runs
it), BUSY is 0, STATUS is the code and COH.INT_CAUSE.EXT_DONE (bit 1) is 1. (R68.) -/
def Obligations.ExtCommandBusyAndCompletion : Prop :=
  (∀ (c : Instr) (s : State), Obl.isExtCommand c = true → s.dev.busy 0x9104 = true →
      exec c s = .next (s.onDev (Dev.illegal Reg.coh)) ∧ ((s.dev.illegal Reg.coh).reg (Reg.errSts Reg.coh)).getLsbD 0 = true ∧
      (∀ a, a ≠ Reg.errSts Reg.coh → a ≠ Reg.intCause Reg.coh → a ≠ Reg.intCause Reg.glb → a ≠ 0x410C → (s.dev.illegal Reg.coh).reg a = s.dev.reg a) ∧
      (s.dev.illegal Reg.coh).rest = s.dev.rest) ∧
    (∀ (d : Dev) (st : Status), Tbl.find d.sec.borrow 0x9104 = none →
      (d.cmdEnd Reg.coh 0x9104 1 st).busy 0x9104 = false ∧ fieldOf ((d.cmdEnd Reg.coh 0x9104 1 st).reg 0x9104) 15 8 = st.code.toNat ∧
      ((d.cmdEnd Reg.coh 0x9104 1 st).reg (Reg.intCause Reg.coh)).getLsbD 1 = true)

/-- For every block command of the other blocks and every state whose command status register of that command shows BUSY, exec answers the state
in which only the illegal-write event of the block has happened, which leaves everything but registers, interrupts, outputs and control
messages as it was. (R17, R68, R663.) -/
def Obligations.BlockCommandWhileBusyIsIllegal : Prop :=
  ∀ (c : Instr) (s : State) (page sts : Nat), Obl.commandOf c = some (page, sts) → s.dev.busy sts = true →
    exec c s = .next (s.onDev (Dev.illegal page)) ∧ (s.dev.illegal page).rest = s.dev.rest

/-- Write d for the device with COH.EXT_STS.BUSY set, and let BUSY have been 0. EXT_READ puts the entry's image in DATA and completes OK.
EXT_ASSIGN of a FREE entry whose image passes the checks of R70 makes the entry INIT with the GEN it had, accepted unless its partition is
confidential, and goes on. EXT_GRANT of an ACTIVE entry (accepted, if its partition is confidential) to a wider PERM with the same host set
and FROZEN sets PERM and completes OK. EXT_RESTRICT of an ACTIVE entry that only takes rights away sets PERM, HSET and GEN + 1 and begins
the drain. EXT_REVOKE of the entries INDEX to INDEX + COUNT, each ACTIVE, destroys their publication regions, makes each REVOKING with GEN +
1, tells a PUBLISH that snapshots one of them, and begins one drain for all. EXT_SCRUB of a REVOKED entry makes it SCRUBBING and goes on. In
every other case nothing but the end of the command happens: STATE_CONFLICT for an entry in another state (for EXT_REVOKE: any of them, or a
range past the table, log 71), then MALFORMED for an image with reserved bits, then STATE_CONFLICT for a change the command does not make;
EXT_ASSIGN answers what its checks answer. Each next state is given whole: nothing else changes. (R65, R68, R69, R70, R71, R72, R78, R84,
R500.) -/
def Obligations.ExtentCommandsTakeEffect : Prop :=
  ∀ (s : State) (i : ExtIdx), s.dev.busy 0x9104 = false →
    let d := s.dev.cmdBegin 0x9104
    let e := d.ext i.toNat
    let n := extOfImage d.extData
    let no (st : Status) : Host.Outcome State Fault Refusal := .next { s with dev := d.cmdEnd Reg.coh 0x9104 1 st }
    exec (.extRead i) s = .next { s with dev := (d.setData 0x9110 8 e.image).cmdEnd Reg.coh 0x9104 1 .ok } ∧
    (e.state = .free → d.assignChecks d.extData = .ok → exec (.extAssign i) s =
      .next { s with dev := d.setExt i.toNat { n with state := .init, gen := e.gen, accepted := !d.conf n.part } }) ∧
    (e.state = .active → extReservedBits d.extData = false → (d.conf e.part && !e.accepted) = false → e.perm &&& n.perm = e.perm →
      n.hset = e.hset → n.perm.getLsbD 5 = e.perm.getLsbD 5 →
      exec (.extGrant i) s = .next { s with dev := (d.setExt i.toNat { e with perm := n.perm }).cmdEnd Reg.coh 0x9104 1 .ok }) ∧
    (e.state = .active → extReservedBits d.extData = false → e.perm ||| n.perm = e.perm → n.perm.getLsbD 5 = e.perm.getLsbD 5 →
      ({ n with perm := e.perm, hset := e.hset, state := e.state, gen := e.gen, accepted := e.accepted, secret := e.secret } : Ext) = e →
      exec (.extRestrict i) s = .next (s.onDev fun _ => Dev.beginChange .restrict [(i, e.gen)] (d.slots e.hset.toNat) true
        (d.setExt i.toNat { e with perm := n.perm, hset := n.hset, gen := e.gen + 1 }))) ∧
    (∀ count : BitVec 8, let l := (List.range (count.toNat + 1)).map (i.toNat + ·)
      (∀ k ∈ l, k < 32768 ∧ (d.ext k).state = .active) →
      let d1 := ((d.coh.regions.filter fun r => l.any fun k => (d.ext k).holds (r.2.line.toNat * 64)).map (·.1)).foldl (fun d r => d.destroyRegion r) d
      let d2 := l.foldl (fun d k => d.setExt k { d.ext k with state := .revoking, gen := (d.ext k).gen + 1 }) d1
      let told (r : Region) : Region := { r with running := r.running.map fun p =>
        if (p.ext.any fun x => l.contains x.toNat) = true then { p with revoked := true } else p }
      let d3 := d2.modCoh fun c => { c with regions := c.regions.map fun r => (r.1, told r.2) }
      exec (.extRevoke i count) s = .next { s with dev := d3.beginChange .revoke (l.map fun k => (BitVec.ofNat 15 k, (d1.ext k).gen)) [] true }) ∧
    (e.state = .revoked → exec (.extScrub i) s = .next { s with dev := d.setExt i.toNat { e with state := .scrubbing } }) ∧
    ((e.state ≠ .free → exec (.extAssign i) s = no .stateConflict) ∧
      (e.state = .free → d.assignChecks d.extData ≠ .ok → exec (.extAssign i) s = no (d.assignChecks d.extData))) ∧
    ((e.state ≠ .active → exec (.extGrant i) s = no .stateConflict ∧ exec (.extRestrict i) s = no .stateConflict) ∧
      (e.state = .active → extReservedBits d.extData = true → exec (.extGrant i) s = no .malformed ∧ exec (.extRestrict i) s = no .malformed) ∧
      (e.state = .active → extReservedBits d.extData = false →
        ((d.conf e.part && !e.accepted) = true ∨ e.perm &&& n.perm ≠ e.perm ∨ n.hset ≠ e.hset ∨ n.perm.getLsbD 5 ≠ e.perm.getLsbD 5 →
          exec (.extGrant i) s = no .stateConflict) ∧
        (e.perm ||| n.perm ≠ e.perm ∨ n.perm.getLsbD 5 ≠ e.perm.getLsbD 5 ∨
          ({ n with perm := e.perm, hset := e.hset, state := e.state, gen := e.gen, accepted := e.accepted, secret := e.secret } : Ext) ≠ e →
          exec (.extRestrict i) s = no .stateConflict))) ∧
    (∀ count : BitVec 8, ¬ (∀ k ∈ (List.range (count.toNat + 1)).map (i.toNat + ·), k < 32768 ∧ (d.ext k).state = .active) →
      exec (.extRevoke i count) s = no .stateConflict) ∧
    (e.state ≠ .revoked → exec (.extScrub i) s = no .stateConflict)

/-- Write d for the device with COH.EXT_STS.BUSY set, and let BUSY have been 0. HSET_READ puts the slot in DATA and completes OK. HSET_WRITE of
a slot image without reserved bits whose range ends at or below 0xFFFF stores it; it completes OK when the old slot was not VALID, or is the
same, or no ACTIVE extent names the set; otherwise every ACTIVE extent of the set gets GEN + 1 and the drain begins. REGION_CREATE of an
absent region on an aligned offset in an ACTIVE extent of the owner lists the region with VERSION 0 and begins the write of its record line.
REGION_DESTROY of a region takes it away, ends its PUBLISH operations CANCELLED and completes OK. Otherwise the command only ends:
HSET_WRITE MALFORMED for reserved bits or a range past 0xFFFF; REGION_CREATE STATE_CONFLICT for a region that exists, then MALFORMED for an
offset off a line, then STATE_CONFLICT where no ACTIVE extent of the owner holds it; REGION_DESTROY STATE_CONFLICT for no region. (R56, R58,
R68, R69, R74, R79, R83.) -/
def Obligations.HostSetAndRegionCommandsTakeEffect : Prop :=
  ∀ (s : State) (set : BitVec 12) (sl : BitVec 4) (n : BitVec 12), s.dev.busy 0x9104 = false →
    let d := s.dev.cmdBegin 0x9104
    let w : Word64 := BitVec.ofNat 64 (d.data 0x9110 2)
    let old := d.slot set.toNat sl.toNat
    let put := d.modCoh fun c => { c with hsets := Tbl.set 0 (set.toNat * 16 + sl.toNat) w c.hsets }
    let users := d.coh.exts.filter fun x => x.2.state == .active && x.2.hset == set
    let no (st : Status) := Obl.dev s (d.cmdEnd Reg.coh 0x9104 1 st)
    exec (.hsetRead set sl) s = Obl.dev s ((d.setData 0x9110 2 old.toNat).cmdEnd Reg.coh 0x9104 1 .ok) ∧
    (bits w.toNat 63 46 = 0 → w.toNat % 65536 + bits w.toNat 31 16 ≤ 0xFFFF →
      (old.getLsbD 45 = false ∨ old = w ∨ users = [] → exec (.hsetWrite set sl) s = Obl.dev s (put.cmdEnd Reg.coh 0x9104 1 .ok)) ∧
      (old.getLsbD 45 = true → old ≠ w → users ≠ [] → exec (.hsetWrite set sl) s = Obl.dev s
        ((users.foldl (fun x y => x.setExt y.1 { y.2 with gen := y.2.gen + 1 }) put).beginChange .hset
          (users.map fun x => (BitVec.ofNat 15 x.1, x.2.gen)) (d.slots set.toNat) true))) ∧
    (∀ (e : Nat × Ext), Tbl.find d.coh.regions n.toNat = none → d.data 0x9110 2 % 64 = 0 → d.data 0x9110 2 < 2 ^ 48 →
      d.extAt (d.data 0x9110 2) = some e → e.2.state = .active → e.2.part = BitVec.ofNat 12 (d.data 0x9118 1) →
      exec (.regionCreate n) s = Obl.dev s (d.modCoh fun c => { c with
        regions := Tbl.put n.toNat ⟨e.2.part, BitVec.ofNat 42 (d.data 0x9110 2 / 64), 0, none, []⟩ c.regions,
        regionWait := some n.toNat }).tryRegion) ∧
    ((Tbl.find d.coh.regions n.toNat).isSome = true →
      exec (.regionDestroy n) s = Obl.dev s ((d.destroyRegion n.toNat).cmdEnd Reg.coh 0x9104 1 .ok)) ∧
    (bits w.toNat 63 46 ≠ 0 ∨ w.toNat % 65536 + bits w.toNat 31 16 > 0xFFFF → exec (.hsetWrite set sl) s = no .malformed) ∧
    ((Tbl.find d.coh.regions n.toNat).isSome = true → exec (.regionCreate n) s = no .stateConflict) ∧
    (Tbl.find d.coh.regions n.toNat = none → d.data 0x9110 2 % 64 ≠ 0 → exec (.regionCreate n) s = no .malformed) ∧
    (Tbl.find d.coh.regions n.toNat = none → d.data 0x9110 2 % 64 = 0 →
      ¬ (d.data 0x9110 2 < 2 ^ 48 ∧ ∃ e, d.extAt (d.data 0x9110 2) = some e ∧ e.2.state = .active ∧ e.2.part = BitVec.ofNat 12 (d.data 0x9118 1)) →
      exec (.regionCreate n) s = no .stateConflict) ∧
    (Tbl.find d.coh.regions n.toNat = none → exec (.regionDestroy n) s = no .stateConflict)

/-- EXT_INIT_DONE of an entry in INIT makes every line of the extent a zero line under its key slot, makes it ACTIVE and completes EXT_ASSIGN
OK. SCRUB_DONE of an entry in SCRUBBING, tiered ones without a running writeback, makes its lines zero, frees its frames and ends its fills,
writes the security record, counts it, makes the entry FREE with the GEN it had and completes EXT_SCRUB OK. CHANGE_END of a change of a
command, with both sweeps done and no request of an old GEN left, takes the change away, makes the extents of a revocation REVOKED and
completes the command OK; a change that a PUBLISH made goes on at PUBLISH_DRAIN_END. SWEEP_PASS_START of an idle half that has something to
sweep serves up to 256 pending changes and visits the entries. SWEEP_PASS_END, 81.92 µs after the start at the earliest and with nothing
left to recall, marks what the pass served as swept; with something left it visits the entries once more. In every other state these events
change nothing. (R71, R72, R73, R75, R78, R510.) -/
def Obligations.ExtentEventsTakeEffect : Prop :=
  (∀ (s : State) (i : ExtIdx), let e := s.dev.ext i.toNat
      e.state = .init → exec (.extInitDone i) s = Obl.dev s (((s.dev.zeroExtent e).setExt i.toNat
        { e with state := .active, secret := s.dev.slotSecret e }).cmdEnd Reg.coh 0x9104 1 .ok)) ∧
    (∀ (s : State) (i : ExtIdx), let e := s.dev.ext i.toNat
      e.state = .scrubbing → (e.tiered = true → ∀ w ∈ s.dev.tier.wbs, (s.dev.frame w.frame).ext ≠ i) →
      let d1 := (s.dev.tier.frames.filter fun f => e.tiered && f.2.ext == i).foldl (fun d f => d.freeFrame f.1) s.dev
      let d2 := (d1.modTier fun t => { t with fills := t.fills.filter fun f => !(e.tiered && f.ext == i) }).zeroExtent e
      exec (.scrubDone i) s = Obl.dev s ((((d2.secLog 4 0
        { type := 0, sev := 0, block := 0, part := some e.part,
          detail := [(41, 2, e.keySlot.toNat), (44, 4, i.toNat), (48, 8, e.size)] }).bump Reg.sec 0x068 1).setExt i.toNat
        { extReset with gen := e.gen }).cmdEnd Reg.coh 0x9104 1 .ok)) ∧
    (∀ (s : State) (i : ExtIdx), let e := s.dev.ext i.toNat
      (e.state ≠ .init → exec (.extInitDone i) s = .next s) ∧ (e.state ≠ .scrubbing → exec (.scrubDone i) s = .next s) ∧
      (∀ w ∈ s.dev.tier.wbs, e.tiered = true → (s.dev.frame w.frame).ext = i → exec (.scrubDone i) s = .next s)) ∧
    (∀ (s : State) (id : Nat), (s.dev.coh.changes.find? fun x => x.id == id) = none → exec (.changeEnd id) s = .next s) ∧
    (∀ (s : State) (c : Change), (s.dev.coh.changes.find? fun x => x.id == c.id) = some c →
      s.dev.changeOver c = false ∨ (∃ n, c.why = .publish n) → exec (.changeEnd c.id) s = .next s) ∧
    (∀ (s : State) (c : Change), (s.dev.coh.changes.find? fun x => x.id == c.id) = some c → s.dev.changeOver c = true →
      let d1 := s.dev.modCoh fun x => { x with changes := x.changes.filter fun y => y.id ≠ c.id }
      let done (d : Dev) := Obl.dev s (if c.command = true then d.cmdEnd Reg.coh 0x9104 1 .ok else d)
      (c.why = .restrict ∨ c.why = .hset → exec (.changeEnd c.id) s = done d1) ∧
      (c.why = .revoke → exec (.changeEnd c.id) s = done (c.exts.foldl (fun d x =>
        if (d.ext x.1.toNat).state = .revoking then d.setExt x.1.toNat { d.ext x.1.toNat with state := .revoked } else d) d1))) ∧
    (∀ (s : State) (h : Half), s.dev.coh.sweeping.at h = none → s.dev.sweepWanted h = true →
      let ids := ((s.dev.coh.changes.filter fun c => !c.swept.at h).map (·.id)).take 256
      exec (.sweepPassStart h) s = Obl.dev s ((s.dev.modCoh fun c => { c with
        sweeping := c.sweeping.set h (some s.dev.now),
        changes := c.changes.map fun x => if ids.contains x.id then { x with serving := x.serving.set h true } else x,
        hosts := c.hosts.map fun x =>
          if x.2.state == .dead && !x.2.swept.at h then (x.1, { x.2 with serving := x.2.serving.set h true }) else x }).sweepVisit h)) ∧
    (∀ (s : State) (h : Half) (t : Nat), s.dev.coh.sweeping.at h = some t → t + 81920 ≤ s.dev.now → (s.dev.sweepVisit h).sweepClean h = true →
      exec (.sweepPassEnd h) s = Obl.dev s ((s.dev.sweepVisit h).modCoh fun c => { c with
        sweeping := c.sweeping.set h none,
        changes := c.changes.map fun x =>
          if x.serving.at h then { x with serving := x.serving.set h false, swept := x.swept.set h true } else x,
        hosts := c.hosts.map fun x =>
          if x.2.serving.at h then (x.1, { x.2 with serving := x.2.serving.set h false, swept := x.2.swept.set h true }) else x })) ∧
    (∀ (s : State) (h : Half), (s.dev.coh.sweeping.at h ≠ none ∨ s.dev.sweepWanted h = false → exec (.sweepPassStart h) s = .next s) ∧
      (s.dev.coh.sweeping.at h = none → exec (.sweepPassEnd h) s = .next s) ∧
      (∀ t, s.dev.coh.sweeping.at h = some t →
        (s.dev.now < t + 81920 → exec (.sweepPassEnd h) s = .next s) ∧
        (t + 81920 ≤ s.dev.now → (s.dev.sweepVisit h).sweepClean h = false → exec (.sweepPassEnd h) s = Obl.dev s (s.dev.sweepVisit h))))

/-- Write d for the device with COH.HOST_STS.BUSY set, and let BUSY have been 0. HOST_READ sets STATE to the code of the host's state and
completes OK. CLEAR_DEAD of a dead host whose sweeps have both ended returns it to normal, logs it and completes OK. DECLARE_DEAD of a host
that is neither dead nor this node declares it dead with cause 5 and completes OK. CLEAR_DEAD of any other host, and DECLARE_DEAD of a dead
one, complete STATE_CONFLICT, and DECLARE_DEAD of this node MALFORMED, without effect. (R68, R152, R154, R155.) -/
def Obligations.HostCommandsTakeEffect : Prop :=
  ∀ (s : State) (n : NodeId), s.dev.busy 0x9144 = false →
    let d := s.dev.cmdBegin 0x9144
    let x := d.host n
    exec (.hostRead n) s = Obl.dev s ((d.setFld 0x9144 17 16 (match x.state with | .normal => 0 | .suspect => 1 | .dead => 2)).cmdEnd
      Reg.coh 0x9144 4 .ok) ∧
    (x.state = .dead → x.swept.west = true → x.swept.east = true → exec (.clearDead n) s = Obl.dev s
      (((d.setHost n { state := .normal, since := 0, nonces := [], probed := 0, swept := ⟨true, true⟩, serving := ⟨false, false⟩ }).logHost
        n 0 6 0 none).cmdEnd Reg.coh 0x9144 4 .ok)) ∧
    (d.isDead n = false → n ≠ d.nodeId → exec (.declareDead n) s = Obl.dev s ((d.declareDead n 5).cmdEnd Reg.coh 0x9144 4 .ok)) ∧
    (¬ (x.state = .dead ∧ x.swept.west = true ∧ x.swept.east = true) → exec (.clearDead n) s = Obl.dev s (d.cmdEnd Reg.coh 0x9144 4 .stateConflict)) ∧
    (d.isDead n = true → exec (.declareDead n) s = Obl.dev s (d.cmdEnd Reg.coh 0x9144 4 .stateConflict)) ∧
    (d.isDead n = false → n = d.nodeId → exec (.declareDead n) s = Obl.dev s (d.cmdEnd Reg.coh 0x9144 4 .malformed))

/-- A suspect host that was last probed 100 µs ago or more, within 1 ms of suspicion, and whose probes the companion link does not hold, is
probed again. The answer to a probe of a suspect host with one of its nonces, within 1 ms, returns it to normal and logs it. A suspect host
1 ms after suspicion is declared dead with cause 4. A PROBE is answered with PROBE_ANSWER of the same TAG and NONCE. A reservation on a
stable line lapses after its window and is counted, and a write of a publication record that waited for it goes on. An entry of the reply
cache is dropped after 160 µs. Where the conditions of one of the first three or of a lapse do not hold, it changes nothing. (R147, R151,
R152, R154, R156, R455, R458.) -/
def Obligations.HostStateEventsTakeEffect : Prop :=
  ∀ (s : State) (n : NodeId), let x := s.dev.host n
    let due := x.state = .suspect ∧ x.probed + 100000 ≤ s.dev.now ∧ s.dev.now < x.since + 1000000 ∧ s.dev.cmpHolds n = false
    (due → exec (.probeInterval n) s = Obl.dev s (s.dev.sendProbe n)) ∧ (¬ due → exec (.probeInterval n) s = .next s) ∧
    (∀ nonce, x.state = .suspect → nonce ∈ x.nonces → s.dev.now ≤ x.since + 1000000 → exec (.probeAnswer n nonce) s =
      Obl.dev s ((s.dev.setHost n { x with state := .normal, since := 0, nonces := [], probed := 0 }).logHost n 0 3 0 none)) ∧
    (∀ nonce, ¬ (x.state = .suspect ∧ nonce ∈ x.nonces ∧ s.dev.now ≤ x.since + 1000000) → exec (.probeAnswer n nonce) s = .next s) ∧
    (x.state = .suspect → x.since + 1000000 ≤ s.dev.now → exec (.suspicionExpiry n) s = Obl.dev s (s.dev.declareDead n 4)) ∧
    (¬ (x.state = .suspect ∧ x.since + 1000000 ≤ s.dev.now) → exec (.suspicionExpiry n) s = .next s) ∧
    (∀ tag nonce, exec (.probe .companion n tag nonce) s =
      Obl.dev s (s.dev.emitPkt .companion 6 (mkPkt s.dev n 0x42 tag nonce.toNat))) ∧
    (∀ p tag nonce, exec (.probe (.port p) n tag nonce) s = Obl.dev s (s.dev.send 6 (mkPkt s.dev n 0x42 tag nonce.toNat)).2) ∧
    (∀ (line : LineNo) (tag : Tag) (r : Resv), (s.dev.coh.resv.find? fun y => y.node == n && y.tag == tag && y.line == line) = some r →
      (s.dev.tx? line.toNat).isNone = true → r.since + min1 (s.dev.fld 0x9130 15 8) * 1000 ≤ s.dev.now →
      exec (.reservationLapse line n tag) s = Obl.dev s (((s.dev.endResv n tag line).bump Reg.coh 0x050 1).tryRegion)) ∧
    (∀ (line : LineNo) (tag : Tag), (∀ r, (s.dev.coh.resv.find? fun y => y.node == n && y.tag == tag && y.line == line) = some r →
        (s.dev.tx? line.toNat).isNone = false ∨ s.dev.now < r.since + min1 (s.dev.fld 0x9130 15 8) * 1000) →
      exec (.reservationLapse line n tag) s = .next s) ∧
    (∀ (h : Half) (tag : Tag), exec (.replyCacheExpiry h n tag) s = Obl.dev s (s.dev.modCoh fun c => { c with
      replies := c.replies.filter fun y => !(y.half == h && y.src == n && y.tag == tag && decide (y.time + 160000 ≤ s.dev.now)) }))

/-- Let a home take a request (Obl.Admits), a read find the channel free of CHECK and its DRAM read give data, and no other host hold the line
in a conflicting state. LOAD_SHARED of a line that is not in M: the requester joins the sharers (unless NC) and gets the line with OK.
LOAD_OWN: the tracker opens a grant wait for the requester and TAG. STORE of the owner, and WRITE_INVAL (with POISON it poisons the line and
is counted), write the line and answer OK. WRITE_PARTIAL merges the masked bytes; with an empty mask it answers OK and changes nothing.
ATOMIC writes the new value, keeps its answer if PV is set, and answers OK with the old value. Where other hosts hold the line in a
conflicting state, the request waits and the snoops of R130 begin. Refused, in this order: NO_ACCESS for the companion with no node ID,
FENCED for a dead host, MALFORMED (logged) for a reserved AOP, NO_ACCESS in the reserved range, NACK_RETRY at a full home, and the status of
the first check of R60 that fails (logged for a write that R63 discards); MALFORMED for an ATOMIC off its alignment; TIER_FILL for a block
that is not resident, whose fill starts; NACK_RETRY for a line in transition or reserved; STATE_CONFLICT for a STORE (logged) of no owner,
or a read of the owner. A STORE of the owner on a line in transition gives its data to it. (R60, R118, R123, R127, R130, R132, R137, R139,
R164, R206, R455, R635.) -/
def Obligations.HomeRequestsTakeEffect : Prop :=
  ∀ (s : State) (h : ReqHdr) (i : Nat) (e : Ext), let line := h.offset.toNat / 64; let off := line * 64; let g := s.dev.sentBy h
    let d0 := s.dev.lookTag i e h.offset.toNat; let d := d0.touch e off; let dr := d.didRead true e off
    let req (k : ReqKind) : HomeReq := ⟨g, none, k, BitVec.ofNat 15 i, e.gen, s.dev.now⟩
    let alone : Prop := ∀ ent, d0.dirEnt line = some ent → d0.holders i e ent (some g.src) = []
    let write (opc : Nat) (x : Option Line) (d : Dev) : Dev := (d.writePool e off x ⟨g.src, e.part, opc, off⟩).freeDir line
    (∀ nc v, Obl.Admits s.dev h (.loadShared nc) i e → (∀ ent, d0.dirEnt line = some ent → ent.modified = false) →
      (nc = true ∨ d0.dirEnt line ≠ none ∨ d0.fullSet line = none) → d0.readHeld e off = false → d.readPool e off = some (.data v) →
      exec (.loadShared h nc) s = Obl.dev s ((if nc then dr else dr.addSharer line g.src).finishReq g s.dev.now .ok (lineBytes v))) ∧
    (∀ v, Obl.Admits s.dev h .loadOwn i e → alone → (∀ ent, d0.dirEnt line = some ent → ent.modified = false) →
      (d0.dirEnt line ≠ none ∨ d0.fullSet line = none) → d0.snoopRoom (homeHalf e off) = true → d0.readHeld e off = false → d.readPool e off = some (.data v) →
      exec (.loadOwn h) s = Obl.dev s ((dr.setTx line
        { why := .demand, req := some (req .loadOwn), snoops := [], data := none, stored := false, owed := false, badData := false, keep := 0,
          grant := some ⟨g.src, h.tag, none⟩ }).openGrant line)) ∧
    (∀ x ent, Obl.Admits s.dev h (.store x) i e → d0.dirEnt line = some ent → ent.modified = true → ent.sharers = [g.src] →
      exec (.store h x) s = Obl.dev s ((write 3 (some x) d).finishReq g s.dev.now .ok [])) ∧
    (∀ x bad, Obl.Admits s.dev h (.writeInval x bad) i e → alone →
      exec (.writeInval h x bad) s = Obl.dev s ((if bad then (write 4 none d).bump (Reg.ras (homeHalf e off)) 0x058 1 else write 4 (some x) d).finishReq
        g s.dev.now .ok [])) ∧
    (∀ x m old, Obl.Admits s.dev h (.writePartial x m) i e → alone → d0.readHeld e off = false → d.readPool e off = some (.data old) →
      exec (.writePartial h x m) s = Obl.dev s ((if m = 0 then s.dev else write 5 (some (lineMerge old x m)) dr).finishReq g s.dev.now .ok [])) ∧
    (∀ aop wide operand old new was, Obl.Admits s.dev h (.atomic aop wide operand) i e → Obl.WellMade d0 h e (.atomic aop wide operand) →
      d0.sentBy h = g → alone → d0.readHeld e off = false → d.readPool e off = some (.data old) →
      atomicLine aop wide operand (h.offset.toNat % 64) old = some (new, was) →
      let d1 := write 6 (some new) dr
      exec (.atomic h aop wide operand) s = Obl.dev s ((if h.pv then d1.modCoh fun c => { c with
        replies := c.replies ++ [⟨homeHalf e off, g.src, h.tag, h.offset, was, s.dev.now⟩] } else d1).finishReq g s.dev.now .ok was)) ∧
    (∀ k, Obl.Admits s.dev h k i e → Obl.WellMade d0 h e k → d0.sentBy h = g → (∀ x, k ≠ .store x) →
      (∀ ent, d0.dirEnt line = some ent → ent.modified = true → ent.sharers.head? ≠ some g.src ∨ (k ≠ .loadOwn ∧ k ≠ .loadShared false)) →
      d0.neededSnoops i e line g false k ≠ [] → d0.snoopRoom (homeHalf e off) = true →
      exec (Obl.homeCommand h k) s = Obl.dev s ((d0.beginTx line .demand (some (req k)) (d0.neededSnoops i e line g false k)).advance line)) ∧
    (∀ k, let gives (d : Dev) := exec (Obl.homeCommand h k) s = Obl.dev s d; let no := BitVec.ofNat 42 line; let d1 := d0.deadLookup line
      let half := homeHalf e h.offset.toNat; let blk := blockNo e h.offset.toNat
      let stores : Bool := (match k with | .store _ => true | _ => false) &&
        (match d1.dirEnt line with | some ent => ent.modified && ent.sharers.contains g.src | none => false)
      let here := h.via = .companion → s.dev.compNode ≠ 0xFFFF
      (h.via = .companion → s.dev.compNode = 0xFFFF → gives (s.dev.ackStatus h .noAccess)) ∧
      (here → s.dev.isDead g.src = true → gives (s.dev.nack g .fenced 0 false)) ∧
      (here → s.dev.isDead g.src = false → Dev.badAop k = true →
        gives ((s.dev.logMalformed g.via (some (s.dev.lineHalf line)) 4 0x06 0 (some g.src) .malformed).nack g .malformed 0 false)) ∧
      (here → s.dev.isDead g.src = false → Dev.badAop k = false → gutterBase ≤ h.offset.toNat → inGutter h.offset.toNat = false →
        gives (s.dev.ackStatus g .noAccess)) ∧
      (here → s.dev.isDead g.src = false → Dev.badAop k = false → h.offset.toNat < gutterBase →
        (s.dev.trackerRoom (s.dev.lineHalf line) = false → s.dev.reserved g.src h.tag no = false →
          gives (s.dev.refuse g s.dev.now s.dev.baseHint (s.dev.lineHalf line))) ∧
        (∀ st, s.dev.trackerRoom (s.dev.lineHalf line) = true ∨ s.dev.reserved g.src h.tag no = true → s.dev.hostChecks g k = .error st →
          let d2 : Dev := match s.dev.failedCheck g st with
            | some (c, x) => if kindWrites k then s.dev.discardReq c g k x.part (s.dev.lineHalf line) st else s.dev
            | none => s.dev
          gives (d2.finishReq g d2.now st []))) ∧
      (Obl.Checked s.dev h k i e →
        (∀ aop wide o, k = .atomic aop wide o → aop.toNat < 10 → h.offset.toNat % (if wide then 8 else 4) ≠ 0 ∨ o.length ≠ atomicLen aop wide →
          gives (s.dev.finishReq g s.dev.now .malformed [])) ∧
        (∀ t x, k = .store x → stores = true → d1.tx? line = some t → gives (d1.storeTransient line t (req k) x e)) ∧
        (Obl.Formed h k → (stores = false ∨ d1.tx? line = none) →
          (d1.resident e h.offset.toNat = false → let f := d1.startFill i blk
            gives (f.answerHost g s.dev.now 0x21 (answerWord .tierFill false false false (f.fillHint blk) false g.retry.toNat) [])) ∧
          (∀ t, d1.resident e h.offset.toNat = true → d1.tx? line = some t → gives (d1.refuse g s.dev.now (d1.lineHint t) half)) ∧
          (d1.resident e h.offset.toNat = true → d1.tx? line = none → d1.heldFor g no = true → gives (d1.refuse g s.dev.now d1.baseHint half)))) ∧
      (Obl.Admits s.dev h k i e →
        (∀ x, k = .store x → (∀ ent, d0.dirEnt line = some ent → ent.modified = true → ent.sharers.head? ≠ some g.src) →
          gives ((d0.discardReq 3 g k e.part (homeHalf e off) .stateConflict).finishReq g s.dev.now .stateConflict [])) ∧
        (∀ ent, k = .loadOwn ∨ k = .loadShared false → d0.dirEnt line = some ent → ent.modified = true → ent.sharers.head? = some g.src →
          gives (d0.finishReq g s.dev.now .stateConflict []))))

/-- A SNOOP_RESPONSE to an open snoop (no grant wait of its node and TAG, a defined status, the key that R506 asks) records the answer and
advances the line. A GRANT_ACKNOWLEDGEMENT of an open grant wait makes the line stable. The ANSWER_POINT of a request that has waited 3.5 µs
refuses it with NACK_RETRY, and the transaction goes on without it; a grant that has not been given ends, and data that its owner gave up
goes to DRAM. A snoop attempt whose 2 µs have passed is counted and sent again, or after the third attempt fails the line with cause 1; the
third attempt of a snoop on a line that has failed already makes its host suspect. A WB_PENDING wait and a grant wait fail the line after 6
µs with causes 7 and 2. When the companion link no longer holds them, every held snoop is sent as a first attempt, and a suspect companion
is probed. A SNOOP_RESPONSE with a reserved code is logged as malformed; one without the key has no effect; one that comes after its line
failed is logged as discarded; one with data for a grant wait, or with no snoop at all, has no effect, and neither has an event whose time
has not come. (R134, R135, R137, R141, R149, R150, R506, R636, R703, log 70.) -/
def Obligations.SnoopAndGrantEventsTakeEffect : Prop :=
  ∀ s : State, let sd := s.dev
    (∀ via n tag st data wb bad key line t, sd.grantLine n tag = none → sd.snoopLine n tag = some (line, t) → BitVec.toNat st ≤ 0x11 →
      sd.responseAllowed line n data key = true → exec (.snoopResponse via n tag st data wb bad key) s = Obl.dev s
        ((sd.setTx line (Dev.snoopAnswer t (match sd.dirEnt line with | some e => e.modified | none => false) n tag data wb bad)).advance
          line).itemEnded) ∧
    (∀ n tag line, sd.grantLine n tag = some line → exec (.grantAcknowledgement n tag) s =
      Obl.dev s ((sd.dropTx line).stableResv (BitVec.ofNat 42 line)).itemEnded) ∧
    (∀ (line : LineNo) l t r, (sd.coh.tx.find? fun x => match x.2.req with
        | some r => r.hdr.offset.toNat / 64 == line.toNat && decide (r.arrived + 3500 ≤ sd.now)
        | none => false) = some (l, t) → t.req = some r →
      let d := sd.turnAway r (sd.lineHint t) (sd.lineHalf line.toNat); let t' : LineTx := { t with req := none }
      (t.grant = none → exec (.answerPoint line) s = Obl.dev s ((d.setTx l t').advance l)) ∧
      (∀ n tag, t.grant = some ⟨n, tag, none⟩ → exec (.answerPoint line) s = Obl.dev s
        ((((match d.extAt (l * 64) with
          | some (_, e) => d.writeBack l t' e (t.snoops.head?.elim 0 Snoop.node)
          | none => d : Dev).dropTx l).stableResv (BitVec.ofNat 42 l)).itemEnded)) ∧
      (∀ n tag t0, t.grant = some ⟨n, tag, some t0⟩ → exec (.answerPoint line) s = Obl.dev s (d.setTx l t'))) ∧
    (∀ (line : LineNo) n t x, sd.tx? line.toNat = some t → (t.snoops.find? fun s_ => s_.node == n && !s_.answered && decide (s_.attempt > 0) &&
        !s_.held && decide (s_.sentAt + 2000 ≤ sd.now)) = some x → let d := sd.bump Reg.coh 0x060 1
      let x' := { x with attempt := x.attempt + 1, sentAt := sd.now }
      exec (.snoopDeadline line n) s = Obl.dev s (if x.attempt ≥ 3 then d.failLine line.toNat n 1 else
        (d.setTx line.toNat { t with snoops := t.snoops.map fun y => if y = x then x' else y }).sendSnoop line.toNat x')) ∧
    (∀ (line : LineNo) n (x : LateSnoop), sd.tx? line.toNat = none →
      (sd.coh.late.find? fun (l : LateSnoop) => l.line == line && l.node == n && l.due.any fun t => decide (t ≤ sd.now)) = some x →
      exec (.snoopDeadline line n) s = Obl.dev s ((((sd.modCoh fun c => { c with late := c.late.map fun (y : LateSnoop) =>
        if y = x then { y with due := none } else y }).bump Reg.coh 0x060 1).suspect n 1 line.toNat).itemEnded)) ∧
    (∀ (line : LineNo) t x, sd.tx? line.toNat = some t → (t.snoops.find? fun s_ => s_.storeWait && decide (s_.firstAt + 6000 ≤ sd.now)) =
      some x → exec (.storeWaitExpiry line) s = Obl.dev s (sd.failLine line.toNat x.node 7)) ∧
    (∀ (line : LineNo) t n tag t0, sd.tx? line.toNat = some t → t.grant = some ⟨n, tag, some t0⟩ → t0 + 6000 ≤ sd.now →
      exec (.grantWaitExpiry line) s = Obl.dev s (sd.failLine line.toNat n 2)) ∧
    (∀ (d : Dev) line (x : Snoop), (x.held = false → d.releaseSnoop line x = d) ∧ (d.tx? line = none → d.releaseLine line = d) ∧
      (∀ t, d.tx? line = some t → d.releaseLine line = t.snoops.foldl (Dev.releaseSnoop line) d ∧
        (x.held = true → let first : Snoop := { x with held := false, firstAt := d.now, sentAt := d.now }
          d.releaseSnoop line x = (d.setTx line { t with snoops := t.snoops.map fun y => if y = x then first else y }).sendSnoop line first))) ∧
    (sd.cmpHolds sd.compNode = false → let d := (sd.coh.tx.map (·.1)).foldl Dev.releaseLine sd
      let c := d.host d.compNode
      exec .heldSnoopRelease s = Obl.dev s (if d.compNode ≠ 0xFFFF ∧ c.state = .suspect ∧ c.nonces.isEmpty = true then d.sendProbe d.compNode else d)) ∧
    (∀ via n tag st data wb bad key line t, sd.grantLine n tag = none → sd.snoopLine n tag = some (line, t) → BitVec.toNat st > 0x11 →
      exec (.snoopResponse via n tag st data wb bad key) s =
        Obl.dev s (sd.logMalformed via (some (sd.lineHalf line)) 5 0x20 3 (some n) .malformed)) ∧
    (∀ via n tag st data wb bad key line t, sd.grantLine n tag = none → sd.snoopLine n tag = some (line, t) → BitVec.toNat st ≤ 0x11 →
      sd.responseAllowed line n data key = false → exec (.snoopResponse via n tag st data wb bad key) s = .next s) ∧
    (∀ via n tag st data wb bad key line, sd.grantLine n tag = some line → exec (.snoopResponse via n tag st (some data) wb bad key) s = .next s) ∧
    (∀ via n tag st data wb bad key, sd.grantLine n tag = none → sd.snoopLine n tag = none →
      let late := sd.coh.late.find? fun (l : LateSnoop) => l.node == n && l.tag == tag
      (late = none → exec (.snoopResponse via n tag st data wb bad key) s = .next s ∧ exec (.grantAcknowledgement n tag) s = .next s) ∧
      (∀ l, late = some l → let part := match sd.extAt (lineOff l.line) with | some (_, e) => e.part | none => 0
        let d := ((sd.modCoh fun c => { c with late := c.late.filter fun x => x ≠ l }).logDiscard (sd.lineHalf l.line.toNat) Reg.coh 4
          ⟨n, part, 0x20, lineOff l.line⟩ .ok).itemEnded
        exec (.snoopResponse via n tag st data wb bad key) s = Obl.dev s d ∧ exec (.grantAcknowledgement n tag) s = Obl.dev s d)) ∧
    (∀ (line : LineNo), ((sd.coh.tx.find? fun x => match x.2.req with
        | some r => r.hdr.offset.toNat / 64 == line.toNat && decide (r.arrived + 3500 ≤ sd.now)
        | none => false) = none → exec (.answerPoint line) s = .next s) ∧
      (∀ n, (∀ t, sd.tx? line.toNat = some t → (t.snoops.find? fun s_ => s_.node == n && !s_.answered && decide (s_.attempt > 0) &&
          !s_.held && decide (s_.sentAt + 2000 ≤ sd.now)) = none) →
        (sd.coh.late.find? fun (l : LateSnoop) => l.line == line && l.node == n && l.due.any fun t => decide (t ≤ sd.now)) = none →
        exec (.snoopDeadline line n) s = .next s) ∧
      ((∀ t, sd.tx? line.toNat = some t → (t.snoops.find? fun s_ => s_.storeWait && decide (s_.firstAt + 6000 ≤ sd.now)) = none) →
        exec (.storeWaitExpiry line) s = .next s) ∧
      ((∀ t n tag t0, sd.tx? line.toNat = some t → t.grant = some ⟨n, tag, some t0⟩ → sd.now < t0 + 6000) → exec (.grantWaitExpiry line) s = .next s)) ∧
    (sd.cmpHolds sd.compNode = true → exec .heldSnoopRelease s = .next s)

/-- A DOORBELL_WRITE, as a packet of 8 bytes or as a WRITE_PARTIAL of whole doorbells, in a doorbell page of an existing partition, from a node
that an ACTIVE extent of the partition admits (under the partition's fabric key, if it is confidential), with the reserved bytes zero: its
doorbells are counted, the clusters of the partition note them, and each rings its queue in order, the last answering the write. A doorbell
of a queue (of the partition, on chip, not LOST, with room for the new entries, no earlier one waiting) gives it the new tail and answers
OK. A MAILBOX_REQUEST from an admitted node to a mailbox that is not BUSY, whose line no other request has reserved: a header line with
STATE 1 starts the exchange, another header line has no effect, a payload line is stored; each is answered OK. A MAILBOX_RESPONSE of a BUSY
mailbox makes it ready (STATE 3): at most 1,984 bytes for a message of type 5 or 6, else the byte 0xFF; of another mailbox it has no effect.
Refused: any of them from a dead host is FENCED; a doorbell write of another form, to a mailbox half, to no partition, from a node that is
not admitted or without the key, or with a reserved byte set, is counted and NO_ACCESS as a whole, the last four logged; a mailbox write of
no partition or of a node that is not admitted is NO_ACCESS; of a BUSY mailbox, or a line that another request reserves, NACK_RETRY. A
doorbell of a queue that is absent, LOST, of another partition (logged) or with no room is counted and changes nothing. (R45, R46, R270,
R496, R497, R543, R544, R545, R603, R635.) -/
def Obligations.GutterRequestsTakeEffect : Prop :=
  ∀ (s : State) (h : ReqHdr), (h.via = .companion → s.dev.compNode ≠ 0xFFFF) → inGutter h.offset.toNat = true →
    let g := s.dev.sentBy h; let off := h.offset.toNat; let part := gutterPart off
    (s.dev.isDead g.src = false → s.dev.admitsNode part g.src (ReqHdr.spart? g) = true →
    (∀ form (b : List Byte) l, doorbellBytes form = some (l ++ [b]) → (∀ x ∈ l ++ [b], leAt x 6 2 = 0) → off % 4096 < 2048 →
      (s.dev.part? part).isSome = true →
      (s.dev.conf part = false ∨ ∃ k f, g.fkey = some k ∧ s.dev.fkey k.toNat = some f ∧ f.part = part) →
      let bell (x : List Byte) (a : Option ReqHdr) : Bell := ⟨BitVec.ofNat 16 (leAt x 0 2), part, BitVec.ofNat 16 (leAt x 2 2), BitVec.ofNat 16 (leAt x 4 2), g.src, a⟩
      exec (.doorbellWrite h form) s = Obl.dev s (((s.dev.bump Reg.irq 0x040 (l.length + 1)).noteBell part).ring (l.map (bell · none) ++ [bell b (some g)]))) ∧
    (∀ (d : Dev) (b : Bell) q, d.queue? b.queue = some q → q.part = b.part → q.state ≠ .lost → q.onChip = true → b.hdr = some g →
      (d.opq.bells.any fun x => x.queue == b.queue) = false → b.tail ≠ q.sqTail → (q.sqTail - q.sqHead).toNat + (b.tail - q.sqTail).toNat ≤ 2 ^ q.sizeLog2 →
      d.ring [b] = ((d.modOpq fun o => { o with lastUse := o.lastUse + 1 }).modQueue b.queue fun q =>
          { q with sqTail := b.tail, usedAt := d.opq.lastUse + 1 }).reply g 0x20 (answerWord .ok false false false 0 false g.retry.toNat) []) ∧
    (∀ x p, off % 4096 ≥ 2048 → s.dev.part? part = some p → p.mailbox.state ≠ 2 → s.dev.heldFor g (BitVec.ofNat 42 (off / 64)) = false →
      let line := off % 4096 / 64 * 64; let l := lineBytes x
      exec (.mailboxRequest h x) s = Obl.dev s (((if line = 0x800 then
        if leAt l 3 1 = 1 then s.dev.modPart part fun q => { q with mailbox := { q.mailbox with
          len := BitVec.ofNat 16 (leAt l 0 2), state := 2, seq := BitVec.ofNat 16 (leAt l 4 2), node := g.src } } else s.dev
        else s.dev.modPart part fun q => { q with mailbox := Dev.putPayload q.mailbox (line - 0x840) l }).ackStatus g .ok).endResv g.src g.tag
          (BitVec.ofNat 42 (off / 64)))) ∧
    (∀ (pn : PartId) p data, s.dev.part? pn = some p → p.mailbox.state = 2 → let ty := Tbl.get (0 : Byte) p.mailbox.payload 0
      let r := if ty = 5 ∨ ty = 6 then data.take 1984 else [0xFF]
      exec (.mailboxResponse pn data) s = Obl.dev s (s.dev.modPart pn fun q =>
      { q with mailbox := { Dev.putPayload q.mailbox 0 r with len := BitVec.ofNat 16 r.length, state := 3 } }))) ∧
    (∀ form x, s.dev.isDead g.src = true → exec (.doorbellWrite h form) s = Obl.dev s (s.dev.nack g .fenced 0 false) ∧
      exec (.mailboxRequest h x) s = Obl.dev s (s.dev.nack g .fenced 0 false)) ∧
    (s.dev.isDead g.src = false →
      let keyed : Prop := s.dev.conf part = false ∨ ∃ k f, g.fkey = some k ∧ s.dev.fkey k.toNat = some f ∧ f.part = part
      let open_ : Prop := (s.dev.part? part).isSome = true ∧ s.dev.admitsNode part g.src (ReqHdr.spart? g) = true
      let no (d : Dev) := Obl.dev s (d.reply g 0x20 (answerWord .noAccess false false false 0 false g.retry.toNat) [])
      let counted := s.dev.bump Reg.irq 0x048 1
      let logged (cause : Nat) (b : Option (List Byte)) := no (counted.logPolicy (viaHalf g.via) cause (b.elim 0 (leAt · 4 2)) (b.elim 0 (leAt · 0 2)) part
        (some g.src) .noAccess)
      (∀ form, doorbellBytes form = none ∨ off % 4096 ≥ 2048 → exec (.doorbellWrite h form) s = no counted) ∧
      (∀ form l, doorbellBytes form = some l → off % 4096 < 2048 →
        (¬ open_ → exec (.doorbellWrite h form) s = logged 1 l.head?) ∧
        (open_ → ¬ keyed → exec (.doorbellWrite h form) s = logged 3 l.head?) ∧
        (∀ b, open_ → keyed → (l.find? fun b => leAt b 6 2 != 0) = some b → exec (.doorbellWrite h form) s = logged 1 (some b)) ∧
        (open_ → keyed → l = [] → exec (.doorbellWrite h form) s = Obl.dev s
          (((s.dev.bump Reg.irq 0x040 0).noteBell part).reply g 0x20 (answerWord .ok false false false 0 false g.retry.toNat) []))) ∧
      (∀ x, off % 4096 ≥ 2048 → let held := s.dev.heldFor g (BitVec.ofNat 42 (off / 64))
        (¬ open_ → exec (.mailboxRequest h x) s = Obl.dev s (s.dev.ackStatus g .noAccess)) ∧
        (∀ p, open_ → s.dev.part? part = some p → held = true ∨ p.mailbox.state = 2 →
          exec (.mailboxRequest h x) s = Obl.dev s (s.dev.refuse g s.dev.now s.dev.baseHint (viaHalf g.via)))) ∧
      (∀ x, off % 4096 < 2048 → exec (.mailboxRequest h x) s = Obl.dev s (counted.ackStatus g .noAccess))) ∧
    (∀ (pn : PartId) data, (∀ p, s.dev.part? pn = some p → p.mailbox.state ≠ 2) → exec (.mailboxResponse pn data) s = .next s) ∧
    (∀ (d : Dev) (b : Bell), let ignored := d.bump Reg.opq 0x058 1
      (d.queue? b.queue = none → d.ringQueue b = ignored) ∧
      (∀ q, d.queue? b.queue = some q →
        (q.part ≠ b.part → d.ringQueue b = ignored.logPolicy q.half 2 b.source.toNat b.queue.toNat b.part (some b.node) .ok) ∧
        (q.part = b.part → q.state = .lost ∨ b.tail = q.sqTail ∨ (q.sqTail - q.sqHead).toNat + (b.tail - q.sqTail).toNat > 2 ^ q.sizeLog2 →
          d.ringQueue b = ignored)))

/-- Let TIER.CMD_STS.BUSY be 0. AREA_SET with no tiered extent, no pinned extent above the new limit and room for the block cache sets the
pinned rows, empties the block cache and completes OK. THATCH_INIT with no tiered extent counts in TG, releases the root-port resets and
begins the bring-up. FLUSH of an initialised thatch completes OK with no dirty block, else waits for the dirty granules. DRIVE_FAIL of a
drive that has not failed fails it with cause 4. DRIVE_REBUILD of a failed drive, in HEALTHY or DEGRADED with no rebuild, releases its
port's reset and begins its bring-up. DRIVE_BRING_UP_DONE of a rebuild whose drive is supported and large enough starts the rebuild and
completes OK, of another drive it completes FENCED; of a THATCH_INIT it completes STATE_CONFLICT with more than two bad drives, MALFORMED
without room for the map, else the thatch is empty and HEALTHY, the bad drives fail with cause 5, and it completes OK. REBUILD_STRIPE takes
the next used stripe at its pace, reads the surviving members when the stripe is free and the drives are idle, then writes the rebuilt
member; after the last stripe the drive leaves the failed set and REBUILD_DONE is set. (R159, R190, R191, R192, R193, R195, R196, R198,
R507, log 74.) -/
def Obligations.TierCommandsTakeEffect : Prop :=
  ∀ (s : State) (p : DriveNo), let t := s.dev.tier; let busy := s.dev.busy 0xA104; let d := s.dev.cmdBegin 0xA104
    let ends (d : Dev) (st : Status) : Host.Outcome State Fault Refusal := Obl.dev s (d.cmdEnd Reg.tier 0xA104 1 st)
    (busy = false → s.dev.anyTiered = false → let v := d.data 0xA120 1
      (s.dev.coh.exts.any fun x => x.2.state != .free && !x.2.tiered && decide (x.2.backing.toNat + x.2.rows > v)) = false →
      v ≤ t.mapFirst → (t.blocks = 0 ∨ v + 32 ≤ t.mapFirst) →
      exec .areaSet s = ends (d.modTier fun t => { t with pinRows := v, frames := [], tags := ⟨[], []⟩, refills := [] }) .ok) ∧
    (busy = false → s.dev.anyTiered = false → let ns := BitVec.ofNat 32 (d.data 0xA120 1)
      exec .thatchInit s = Obl.dev s ((({ d with sec := { d.sec with tg := d.sec.tg + 1 } } : Dev).modTier fun t =>
        { t with initCap := some (d.data 0xA128 2), nsid := if ns = 0 then 1 else ns }).releasePorts (List.range 16))) ∧
    (busy = false → t.state ≠ .uninit → let l := (t.frames.filter fun f => f.2.valid && f.2.dirty != 0).map fun f =>
        (⟨f.2.block, f.2.dirty, (t.wbs.find? fun w => w.block == f.2.block && w.snap.isSome).map fun w => (w.id, w.again)⟩ : FlushEnt)
      exec .flush s = if l = [] then ends d .ok else Obl.dev s (d.modTier fun t => { t with flush := l })) ∧
    (busy = false → t.state ≠ .uninit → s.dev.driveFailed p.val = false → exec (.driveFail p) s = ends (d.failDrive p.val 4) .ok) ∧
    (busy = false → t.state ≠ .uninit → t.state ≠ .failed → t.rebuild = none → t.failed.getLsbD p.val = true →
      exec (.driveRebuild p) s = Obl.dev s ((d.modTier fun t => { t with rebuildAsk := some p.val }).releasePorts [p.val])) ∧
    (∀ x : DriveInfo, t.initCap = none → t.rebuildAsk = some x.port.val → let d1 := (s.dev.modTier fun t => { t with rebuildAsk := none }).bringUp x
      (Dev.driveSupported x = true ∧ 16 * ceilDiv d1.tier.blocks 14 ≤ x.lbas.toNat → exec (.driveBringUpDone [x]) s =
        ends ((d1.modTier fun t => { t with rebuild := some ⟨x.port.val, 0, none, none⟩ }).logDrive x.port.val 2 0 0 0 0) .ok) ∧
      (Dev.driveSupported x = false ∨ x.lbas.toNat < 16 * ceilDiv d1.tier.blocks 14 → exec (.driveBringUpDone [x]) s = ends d1 .fenced)) ∧
    (∀ cap (l : List DriveInfo), t.initCap = some cap → let d1 := l.foldl (fun d x => d.bringUp x) (s.dev.modTier fun t => { t with initCap := none })
      let drive (i : Nat) : Option DriveInfo := l.find? fun x => x.port.val == i && Dev.driveSupported x
      let bad := (List.range 16).filter fun i => (drive i).isNone
      let stripes := ((List.range 16).filterMap drive).foldl (fun m x => min m (x.lbas.toNat / 16)) (4026531840 / 14 + 1)
      let blocks := min (min (14 * stripes) 4026531840) (if cap = 0 then 4026531840 else cap)
      (2 < bad.length → exec (.driveBringUpDone l) s = ends (d1.emptyThatch.modTier fun t => { t with state := .uninit, blocks := 0 }) .stateConflict) ∧
      (bad.length ≤ 2 → ({ d1.tier with blocks := blocks } : Tier).mapFirst < d1.tier.pinRows + 32 → exec (.driveBringUpDone l) s = ends d1 .malformed) ∧
      (bad.length ≤ 2 → d1.tier.pinRows + 32 ≤ ({ d1.tier with blocks := blocks } : Tier).mapFirst → exec (.driveBringUpDone l) s =
        ends (bad.foldl (fun d i => d.failDrive i 5) (d1.emptyThatch.modTier fun t => { t with blocks := blocks, state := .healthy })) .ok)) ∧
    (∀ gs (r : Rebuild), t.rebuild = some r → let d1 := s.dev.driveEnd fun y => y.use == .rebuild
      let stage (d : Dev) (x : Option (Nat × Nat × Bool)) : Dev := d.modTier fun t => { t with rebuild := some { r with step := x } }
      (∀ k, r.step = none → d1.nextStripe r.next = some k → (∀ a, r.lastAt = some a → a + 655360 / min1 (d1.fld 0xA110 15 8) ≤ d1.now) →
        exec (.rebuildStripe gs) s = Obl.dev s ((stage d1 (some (k, d1.tier.nextWb, false))).modTier fun t => { t with nextWb := t.nextWb + 1 })) ∧
      (∀ k i, r.step = some (k, i, false) → t.state ≠ .failed → s.dev.firstOn k i = true → s.dev.drivesBusy = false →
        exec (.rebuildStripe gs) s = Obl.dev s (stage (s.dev.askMembers .rebuild k [r.port]) (some (k, i, true)))) ∧
      (∀ k i, r.step = some (k, i, true) → let d2 := d1.writeMember .rebuild k r.port fun g => d1.newMember k g gs [] r.port
        let d3 := if (stripePos k r.port).isSome = true then d2.bump Reg.tier 0x058 1 else d2
        exec (.rebuildStripe gs) s = Obl.dev s (d3.modTier fun t => { t with rebuild := some ⟨r.port, k + 1, none, some d3.now⟩ })) ∧
      (r.step = none → d1.nextStripe r.next = none → let failed := d1.tier.failed &&& ~~~(1#16 <<< r.port)
        exec (.rebuildStripe gs) s = Obl.dev s (((d1.modTier fun t => { t with rebuild := none, failed := failed, state := Dev.thatchOf t.state failed }).logDrive
          r.port 3 0 0 0 0).cause Reg.tier 3)))

/-- FILL_FRAME_READY of a fill that waits takes an invalid IDLE frame of its set, which is FILLING, and reads the drives if the block has
content; with none free or leaving, an eviction begins. DRIVE_READ_COMPLETE of a fill with a frame makes it IDLE and valid, with the poison
of a lost set or block, zeros, or the granules read or rebuilt; the fill ends and is counted unless the block was LOST. EVICTION_RECALL_DONE
of an EVICTING frame whose lines no host holds fills it again where R172 asks, frees a clean one and writes a dirty one back; lines still
held are recalled. WRITEBACK of a dirty IDLE block that FLUSH or the cleaner asks for begins it; of one under way with its snapshot it sends
the writes. WRITEBACK_COMPLETE of writes that are out ends the writebacks of its group: DATA is set, each is counted, an eviction's frame is
freed, what FLUSH waits for is noted, the cleaner stops below LOW. CLEANER_START above HIGH starts the cleaner. AGE_STEP after 100 µs adds
one to every age, saturating. A drive command past TIMEOUT is aborted and counted, what it served goes on from the other members, and the
third within 1 s fails the drive with cause 3. A link down clears the drive's identity and fails it with cause 1; a fatal status with cause
2. An AER error is counted and logged. (R170, R171, R172, R173, R174, R175, R177, R178, R187, R189, R192, R679.) -/
def Obligations.TierEventsTakeEffect : Prop :=
  ∀ (s : State) (p : DriveNo) (b : Nat), let sd := s.dev; let t := sd.tier; let hi := sd.cleanLevels.1; let drive := sd.drive p.val
    let retire (d : Dev) : Dev := (d.tryRetire .west).tryRetire .east
    (∀ fl, (t.fills.find? fun f => f.block == b && f.frame.isNone) = some fl → sd.frameOf b = none →
      let keys := (sd.waysOf fl.ext.toNat b).filter fun k => !sd.frameRetired k
      let free := keys.find? fun k => !(sd.frame k).valid && (sd.frame k).state == .idle
      (∀ k, free = some k →
        let d := (sd.setFrame k { frameReset with block := b, ext := fl.ext, state := .filling }).modTier fun t =>
          { t with fills := t.fills.map fun f => if f.block == b then { f with frame := some k } else f }
        exec (.fillFrameReady b) s = Obl.dev s (if d.onDrives b then d.readBlock b else d)) ∧
      (∀ k, free = none → keys.any sd.leaving = false → sd.victim keys = some k → exec (.fillFrameReady b) s = Obl.dev s (sd.startEvict k))) ∧
    (∀ gs i k, (t.fills.find? fun f => f.block == b) = some ⟨b, i, some k⟩ → let m := sd.mapEnt b; let e := sd.ext i.toNat
      let d0 := sd.driveEnd fun y => y.use == .fill b
      let bad (d : Dev) : Dev := foldN 16 (fun g d => d.fillGranule e b k g none) d
      let d := if d0.setLost i.toNat b then (bad d0).setMap b (m ||| 2) else if m.getLsbD 1 then bad d0
        else if !m.getLsbD 0 then foldN 16 (fun g d => d.fillGranule e b k g (some (List.replicate 4096 0, 0))) d0 else d0.takeBlock e b k gs
      let d := if m.getLsbD 1 then d else d.bump Reg.tier (if m.getLsbD 0 then 0x040 else 0x048) 1
      exec (.driveReadComplete b gs) s = Obl.dev s (retire ((((d.setFrame k
        { d.frame k with valid := true, state := .idle }).pinLimit k).modTier fun t =>
        { t with fills := t.fills.filter fun f => f.block ≠ b }).tryRegion))) ∧
    (∀ k f, sd.frameOf b = some (k, f) → f.state = .evicting →
      (sd.blockBusy f.ext.toNat b false = false → exec (.evictionRecallDone b) s = Obl.dev s (if t.refills.contains k then sd.refillNow k
        else if f.dirty = 0 then retire (sd.freeFrame k) else (sd.beginWb k true).wbStep b [])) ∧
      (sd.blockBusy f.ext.toNat b false = true → exec (.evictionRecallDone b) s = Obl.dev s (sd.recallBlock f.ext.toNat b (.evict b) .inv false))) ∧
    (∀ gs k f, (t.wbs.find? fun w => w.block == b) = none → sd.frameOf b = some (k, f) → f.valid = true → f.state = .idle → f.dirty ≠ 0 →
      (t.flush.any fun x => x.block == b && x.left != 0) = true ∨ sd.cleanerTakes f = true →
      exec (.writeback b gs) s = Obl.dev s ((sd.beginWb k false).wbStep b [])) ∧
    (∀ gs w, (t.wbs.find? fun w => w.block == b) = some w → w.sent = false → w.snap.isSome = true →
      exec (.writeback b gs) s = Obl.dev s (sd.sendWrites (w.lead.getD w.id) gs)) ∧
    (∀ w, (t.wbs.find? fun w => w.block == b) = some w → w.sent = true → let id := w.lead.getD w.id
      exec (.writebackComplete b) s = Obl.dev s (retire ((sd.wbGroup id).foldl (fun d x => d.wbEnd x) (sd.driveEnd fun y => y.use == .writeback id)).cleanerStop)) ∧
    (∀ (d : Dev) (w : BlockWb), let m := d.mapEnt w.block; let d1 := if m.getLsbD 1 then d else d.setMap w.block (m ||| 1)
      let d2 := (d1.modTier fun t => { t with wbs := t.wbs.filter fun x => x.id != w.id }).bump Reg.tier 0x050 1
      w.evict = true → d2.epoch w.block ≠ 0x3FFFFFFF → d.wbEnd w = (d2.freeFrame w.frame).flushDone w) ∧
    (hi ≠ 0 → sd.dirtyCount * 100 > hi * sd.frameCount → exec .cleanerStart s = Obl.dev s (sd.modTier fun t => { t with cleaning := true })) ∧
    (t.ageAt + 100000 ≤ sd.now → exec .ageStep s = Obl.dev s (sd.modTier fun t =>
      { t with ageAt := sd.now, frames := t.frames.map fun f => (f.1, { f.2 with age := satAdd f.2.age 1 }) })) ∧
    (∀ y, let lba := b / 14 * 16
      (drive.io.find? fun y => (y.cmd == .read lba || (match y.cmd with | .write l _ => l == lba | _ => false)) &&
        y.issued.any fun t => decide (t + min1 (sd.fld 0xA110 7 0) * 1000000 ≤ sd.now)) = some y →
      let ts := sd.now :: drive.timeouts.filter fun x => sd.now < x + 1000000000
      let d := (((((sd.putDrive p.val { drive with io := drive.io.erase y, timeouts := ts }).emit (.drive p.val (.abort lba (y.cmd != .read lba)))).driveIssue
        p.val).bump (Reg.dtp p.val) 0x048 1).readLost p.val y)
      exec (.driveCommandTimeout p b) s = Obl.dev s (if ts.length ≥ 3 then d.failDrive p.val 3 else d)) ∧
    (∀ r, exec (.driveLinkDown p r) s = Obl.dev s ((sd.setDrive p.val
      { drive with present := false, supported := false, lbas := 0, serial := [], link := 3, width := 0, rate := 0 }).failDrive p.val 1)) ∧
    exec (.driveFatalStatus p) s = Obl.dev s (sd.failDrive p.val 2) ∧
    (∀ c, exec (.aerError p c) s = Obl.dev s ((sd.bump (Reg.dtp p.val) (if c then 0x058 else 0x060) 1).logDrive p.val 7 0 (if c then 0 else 1) 0 0))

/-- On a trained channel that is not in recovery, a REFRESH that is due, at its limit or outside panic with no neighbour refresh of the rank
queued, precharges the rank, issues every refresh owed and the one due (REFRESHES counts 1, or 4 per-bank, for each), and lowers the
activation counts; in panic within the limit it is postponed and counted. MR4_POLL sets each rank's rate by its report, sets the cause and a
record for each rank above its range, and polls again 4 ms on. On an ACTIVE channel the scheduler issues the write that a running batch may
issue next, else the read that is next, unless CHECK makes reads wait. A NEIGHBOUR_REFRESH outside recovery, with no refresh at its limit
and room below the maximum management threshold, activates the neighbours of the oldest queued row and counts 1. A refresh window that ends
clears the tables of the rank. A PARITY_ALERT stops an ACTIVE channel, keeps the commands issued within WIN clocks and precharges every
bank; in recovery it counts another alert. The replay after fewer than 3 alerts issues them again; after 3 the retraining replays them, and
one more alert fails the channel. A calibration that is due goes to its rank, impedance every 128 ms, tracking every 16 ms. (R208, R209,
R212, R213, R214, R217, R218, R219, R221, R222, R224, R229.) -/
def Obligations.DdrEventsTakeEffect : Prop :=
  ∀ (s : State) (c : ChanNo), let d := s.dev; let x := d.chan c.val; let cfg := Dev.ddrA c.val + 0x100
    let banks (r : Nat) (f : Bank → Bank) (d : Dev) : Dev := d.modChan c.val fun ch =>
      { ch with banks := ch.banks.filterMap fun b => if b.1 / 64 = r then (if f b.2 = bankReset then none else some (b.1, f b.2)) else some b }
    (d.chanTrained c.val = true →
      (∀ r : Fin 4, r.val < d.rankCount c.val → let k := d.rank c.val r.val; let n := k.debt + 1
        let refi := if k.fast then 1950 else 3900; let all := d.fld (Dev.ddrA c.val + 0x108) 0 0 = 1
        let shut := (x.openRows.filter fun y => y.1 / 64 == r.val).map (·.1)
        let d1 := banks r.val (fun b => { b with raa := b.raa - Config.rfmStep false })
          (((shut.foldl (fun d k => d.precharge c.val k) d).setRank c.val r.val { k with debt := 0, dueAt := k.dueAt + refi }).bump (Reg.ddr c.val) 0x040 (if all then n else 4 * n))
        (x.recover = false → k.dueAt ≤ d.now → d.mustRefresh c.val r.val = true ∨ (d.inPanic c.val = false ∧ d.nbrQueued c.val r.val = false) →
          exec (.refreshDue c r) s = Obl.dev s (foldN n (fun _ d => if all then d.record c.val (.refab r.val)
            else foldN 4 (fun i d => d.record c.val (.refsb r.val i)) d) d1)) ∧
        (x.recover = false → k.dueAt ≤ d.now → d.mustRefresh c.val r.val = false → d.inPanic c.val = true → exec (.refreshDue c r) s =
          Obl.dev s ((d.setRank c.val r.val { k with debt := k.debt + 1, dueAt := k.dueAt + refi }).bump (Reg.ddr c.val) 0x048 1)) ∧
        (k.windowAt ≤ d.now → exec (.refreshWindowClear c r) s = Obl.dev s (banks r.val (fun b => { b with acts := [], floor := 0 })
          (d.setRank c.val r.val { k with windowAt := d.now + (if k.fast then 16000000 else 32000000) }))) ∧
        (x.recover = false → k.calAt + 128000000 ≤ d.now → exec (.periodicCalibration c r false) s =
          Obl.dev s ((d.record c.val (.calibrate r.val false)).setRank c.val r.val { k with calAt := d.now })) ∧
        (x.recover = false → k.trackAt + 16000000 ≤ d.now → exec (.periodicCalibration c r true) s =
          Obl.dev s ((d.record c.val (.calibrate r.val true)).setRank c.val r.val { k with trackAt := d.now }))) ∧
      (∀ hot, x.recover = false → x.mr4At ≤ d.now → let d1 := foldN (d.rankCount c.val) (fun r d => let h := hot.getD r .normal
          let d := (d.record c.val (.mr4 r)).setRank c.val r { d.rank c.val r with fast := h != .normal }
          if h = .above then (d.cause (Reg.ddr c.val) 2).logChan c.val 2 (c.val + r * 32) 5 else d) (d.modChan c.val fun x => { x with mr4At := d.now + 4000000 })
        exec (.mr4Poll c hot) s = Obl.dev s (d1.setFld cfg 4 4 (if (List.range (d1.rankCount c.val)).any fun r => (d1.rank c.val r).fast then 1 else 0)))) ∧
    (d.chanActive c.val = true → x.recover = false → let batch := d.batchNow c.val; let d1 := d.modChan c.val fun x => { x with batch := batch }
      (∀ w, batch = true → d1.pickWrite c.val = some w → exec (.dramReadIssue c) s = Obl.dev s (((d1.modChan c.val fun x =>
        { x with wr := x.wr.erase w, batch := decide (16 ≤ (x.wr.erase w).length) }).modChan c.val DdrChan.readmit).issue c.val w true)) ∧
      (∀ lt q, batch = false ∨ d1.pickWrite c.val = none → x.cmdWaits = false → d1.nextRead c.val = some (lt, q) →
        exec (.dramReadIssue c) s = Obl.dev s ((d1.rrStep c.val lt).serveRead c.val lt q))) ∧
    (∀ k row l, (d.bank c.val k).nbr = row :: l → x.recover = false → d.mustRefresh c.val (k / 64) = false →
      d.actsLeft c.val k (d.neighbours c.val row).length = true → let d1 := d.precharge c.val k; let b := d1.bank c.val k
      exec (.neighbourRefresh c k) s = Obl.dev s (((d.neighbours c.val row).foldl (fun d y => d.record c.val (.neighbour k y))
        ((d1.setBank c.val k { b with nbr := l, raa := b.raa + (d.neighbours c.val row).length }).bump (Reg.ddr c.val) 0x050 1)).manage c.val k)) ∧
    (d.chanActive c.val = true →
      (let back := x.retry.filter fun q => decide (d.ddrClock ≤ q.time + d.fld (Dev.ddrA c.val + 0x110) 7 0);
        x.recover = false → exec (.parityAlert c) s = Obl.dev s ((d.modChan c.val fun x => ({ x with recover := true, alerts := 1, window := back.reverse, reopen := back.foldl (fun rows q => rowsBefore q rows) x.openRows }).setRows []).bump (Reg.ddr c.val) 0x060 1)) ∧
      (x.recover = true →
        exec (.parityAlert c) s = Obl.dev s ((d.modChan c.val fun x => { x with alerts := x.alerts + 1 }).bump (Reg.ddr c.val) 0x060 1) ∧
        (x.alerts < 3 → exec (.parityReplay c) s = Obl.dev s (d.replayDone c.val)) ∧
        (3 ≤ x.alerts → exec (.caRetrain c false) s = Obl.dev s ((d.modChan c.val fun x => { x with retrained := true }).replayDone c.val) ∧
          exec (.caRetrain c true) s = Obl.dev s ((((((d.bump (Reg.ddr c.val) 0x060 1).modChan c.val fun x =>
            { x with recover := false, window := [], reopen := [], retrained := true, lat := [], bulk := [], wr := [], waits := [] }).setFld
            cfg 1 0 2).setFld cfg 5 5 0).cause (Reg.ddr c.val) 3).logChan c.val 2 c.val 6))))

/-- With the BUSY of DDR.TRAIN_CMD 0, SAVE on an ACTIVE channel stores the serial number of its DIMM and the training results in the module
store and completes OK, and CHECK on an ACTIVE channel makes its reads wait; both complete STATE_CONFLICT on a channel that is not ACTIVE.
The end of CHECK lets the reads go and completes OK, or UNCORRECTABLE when the check failed. Write d for the device with the BUSY of RAS.CMD
set, BUSY having been 0. LOG_READ of a record in the log marks it read, puts its image in DATA and completes OK, of any other
STATE_CONFLICT. MARK_DEVICE, RETIRE_ROW and RETIRE_BANK complete MALFORMED for a channel of the other half or an operand out of range;
MARK_DEVICE completes STATE_CONFLICT with a device marked already, else marks it and completes OK; RETIRE_ROW completes STATE_CONFLICT for a
row of the map or tags and QUOTA with 256 rows retired, RETIRE_BANK QUOTA with 4 banks retired, else the retirement begins. CLEAR_LOST_SET
empties the lost-set table and completes OK. (R228, R233, R244, R256, R258, R260, R263, R265.) -/
def Obligations.TrainingAndRasCommandsTakeEffect : Prop :=
  (∀ (s : State) (c : ChanNo), let a := Dev.ddrA c.val + 0x118; s.dev.busy a = false →
      (s.dev.chanActive c.val = true → exec (.trainSave c) s = .next { s with
        nv := { s.nv with training := match (s.dev.chan c.val).dimm with
          | some m => Tbl.put c.val (m.serial, (s.dev.chan c.val).results) s.nv.training | none => s.nv.training },
        dev := (s.dev.cmdBegin a).cmdEnd (Reg.ddr c.val) a 1 .ok }) ∧
      (s.dev.chanActive c.val = false → exec (.trainSave c) s = Obl.dev s ((s.dev.cmdBegin a).cmdEnd (Reg.ddr c.val) a 1 .stateConflict)) ∧
      exec (.trainCheck c) s = Obl.dev s (if (s.dev.cmdBegin a).chanActive c.val = true then (s.dev.cmdBegin a).modChan c.val fun x => { x with cmdWaits := true }
        else (s.dev.cmdBegin a).cmdEnd (Reg.ddr c.val) a 1 .stateConflict)) ∧
    (∀ (s : State) (c : ChanNo) pass, (s.dev.chan c.val).cmdWaits = true → exec (.trainCheckDone c pass) s = Obl.dev s
        (((s.dev.modChan c.val fun x => { x with cmdWaits := false }).readsGoOn).cmdEnd (Reg.ddr c.val) (Dev.ddrA c.val + 0x118) 1
          (if pass then .ok else .uncorrectable))) ∧
    (∀ (s : State) (h : Half), let sts := Reg.ras h * 4096 + 0x104; s.dev.busy sts = false →
      let d := s.dev.cmdBegin sts; let r := d.ras.at h; let v := d.rasData h 0; let w := d.rasData h 1; let c := v % 32; let rank := bits v 6 5
      let ends (d : Dev) (st : Status) : Host.Outcome State Fault Refusal := Obl.dev s (d.cmdEnd (Reg.ras h) sts 1 st)
      let retires (x : Nat × Nat × Bool) : Host.Outcome State Fault Refusal :=
        Obl.dev s (({ d with ras := d.ras.mod h fun r => { r with retire := some x } } : Dev).tryRetire h)
      (∀ e : LogRec, (r.log.find? fun e => e.seq.toNat == v) = some e → exec (.rasLogRead h) s =
        ends (({ d with ras := d.ras.set h { r with log := r.log.map fun (x : LogRec) => if x.seq = e.seq then { x with read := true } else x } } : Dev).setData
          (Reg.ras h * 4096 + 0x120) 16 e.view.toNat) .ok) ∧
      ((r.log.find? fun e => e.seq.toNat == v) = none → exec (.rasLogRead h) s = ends d .stateConflict) ∧
      (¬ (c < 24 ∧ halfOfChan c = h) → exec (.markDevice h) s = ends d .malformed ∧ exec (.retireRow h) s = ends d .malformed ∧
        exec (.retireBank h) s = ends d .malformed) ∧
      (c < 24 ∧ halfOfChan c = h →
        exec (.markDevice h) s = (if bits v 11 8 > 9 ∨ rank ≥ d.rankCount c then ends d .malformed
          else if (Tbl.get ⟨none, 0, 0⟩ (d.chan c).marks (rank * 2 + bits v 7 7)).marked.isSome = true then ends d .stateConflict
          else ends (d.markDevice c rank (bits v 7 7) (bits v 11 8)) .ok) ∧
        exec (.retireRow h) s = (if w ≥ d.tier.rows then ends d .malformed else if w ≥ d.tier.mapFirst then ends d .stateConflict
          else if (d.chan c).retRows.length ≥ 256 then ends d .quota else retires (c, w, false)) ∧
        exec (.retireBank h) s = (if rank ≥ d.rankCount c then ends d .malformed else if (d.chan c).retBanks.length ≥ 4 then ends d .quota
          else retires (c, rank * 32 + bits v 11 10 * 8 + bits v 9 7, true))) ∧
      exec (.clearLostSet h) s = ends { d with ras := d.ras.mod h fun r => { r with lost := [], lostAll := false } } .ok)

/-- DRAM_READ_DATA of DRAM, on an ACTIVE channel, for an address of a row that exists and is not retired, no alert having cut the read: for a
correction write the line is reread; for any other reader it is decoded with the flipped bits, what the decode finds is counted, recorded
and acted on, and a reader that is to be told of an uncorrectable line finds it marked. At the other sites the word code decodes: read or
write data on the mesh, whose uncorrectable words meet the next reader or the next write of the line; a word of a live core, whose
operations then fail and which is refilled; an entry of a micro-TLB, which is then invalidated; and an entry of a shared translation cache,
a set of a tag cache and a directory entry, whose ways are disabled where hard-faulted. A SCRUB_READ on an ACTIVE channel with the scrubber
on, no request for the subchannel waiting and its gap passed advances past retired rows and, when the rank waits for nothing, reads the
line, acts on what it finds, and ends the pass when both subchannels are done. A pass that exceeds LAP_ALARM sets the cause once. (R226,
R238, R242, R243, R244, R245, R247, R248, R250, R251, R254, R255.) -/
def Obligations.DramReadsAndScrubTakeEffect : Prop :=
  ∀ (s : State), let d := s.dev
    (∀ (c : ChanNo) a flips reader, let k := memKey c.val (a % 2 ^ 38) / 64
      d.chanActive c.val = true → a / 4096 < d.tier.rows → d.retired k = false → d.readCut c.val a = false →
      let x := d.decodeLine k flips
      let t := d.found k x reader false
      let told : Bool := match reader with | .host _ _ => true | .merge _ _ => true | .operation _ => true | _ => false
      (reader ≠ .correction → exec (.dramReadData (.dram c a flips reader)) s = Obl.dev s
        (if x.out = .uncorrectable ∧ told = true ∧ (t.mem.bad k = true ∨ t.moving k = true) then { t with mem := { t.mem with unc := NSet.insert k t.mem.unc } } else t)) ∧
      (reader = .correction → (d.ras.at (halfOfChan (keyChan k))).rereads.contains k = true →
        let h := halfOfChan (keyChan k); let d1 : Dev := { d with ras := d.ras.mod h fun r => { r with rereads := NSet.erase k r.rereads } }
        exec (.dramReadData (.dram c a flips reader)) s = Obl.dev s (if d1.moving k = true then d1.bump (Reg.ras h) 0x070 1
          else match (d1.decodeLine k flips).out with
            | .corrected => (d1.store k (d1.decodeLine k flips).data).noteWrite k (some (d1.decodeLine k flips).data)
            | .uncorrectable => d1.found k (d1.decodeLine k flips) .none false
            | _ => d1))) ∧
    (∀ (line : LineNo) flips h e syn, let corr := Obl.meshRecord h e line syn 1 0 (d.bump (Reg.ras h) 0x040 (syn.filter (· != (0 : Byte))).length)
      let unc (m : Mem) : Dev := Obl.meshRecord h e line syn 3 1 { d with mem := m }
      (d.meshRead line flips = some (h, e, .corrected, syn) →
        exec (.dramReadData (.readData line flips)) s = Obl.dev s corr ∧ exec (.dramReadData (.writeData line flips)) s = Obl.dev s corr) ∧
      (d.meshRead line flips = some (h, e, .uncorrectable, syn) →
        exec (.dramReadData (.readData line flips)) s = Obl.dev s (unc { d.mem with rdBad := NSet.insert line.toNat d.mem.rdBad }) ∧
        exec (.dramReadData (.writeData line flips)) s = Obl.dev s (unc { d.mem with wrBad := NSet.insert line.toNat d.mem.wrBad }))) ∧
    (∀ (c : Fin 576) w flip, let out := wordFinding flip; let d1 := d.logSram (halfOfCore c.val) out (blockOf (Reg.nmc (c.val / 16)))
      d.coreLive c.val = true → exec (.dramReadData (.core c w flip)) s = Obl.dev s (if out = .uncorrectable then
        (d1.failOnCore c.val).modOpq fun o => { o with refill := if o.refill.contains c.val then o.refill else o.refill ++ [c.val] } else d1)) ∧
    (∀ (c : Fin 576) (p : Fin 64) flip, let d1 := d.logSram (halfOfCore c.val) (wordFinding flip) (blockOf (Reg.ras (halfOfCore c.val)))
      exec (.dramReadData (.micro c p flip)) s = Obl.dev s (if wordFinding flip = .uncorrectable then d1.modXlt fun t =>
        { t with micro := t.micro.map fun x => if x.1 = c.val then (x.1, { x.2 with ents := Tbl.drop p.val x.2.ents }) else x } else d1)) ∧
    (∀ (h : Half) (set : BitVec 10) (way : Fin 16) flip, let own := (d.xlt.shared.at h).filter fun y => Dev.sharedSet y == set
      exec (.dramReadData (.shared h set way flip)) s = Obl.dev s ((if wordFinding flip = .uncorrectable then d.modXlt fun t =>
        { t with shared := t.shared.set h ((t.shared.at h).filter fun y => some y != own[way.val]?) } else d).arrayError h 1 set.toNat way.val 0 (wordFinding flip))) ∧
    (∀ (h : Half) (p : Fin 8192) flip, wordFinding flip ≠ .uncorrectable → exec (.dramReadData (.tags h p flip)) s =
      Obl.dev s (d.arrayError h 2 (p.val / 16) (p.val % 16) 0 (wordFinding flip))) ∧
    (∀ (h : Half) (p : Fin 8192) flip x, wordFinding flip = .uncorrectable → (d.tier.tags.at h)[p.val]? = some x → exec (.dramReadData (.tags h p flip)) s =
      Obl.dev s ((foldN 8 (fun j (d : Dev) => d.noteRead false (Config.tagPlace x + j)) d).arrayError h 2 (p.val / 16) (p.val % 16) 0 (wordFinding flip))) ∧
    (∀ (line : LineNo) (way : Fin 16) a b w ent, d.dirEnt line.toNat = some ent → let h := d.lineHalf line.toNat; let set := (Config.dirSet line).toNat
      let d1 := if wordFinding a = .uncorrectable ∧ wordFinding b = .uncorrectable then d.dirLost line.toNat
        else if wordFinding w = .uncorrectable then d.sharersLost line.toNat ent else d
      let d2 := ((d1.arrayError h 0 set way.val 0 (wordFinding a)).arrayError h 0 set way.val 1 (wordFinding b)).arrayError h 0 set way.val 2 (wordFinding w)
      exec (.dramReadData (.dir line way a b w)) s =
        Obl.dev s (if (d2.ras.at h).waysOff.length = (d1.ras.at h).waysOff.length then d2 else d2.clearDirWay line.toNat)) ∧
    (∀ (c : ChanNo) (sub : Bool) flips, let h := halfOfChan c.val; let sn := if sub then 1 else 0; let x := d.chan c.val; let cfg := Reg.ras h * 4096 + 0x108
      d.chanActive c.val = true → d.fld cfg 0 0 = 1 → x.recover = false → x.cmdWaits = false →
      ((x.lat ++ x.bulk ++ x.wr).any fun q => bits q.line 6 6 == sn) = false → x.lapSubs.at (Dev.subHalf sub) = false →
      x.scrubBusy.at (Dev.subHalf sub) + min1 (d.fld cfg 15 8) * 25 ≤ d.now →
      let i := d.skipRetired c.val sn (x.scrubAt.at (Dev.subHalf sub)); let q : ChanReq := ⟨Dev.scrubAddr sn i, d.now, none⟩
      i < d.tier.rows * 32 → d.issuable c.val q = true → d.now < (d.rank c.val (rankOf (d.bankOf c.val q.line).1)).dueAt →
      let d0 := d.issue c.val q false
      let d1 := d0.modChan c.val fun x =>
        { x with scrubAt := x.scrubAt.set (Dev.subHalf sub) (i + 1), scrubBusy := x.scrubBusy.set (Dev.subHalf sub) d0.now,
                 lapSubs := if i + 1 ≥ d.tier.rows * 32 then x.lapSubs.set (Dev.subHalf sub) true else x.lapSubs }
      let k := memKey c.val (Dev.scrubAddr sn i) / 64
      let d2 := d1.found k (d1.decodeLine k flips) .none true
      let done := (d2.chan c.val).lapSubs
      exec (.scrubRead c sub flips) s = Obl.dev s (if done.west = true ∧ done.east = true then d2.lapEnd c.val else d2)) ∧
    (∀ (c : ChanNo), let alarm := d.fld (Reg.ras (halfOfChan c.val) * 4096 + 0x108) 31 16
      alarm ≠ 0 → d.chanActive c.val = true → (d.chan c.val).lapAlarm = false → (d.chan c.val).lapStart + alarm * 3600000000000 < d.now →
      exec (.scrubLapAlarm c) s = Obl.dev s ((d.modChan c.val fun x => { x with lapAlarm := true }).cause (Reg.ras (halfOfChan c.val)) 3))

/-- An ENGINE_ACCESS of an engine that is not parked gets the next number. In quiet mode it waits for a slot; else a hit in the core's micro-
TLB, or of a leaf in the shared cache, is used; an address that cannot be walked faults; any other miss joins the walk of its 64 KiB page,
or a new demand walk while fewer than 256 wait, or stalls. ENGINE_RETRY of an access that stalled or whose time has come, and that no
earlier ring entry holds, sends its doorbell again or looks it up again. PAGE_TABLE_WALK starts the oldest waiting demand walk of the half
while fewer than 16 walkers work. WALK_TABLE_READ of a good entry: a leaf ends the walk, a pointer goes to the next level; a bad line, a
missing, reserved or misaligned entry ends it with its cause, and a walk that an invalidation marked restarts instead of ending. A walk of
more than 20 µs ends with cause 7, or restarts. A prefetch of a tile that may be walked ahead walks its next page, goes past a page that is
known or was tried, reads the list entry that names the tile, or goes to the next tile after its last page or 64 pages. A record at its hold
limit is aborted with outcome 3. The end of a drain completes the invalidation OK. (R88, R91, R97, R98, R99, R100, R102, R105, R108, R110,
R113, R169.) -/
def Obligations.EngineAccessesAndWalksTakeEffect : Prop :=
  (∀ (s : State) (who : Engine) (p : PartId) (va : Word64) (k : EngKind), let d := s.dev; let id := d.xlt.nextAcc; let h := d.engHalf who; let a := va.toNat
      let d1 := d.modXlt fun t => { t with accs := t.accs ++ [⟨id, who, p, .va va, k, none, false, .asked, d.now, .stalled⟩], nextAcc := id + 1 }
      let d2 := d1.startTile who a
      let micro := match who with | .core c _ => Dev.cached ((d.microOf c.val).ents.map (·.2)) p a | _ => none
      let acc := exec (.engineAccess who p va k) s
      d.acc? id = none → d.parkedEngine who = false →
      (d.inQuiet who p = true → acc = Obl.dev s (d1.modAcc id fun a => { a with state := .slot })) ∧
      (d.inQuiet who p = false →
        (∀ x, micro = some x → acc = Obl.dev s ((match who with | .core c _ => d1.microUse c.val x | _ => d1).useLeaf id x)) ∧
        (micro = none →
          (∀ cause, d2.walkRefused p a = some cause → acc = Obl.dev s (d2.fault [id] p a cause 0 (engWrites k))) ∧
          (d2.walkRefused p a = none →
            (∀ x, Dev.cached (d2.xlt.shared.at h) p a = some x → pteLeaf x.entry.toNat = true →
              acc = Obl.dev s ((match who with | .core c _ => d2.fillMicro c.val x | _ => d2).useLeaf id x)) ∧
            ((∀ x, Dev.cached (d2.xlt.shared.at h) p a = some x → pteLeaf x.entry.toNat = false) →
              acc = Obl.dev s (d2.missWalk id h p a (engWrites k))))))) ∧
    (∀ (d : Dev) id h p va write, let old := d.xlt.walks.find? fun w => w.half == h && w.part == p && w.va.toNat / 65536 == va / 65536
      let waiting := (d.xlt.walks.filter fun w => w.half == h && !w.running && w.stream.isNone).length
      (∀ w, old = some w → d.missWalk id h p va write = (d.modXlt fun t => { t with walks := t.walks.map fun x =>
        if x.id = w.id ∧ x.stream.isSome = true then { x with stream := none, write := write } else x }).modAcc id fun a => { a with state := .walking w.id }) ∧
      (old = none → waiting < 256 → d.missWalk id h p va write = (d.modXlt fun t => { t with
        walks := t.walks ++ [⟨d.xlt.nextWalk, h, p, BitVec.ofNat 64 va, write, none, false, 0, 4, 0, [], false⟩], nextWalk := d.xlt.nextWalk + 1 }).modAcc id
        fun a => { a with state := .walking d.xlt.nextWalk }) ∧
      (old = none → 256 ≤ waiting → d.missWalk id h p va write = d.modAcc id fun a => { a with state := .stalled })) ∧
    (∀ (s : State) (id : Nat) a, s.dev.acc? id = some a → a.state = .stalled ∨ (∃ t, a.state = .retry t ∧ t ≤ s.dev.now) → s.dev.ringWaits a = false →
      let d := s.dev.modXlt fun t => { t with inval := t.inval.map fun x => { x with accs := x.accs.filter fun i => i != id } }
      (∀ t v, (d.fab.dev.find? fun t => t.acc == id) = some t → t.kind = .doorbell v →
        exec (.engineRetry id) s = Obl.dev s ((d.modAcc id fun a => { a with state := .remote }).issueDevTx t)) ∧
      ((∀ t, (d.fab.dev.find? fun t => t.acc == id) = some t → ∀ v, t.kind ≠ .doorbell v) → exec (.engineRetry id) s = Obl.dev s (d.startAcc id))) ∧
    (∀ (s : State) (h : Half) w, (s.dev.xlt.walks.find? fun w => w.half == h && !w.running && w.stream.isNone) = some w → s.dev.busyWalkers h < 16 →
      let at_ := s.dev.walkStart w.half w.part w.va.toNat false
      exec (.pageTableWalk h) s = Obl.dev s (match s.dev.walkRefused w.part w.va.toNat with
        | some cause => s.dev.walkFault w cause 0
        | none => s.dev.modWalk w.id fun w => { w with running := true, since := s.dev.now, level := at_.1, table := at_.2, found := [], restart := false })) ∧
    (∀ (s : State) (id : Nat) w, (s.dev.xlt.walks.find? fun w => w.id == id) = some w → w.running = true →
      let off := w.table + 8 * levelIndex w.va.toNat w.level; let tiered := (s.dev.extAt off).any fun e => e.2.tiered && e.2.state == .active && e.2.part == w.part
      let ends (d e : Dev) : Host.Outcome State Fault Refusal := Obl.dev s (if w.restart then d.beginWalk w true else e)
      let fails (d : Dev) (cause : Nat) : Host.Outcome State Fault Refusal := ends d (d.walkFault w cause w.level)
      (tiered = true → exec (.walkTableRead id) s = fails s.dev 5) ∧
      (∀ d, tiered = false → s.dev.engLocal (.walk id) w.part off .read = (none, d) → exec (.walkTableRead id) s = Obl.dev s d) ∧
      (∀ st data d, tiered = false → s.dev.engLocal (.walk id) w.part off .read = (some (st, data), d) → let e := leAt data (off % 64) 8
        exec (.walkTableRead id) s = (if st = .poisoned ∨ st = .uncorrectable then fails d 6 else if st ≠ .ok then fails d 5
          else if pteBad e w.level = true then fails d 3 else if pteV e = false then fails d 1 else if pteMisaligned e w.level = true then fails d 4
          else if pteLeaf e = true then ends d (d.walkLeaf w (BitVec.ofNat 64 e))
          else Obl.dev s (d.modWalk id fun w => { w with level := w.level - 1, table := bits e 47 8 * 256, found :=
            if w.level ≥ 3 then w.found ++ [⟨w.part, w.level, w.va.toNat / 2 ^ levelBits w.level, BitVec.ofNat 64 e⟩] else w.found })))) ∧
    (∀ (s : State) (id : Nat) w, (s.dev.xlt.walks.find? fun w => w.id == id) = some w → w.running = true → w.since + 20000 < s.dev.now →
      exec (.walkTimeout id) s = Obl.dev s (if w.restart then s.dev.beginWalk w true else s.dev.walkFault w 7 w.level)) ∧
    (∀ (s : State) (op : Nat) (i : Fin 32) (h : Half) o x, let d := s.dev
      (d.opq.ops.find? fun o => o.id == op) = some o → o.streams[i.val]? = some x → o.state = .running →
      (o.cores.any fun c => (Tbl.find d.lmap c.val).any fun p => halfOfCore p == h) = true →
      (d.xlt.walks.any fun w => w.half == h && !w.running && w.stream.isNone) = false → d.busyWalkers h ≤ 12 → x.tile.at h < min x.wanted x.count →
      let tile := x.tile.at h
      let place := if x.isList then Tbl.find x.addrs tile else some ((x.base.toNat : Int) + (tile : Int) * x.stride).toNat
      (place = none → exec (.prefetchWalk op i h) s = Obl.dev s (d.listRead op i.val h o.part x tile)) ∧
      (∀ a n y tried, place = some a → x.page.at h = (n, y, tried) → let va := if n = 0 ∧ tried = false then a / 65536 * 65536 else y
        let known := (Dev.cached (d.xlt.shared.at h) o.part va).filter fun x => pteLeaf x.entry.toNat
        let walked := d.xlt.walks.any fun w => w.half == h && w.part == o.part && w.va.toNat / 65536 == va / 65536
        let page (v : Nat × Nat × Bool) : Dev := d.modStream op i.val fun s => { s with page := s.page.set h v }
        (a + 2 ^ x.tileLog2 ≤ va ∨ 64 ≤ n → exec (.prefetchWalk op i h) s =
          Obl.dev s (d.modStream op i.val fun s => { s with tile := s.tile.set h (tile + 1), page := s.page.set h (0, 0, false) })) ∧
        (va < a + 2 ^ x.tileLog2 → n < 64 →
          (∀ z, known = some z → exec (.prefetchWalk op i h) s =
            Obl.dev s (page (n + 1, (va / 2 ^ pageBits z.level + 1) * 2 ^ pageBits z.level, false))) ∧
          (known = none → walked = false → exec (.prefetchWalk op i h) s =
            Obl.dev s (if tried then page (n + 1, va + 65536, false) else (page (n, va, true)).startPrefetch op i.val h o.part va))))) ∧
    (∀ (s : State) (r : BitVec 9) x, s.dev.faultRec? r.toNat = some x → x.since + min1 (s.dev.fld 0x8108 15 0) * 100000 ≤ s.dev.now →
      exec (.faultHoldExpiry r) s = Obl.dev s (s.dev.abortRecord r.toNat 3)) ∧
    (∀ s : State, s.dev.drained = true → let d := s.dev.modXlt fun t => { t with inval := none }
      exec .invalidationDrainEnd s = Obl.dev s (if d.busy 0x8104 = true then d.cmdEnd Reg.xlt 0x8104 1 .ok else d))

/-- Write d for the device with XLT.CMD_STS.BUSY set, BUSY having been 0, and x for DATA0 to DATA7. CTX_READ puts the context's image in DATA
and completes OK. CTX_WRITE of an existing partition that is not confidential, with ROOT_LOG 9 to 18, FQ_LOG 4 to 12 and no reserved bit
set, stores the context with its ring on its first lap and invalidates every translation of the partition. INV_PAGE of an address below
2^57, INV_RANGE of an aligned range that ends at or below 2^57 and INV_PART of an existing partition begin the invalidation of what they
name. FAULT_READ puts the record's image in DATA and completes OK. FAULT_RESUME lets the parked accesses try again at once, frees the record
with outcome 1 and completes OK. FAULT_ABORT ends them with TRANSLATION_FAULT, frees it with outcome 2 and completes OK. Otherwise the
command only ends: STATE_CONFLICT for CTX_WRITE of a confidential partition, then MALFORMED for a field outside its range, then
STATE_CONFLICT for a partition that is absent; MALFORMED for an address or range of another form; STATE_CONFLICT for INV_PART of an absent
partition and for a record that holds no fault. (R92, R93, R94, R95, R108, R111, R112, R113, R499.) -/
def Obligations.XltCommandsTakeEffect : Prop :=
  ∀ (s : State) (p : PartId) (r : BitVec 9), s.dev.busy 0x8104 = false → let d := s.dev.cmdBegin 0x8104; let x := d.xltData
    let ok (d : Dev) : Host.Outcome State Fault Refusal := Obl.dev s (d.cmdEnd Reg.xlt 0x8104 1 .ok)
    let no (st : Status) : Host.Outcome State Fault Refusal := Obl.dev s (d.cmdEnd Reg.xlt 0x8104 1 st)
    exec (.ctxRead p) s = ok (d.setData 0x8110 8 (Dev.ctxImage (d.ctx p))) ∧
    (∀ w0 w1 w2, w0 = bits x 63 0 → w1 = bits x 127 64 → w2 = bits x 191 128 → d.conf p = false → (d.part? p).isSome = true →
      9 ≤ bits w0 6 2 → bits w0 6 2 ≤ 18 → bits w0 11 7 = 0 → bits w0 63 48 = 0 → 4 ≤ bits w1 3 0 → bits w1 3 0 ≤ 12 → bits w1 11 5 = 0 →
      bits w1 63 48 = 0 → bits w2 63 12 = 0 → bits x 255 192 = 0 →
      exec (.ctxWrite p) s = Obl.dev s ((d.modPart p fun q => { q with ctx :=
        { enable := bits w0 0 0 = 1, park := bits w0 1 1 = 1, rootLog := BitVec.ofNat 5 (bits w0 6 2), root := BitVec.ofNat 64 (bits w0 47 12),
          fqLog := BitVec.ofNat 4 (bits w1 3 0), fqEn := bits w1 4 4 = 1, fqBase := BitVec.ofNat 64 (bits w1 47 12),
          faultVec := BitVec.ofNat 11 (bits w2 10 0), vecEn := bits w2 11 11 = 1, fqIndex := 0, fqPhase := true } }).invalidate p 0 (2 ^ 64))) ∧
    (bits x 63 0 < 2 ^ 57 → exec (.invPage p) s = Obl.dev s (d.invalidate p (bits x 63 0) (bits x 63 0 + 1))) ∧
    (bits x 63 0 % 65536 = 0 → bits x 127 64 % 65536 = 0 → bits x 127 64 ≠ 0 → bits x 63 0 + bits x 127 64 ≤ 2 ^ 57 →
      exec (.invRange p) s = Obl.dev s (d.invalidate p (bits x 63 0) (bits x 63 0 + bits x 127 64))) ∧
    ((d.part? p).isSome = true → exec (.invPart p) s = Obl.dev s (d.invalidate p 0 (2 ^ 64))) ∧
    (∀ f, d.faultRec? r.toNat = some f →
      exec (.faultRead r) s = ok (d.setData 0x8110 8 (d.recordImage r.toNat f (Tbl.find d.sec.borrow 0x8104).isSome)) ∧
      exec (.faultResume r) s = ok (((d.waiters r.toNat).foldl (fun d a => d.modAcc a.id fun a => { a with state := .retry d.now }) d).freeRecord r.toNat 1) ∧
      exec (.faultAbort r) s = ok (d.abortRecord r.toNat 2)) ∧
    (d.conf p = true → exec (.ctxWrite p) s = no .stateConflict) ∧
    (∀ w0 w1 w2, w0 = bits x 63 0 → w1 = bits x 127 64 → w2 = bits x 191 128 → d.conf p = false →
      let bad := bits w0 6 2 < 9 ∨ bits w0 6 2 > 18 ∨ bits w0 11 7 ≠ 0 ∨ bits w0 63 48 ≠ 0 ∨ bits w1 3 0 < 4 ∨ bits w1 3 0 > 12 ∨ bits w1 11 5 ≠ 0 ∨
        bits w1 63 48 ≠ 0 ∨ bits w2 63 12 ≠ 0 ∨ bits x 255 192 ≠ 0
      (bad → exec (.ctxWrite p) s = no .malformed) ∧ (¬ bad → d.part? p = none → exec (.ctxWrite p) s = no .stateConflict)) ∧
    (bits x 63 0 ≥ 2 ^ 57 → exec (.invPage p) s = no .malformed) ∧
    (bits x 63 0 % 65536 ≠ 0 ∨ bits x 127 64 % 65536 ≠ 0 ∨ bits x 127 64 = 0 ∨ bits x 63 0 + bits x 127 64 > 2 ^ 57 →
      exec (.invRange p) s = no .malformed) ∧
    (d.part? p = none → exec (.invPart p) s = no .stateConflict) ∧
    (d.faultRec? r.toNat = none → exec (.faultRead r) s = no .stateConflict ∧ exec (.faultResume r) s = no .stateConflict ∧
      exec (.faultAbort r) s = no .stateConflict)

/-- Write d for the device with OPQ.CMD_STS.BUSY set, BUSY having been 0, and x for DATA0 to DATA7. For a queue that is on chip: Q_READ puts its
image in DATA; Q_DRAIN of an ACTIVE queue makes it DRAINING up to SQ_TAIL; Q_ENABLE of a STOPPED queue (not of a confidential partition)
makes it ACTIVE with DROPPED 0; Q_RESET of a queue that is neither RESETTING nor LOST begins its reset and waits; Q_DESTROY of a STOPPED or
LOST queue frees it; in any other state they complete STATE_CONFLICT. On a queue whose context is not on chip each waits for it, and on a
queue that does not exist it completes STATE_CONFLICT. Q_CREATE of a FREE queue from a well-formed image, in a partition with a spill
extent, whose rings and head line are pinned, within the quota, lists the queue ACTIVE and empty in the lowest free slot, or waits while its
half is full. PART_SET and PART_READ write and read the spill extent and the quota. CORE_ASSIGN of unassigned live cores and CORE_RELEASE of
cores of the partition refill them and wait. PART_RESET resets the queues of the partition, frees its records with outcome 4, refills its
cores and waits. All complete OK but those that wait. (R272, R273, R274, R275, R296, R297, R299, R300, R303, R499.) -/
def Obligations.OpqCommandsTakeEffect : Prop :=
  ∀ (s : State) (qid : QueueId) (p : PartId), s.dev.busy 0x7104 = false → let d := s.dev.cmdBegin 0x7104; let x := d.opqData
    let ends (d : Dev) (st : Status) : Host.Outcome State Fault Refusal := Obl.dev s (d.cmdEnd Reg.opq 0x7104 1 st)
    let waits (code : Nat) : Host.Outcome State Fault Refusal := Obl.dev s (d.modOpq fun o =>
      { o with waitCmd := some (code, qid, 0, x), loading := if o.loading.contains qid then o.loading else o.loading ++ [qid] })
    (∀ q, d.queue? qid = some q → q.onChip = true →
      exec (.qRead qid) s = ends (d.setData 0x7110 8 (Dev.queueImage q)) .ok ∧
      exec (.qDrain qid) s = (if q.state = .active then
        ends ((d.modQueue qid fun q => { q with state := .draining, drainMark := some q.sqTail }).drainCheck qid) .ok else ends d .stateConflict) ∧
      exec (.qEnable qid) s = (if d.conf q.part = false ∧ q.state = .stopped then ends (d.modQueue qid fun q => { q with state := .active, dropped := 0 }) .ok
        else ends d .stateConflict) ∧
      exec (.qReset qid) s = (if q.state = .resetting ∨ q.state = .lost then ends d .stateConflict
        else Obl.dev s ((d.modOpq fun o => { o with waitQueue := some qid }).resetQueue qid .command)) ∧
      exec (.qDestroy qid) s = (if q.state = .stopped ∨ q.state = .lost then
        ends ((((d.opsOf qid).foldl (fun d o => d.dropOp o.id) (q.fetch.elim d fun a => d.dropAcc a)).modOpq fun o =>
          { o with queues := Tbl.drop qid.toNat o.queues }).tryBells) .ok else ends d .stateConflict)) ∧
    (∀ q, d.queue? qid = some q → q.onChip = false → exec (.qRead qid) s = waits 2 ∧ exec (.qDrain qid) s = waits 3 ∧
      (d.conf q.part = false → exec (.qEnable qid) s = waits 4) ∧ exec (.qReset qid) s = waits 5 ∧ exec (.qDestroy qid) s = waits 6) ∧
    (d.queue? qid = none → ∀ i ∈ [Instr.qRead qid, .qDrain qid, .qEnable qid, .qReset qid, .qDestroy qid], exec i s = ends d .stateConflict) ∧
    (∀ w0 w1 w2 r, w0 = bits x 63 0 → w1 = bits x 127 64 → w2 = bits x 191 128 → let n := bits w0 4 0
      4 ≤ n → n ≤ 15 → bits w0 11 8 ≠ 0 → bits w0 63 49 = 0 → bits w1 11 8 = 0 → bits w1 63 60 = 0 → bits w2 5 0 = 0 → bits w2 63 60 = 0 →
      d.conf p = false → d.part? p = some r → r.spill.isSome = true → d.queue? qid = none →
      d.pinnedRange p (bits w0 47 12 * 4096) (128 * 2 ^ n) = true → d.pinnedRange p (bits w1 47 12 * 4096) (32 * 2 ^ n) = true →
      d.pinnedRange p (bits w2 47 6 * 64) 64 = true → (d.queuesOf p).length < r.quota.toNat → let h : Half := if bits w0 48 48 = 1 then .east else .west
      (∀ d1, d.makeRoom h qid = (false, d1) → exec (.qCreate qid p) s =
        Obl.dev s (d1.modOpq fun o => { o with waitCmd := some (1, qid, p, x), loading := o.loading ++ [qid] })) ∧
      (∀ d1, d.makeRoom h qid = (true, d1) → let slots := (d1.queuesOf p).map fun y => y.2.slot
        let q0 : Queue :=
          { state := .active, part := p, half := h, sizeLog2 := n, weight := bits w0 11 8, sqBase := bits w0 47 12 * 4096, maxInflight := bits w1 7 0,
            cqBase := bits w1 47 12 * 4096, headLine := bits w2 47 6 * 64, vec := BitVec.ofNat 11 (bits w2 58 48), vecEn := bits w2 59 59 = 1, sqHead := 0,
            sqTail := 0, cqTail := 0, cqHead := 0, lap := true, dropped := 0, drainMark := none, resetMark := 0, resetAt := 0, resetWhy := none,
            slot := ((List.range (slots.length + 1)).find? fun i => !slots.contains i).getD 0, onChip := true, usedAt := d1.opq.lastUse + 1, held := [],
            fullSince := none, polledAt := 0, failures := 0, aborting := false, chain := [], fetched := [], trace := [], fetch := none }
        exec (.qCreate qid p) s = ends (d1.modOpq fun o => { o with queues := Tbl.put qid.toNat q0 o.queues, lastUse := o.lastUse + 1 }) .ok)) ∧
    (∀ r, d.part? p = some r →
      (let i := bits x 14 0; let valid := bits x 15 15 = 1; let e := d.ext i; let spill : Option ExtIdx := if valid then some (BitVec.ofNat 15 i) else none;
        d.conf p = false → bits x 47 32 ≤ 32768 →
        (valid → e.state = .active ∧ e.tiered = false ∧ e.part = p ∧ bits (d.perm e) 4 3 = 3 ∧ 2 ^ 22 ≤ e.size) →
        (spill ≠ r.spill → (d.queuesOf p).length = 0 ∧ r.quiet.on = false) → (d.queuesOf p).length ≤ bits x 47 32 → exec (.partSet p) s =
          ends (d.modPart p fun p => { p with spill := spill, spillIx := BitVec.ofNat 15 i, quota := BitVec.ofNat 16 (bits x 47 32) }) .ok) ∧
      exec (.partRead p) s = ends (d.setData 0x7110 3 (r.spillIx.toNat + (if r.spill.isSome = true then 2 ^ 15 else 0) + r.quota.toNat * 2 ^ 32 +
        ((d.queuesOf p).length + r.cores.length * 2 ^ 16) * 2 ^ 64)) .ok ∧
      (∀ l, Dev.coreRange x = some l → (∀ c ∈ l, d.coreAssigned c = false ∧ c.val < d.fld 0x104 9 0 ∧
          ∃ ph, d.phys c.val = some ph ∧ (d.core ph).fenced = false) → let ph := l.filterMap fun c => d.phys c.val
        exec (.coreAssign p) s = Obl.dev s ((d.modXlt fun t => { t with micro := t.micro.filter fun x => !ph.contains x.1 }).modOpq fun o =>
          { o with joins := some (p, l), refill := o.refill ++ ph })) ∧
      (∀ l, Dev.coreRange x = some l → (∀ c ∈ l, c ∈ r.cores) →
        let d1 := l.foldl (fun d c => d.leaveCore c) (d.modPart p fun p => { p with cores := p.cores.filter fun c => !l.contains c })
        let ph := l.filterMap fun c => d1.phys c.val
        exec (.coreRelease p) s = Obl.dev s ((d1.modOpq fun o => { o with leaves := some ph, refill := o.refill ++ ph }).cancelCoreless p)) ∧
      (let d1 := (d.queuesOf p).foldl (fun (d : Dev) (x : Nat × Queue) => let q : QueueId := BitVec.ofNat 16 x.1
          if x.2.state = .lost ∨ x.2.state = .resetting then d else if x.2.onChip = true then d.resetQueue q .partition
          else if d.opq.loading.contains q then d else d.modOpq fun o => { o with loading := o.loading ++ [q] })
          (d.modOpq fun o => { o with waitPart := some p })
        let d2 := ((d1.xlt.records.filter fun r => r.2.part == p).map (·.1)).foldl (fun d r => d.freeRecord r 4) d1
        let ph := r.cores.filterMap fun c => d2.phys c.val
        exec (.partReset p) s = Obl.dev s (d2.modOpq fun o => { o with refill := o.refill ++ ph.filter fun c => !o.refill.contains c }).partResetCheck))

/-- CONTEXT_RELOAD of a queue being loaded: one whose spill waits is spilled; else, with room on chip, it is restored when its context is read
and lost when it cannot be; one that is on chip, and what waited for it, goes on. DESCRIPTOR_FETCH of an on-chip queue that is not LOST
carries on a check, or, with entries and no open FENCE, reads the descriptor at SQ_HEAD, advances SQ_HEAD, counts it and checks it, or
completes it CANCELLED in a reset; of a queue not on chip it asks for the context. OPERATION_START, and LAUNCH_COUNT_REACHED for a launch,
start an operation that can start and whose queue is next. UNIT_TAKE gives the lowest free unit of a running operation to a core of the
partition that runs, is within the cap and has room. TIME_BUDGET_EXPIRY ends a started operation other than a FENCE with TIMEOUT.
COMPLETION_RECORD_WRITE writes the oldest record, its writes completed, advances CQ_TAIL and interrupts; a write that fails drops the record
and stops the queue. HEAD_LINE_POLL of a full CQ takes a good CQ_HEAD. RESET_RECORD_TIMEOUT drops the records of a reset after 1 ms;
QUEUE_STALL resets a queue that has held a record for 50 ms. CORE_REFILL_DONE ends a core's refill, and the command that waited for the last
core. (R246, R271, R275, R281, R283, R284, R285, R286, R293, R294, R297, R298.) -/
def Obligations.OpqEventsTakeEffect : Prop :=
  ∀ (s : State) (qid : QueueId), let d := s.dev
    (d.opq.loading.contains qid = true →
      (d.queue? qid = none ∨ (∃ q, d.queue? qid = some q ∧ q.onChip = true) → exec (.contextReload qid) s = Obl.dev s (d.reloaded qid)) ∧
      (∀ q, d.queue? qid = some q → q.onChip = false →
        (d.opq.spills.contains qid = true → exec (.contextReload qid) s = Obl.dev s (d.spillQueue qid q).2) ∧
        (d.opq.spills.contains qid = false →
          (∀ d1, d.makeRoom q.half qid = (false, d1) → exec (.contextReload qid) s = Obl.dev s d1) ∧
          (∀ d1, d.makeRoom q.half qid = (true, d1) → d1.spillOff q = none → exec (.contextReload qid) s = Obl.dev s ((d1.loseQueue qid).reloaded qid)) ∧
          (∀ d1 off r d2, d.makeRoom q.half qid = (true, d1) → d1.spillOff q = some off → d1.engLocal (.front qid.toNat 4) q.part off .read = (r, d2) →
            exec (.contextReload qid) s = Obl.dev s (match r with
              | none => d2
              | some (.ok, b) => (((d2.modQueue qid fun q => { Dev.ofSpill b q with onChip := true, usedAt := d2.opq.lastUse + 1 }).modOpq fun o =>
                  { o with lastUse := o.lastUse + 1 }).bump Reg.opq 0x068 1).reloaded qid
              | some _ => (d2.loseQueue qid).reloaded qid))))) ∧
    (∀ q, d.queue? qid = some q → q.state ≠ .lost →
      (q.onChip = false → d.opq.loading.contains qid = false → q.sqHead ≠ q.sqTail →
        exec (.descriptorFetch qid) s = Obl.dev s (d.modOpq fun o => { o with loading := o.loading ++ [qid] })) ∧
      (q.onChip = true → q.fetched ≠ [] → exec (.descriptorFetch qid) s = Obl.dev s (d.checkOn qid)) ∧
      (∀ r d1, q.onChip = true → q.fetched = [] → q.sqHead ≠ (if q.state = .resetting then q.resetMark else q.sqTail) →
        q.state = .resetting ∨ d.fenceOpen qid = false → Dev.readDesc qid q q.sqHead d = (some r, d1) →
        let mark := if q.drainMark = some q.sqHead then none else q.drainMark; let above := q.state == .draining && mark.isNone
        let d2 := d1.modQueue qid fun r => { r with sqHead := q.sqHead + 1, drainMark := mark }
        exec (.descriptorFetch qid) s = Obl.dev s (match r with
          | .error st => if q.state = .resetting then (d2.endMembers qid [⟨q.sqHead, [], [], [], [], above, none⟩] false fun _ => .cancelled).resetCheck qid
            else d2.takeMember qid ⟨q.sqHead, [], [], [], [], above, some st⟩
          | .ok b => if q.state = .resetting then
              ((d2.bump Reg.opq 0x040 1).endMembers qid [⟨q.sqHead, b, [], [], [], above, none⟩] false fun _ => .cancelled).resetCheck qid
            else ((d2.bump Reg.opq 0x040 1).modQueue qid fun q => { q with fetched := b, trace := [], fetch := none }).checkOn qid))) ∧
    (∀ id o p q, d.op? id = some o → d.part? o.part = some p → d.queue? o.queue = some q → d.canStart o = true → d.nextQueue p o.part = some o.queue →
      let left := if p.rrQueue = o.queue.toNat ∧ p.rrLeft > 0 then p.rrLeft - 1 else q.weight - 1
      let r := Obl.dev s ((d.modPart o.part fun p => { p with rrQueue := o.queue.toNat, rrLeft := left }).modOp id fun o =>
        { o with state := .running, startAt := d.now, late := o.late || o.waitsPast d.gtc.count.toNat,
                 streams := o.streams.map fun s => { s with wanted := min s.count (if s.depth = 0 then 4 else s.depth) } })
      exec (.operationStart id) s = r ∧ (o.launch.isSome = true → exec (.launchCountReached id) s = r)) ∧
    (∀ id c o p ph u, d.op? id = some o → d.part? o.part = some p → d.phys c.val = some ph → o.nextUnit = some u → o.state = .running → o.unitRun = true →
      p.cores.contains c = true → d.coreRuns ph = true →
      (let cap := match o.members.head? with | some m => Desc.u16 m.desc 4 | none => 0; let live := o.cores.filter fun x => p.cores.contains x
        cap = 0 ∨ live.contains c = true ∨ live.length < cap) → o.passReady u = true → (d.coreUse c).2 < 32 →
      (d.coreUse c).1 + min 458752 (Desc.needAll (o.run.map fun m => m.desc) o.shapes) ≤ 458752 → exec (.unitTake id c) s = Obl.dev s
      (d.modOp id fun o => { o with cores := if o.cores.contains c then o.cores else o.cores ++ [c], units := Tbl.put u ⟨c, .compute, 0, [], none, [], [], [], [], false⟩ o.units })) ∧
    (∀ id o, d.op? id = some o → o.state ≠ .armed → (o.members.any fun m => Desc.op m.desc == 0x30) = false → o.startAt + o.budget * 1000 ≤ d.now →
      exec (.timeBudgetExpiry id) s = Obl.dev s (d.endAll id .timeout)) ∧
    (∀ q h l (st : Status) data d1, d.queue? qid = some q → q.held = h :: l → Dev.cqFull q = false → q.onChip = true → d.inFlight h.writes = false →
      let n := 2 ^ q.sizeLog2; let off := q.cqBase + 32 * (q.cqTail.toNat % n); let b := Dev.recordBytes q h
      d.engLocal (.front qid.toNat 2) q.part off (.merge (lineOf (if off % 64 ≥ 32 then List.replicate 32 0 ++ b else b ++ List.replicate 32 0))
        (if off % 64 ≥ 32 then 0xFFFFFFFF00000000 else 0x00000000FFFFFFFF)) = (some (st, data), d1) →
      let d2 := if st = Status.ok then (d1.bump Reg.opq 0x048 1).modQueue qid fun q =>
          { q with held := l, cqTail := q.cqTail + 1, lap := if (q.cqTail.toNat + 1) % n = 0 then !q.lap else q.lap,
                   failures := if h.status ≠ .ok ∧ h.counts = true then q.failures + 1 else q.failures }
        else ((d1.bump Reg.opq 0x050 1).modQueue qid fun q =>
          { q with held := l, dropped := satAdd q.dropped 1, state := if q.state = .resetting then .resetting else .stopped }).log q.half
          { type := 0x0A, sev := 1, block := blockOf Reg.opq, part := some q.part, node := some d1.nodeId, status := st.code.toNat,
            addr := d1.fabAddr (off / 64 * 64), detail := [(40, 1, 8), (42, 2, qid.toNat)] }
      let d3 := d2.modQueue qid fun q => Dev.noteFull d2.now q
      exec (.completionRecordWrite qid) s = Obl.dev s (((if q.vecEn then d3.arriveVec q.vec.toNat else d3).drainCheck qid).resetCheck qid)) ∧
    (∀ q (st : Status) data d1, d.queue? qid = some q → Dev.cqFull q = true → q.onChip = true → q.polledAt ≤ d.now →
      d.engLocal (.front qid.toNat 3) q.part q.headLine .read = (some (st, data), d1) → let v : BitVec 16 := BitVec.ofNat 16 (leAt data 0 2)
      exec (.headLinePoll qid) s = Obl.dev s (d1.modQueue qid fun r =>
        let r := { r with cqHead := if st = Status.ok ∧ (q.cqTail - v).toNat ≤ 2 ^ q.sizeLog2 then v else r.cqHead }
        Dev.noteFull d1.now { r with polledAt := if Dev.cqFull r then d1.now + 1000 else 0 })) ∧
    (∀ q, d.queue? qid = some q → q.state = .resetting → q.resetAt + 1000000 ≤ d.now → Dev.cqFull q = true → exec (.resetRecordTimeout qid) s = Obl.dev s
      (((d.bump Reg.opq 0x050 q.held.length).modQueue qid fun q => { q with dropped := satAdd q.dropped q.held.length, held := [], fullSince := none }).resetCheck qid)) ∧
    (∀ q t, d.queue? qid = some q → q.fullSince = some t → t + 50000000 ≤ d.now → q.held ≠ [] → Dev.cqFull q = true → q.state ≠ .resetting → q.state ≠ .lost →
      exec (.queueStall qid) s = Obl.dev s
        ((((d.bump Reg.opq 0x070 1).cause Reg.opq 3).logPolicy q.half 5 0 qid.toNat q.part none .ok).resetQueue qid .stall)) ∧
    (∀ (c : Fin 576), d.opq.refill.contains c.val = true →
      (d.opq.ops.any fun o => o.units.any fun u => u.2.phase == .writing && d.phys u.2.core.val == some c.val) = false ∨ (∀ l, d.opq.leaves = some l → l.contains c.val = false) →
      let d1 := d.modOpq fun o => { o with refill := o.refill.filter fun x => x != c.val }
      let d2 := match d1.opq.joins with
        | some (p, l) => if (l.all fun x => (d1.phys x.val).all fun y => !d1.opq.refill.contains y) = true then
            ((d1.modPart p fun x => { x with cores := (List.finRange 512).filter fun k => x.cores.contains k || l.contains k }).modOpq fun o =>
              { o with joins := none }).cmdEnd Reg.opq 0x7104 1 .ok else d1
        | none => d1
      let d3 := match d2.opq.leaves with
        | some l => if (l.all fun x => !d2.opq.refill.contains x) = true then (d2.modOpq fun o => { o with leaves := none }).cmdEnd Reg.opq 0x7104 1 .ok else d2
        | none => d2
      exec (.coreRefillDone c) s = Obl.dev s d3.partResetCheck)

/-- For each of the eleven operations that run in units: a unit of a running operation in its compute phase, of a member with that opcode, on a
core that runs, carries the program of its operation on. When the program ends, its buffers, writes and partial results are kept and the
unit goes to the next member or becomes ready; when an access fails, the unit fails the operation with its status; otherwise the unit keeps
what it has read. UNIT_WRITE_PHASE of a ready unit of a running operation, or of a writing unit, makes it writing and has the mover issue
its writes in their order, each once the mover may and the one before has ended; an access that fails fails the operation. UNIT_DONE of a
writing unit with no write left merges its partial results, marks the unit done, stamps the domain of its core and ends the operation when
it was the last. (R286, R288, R290, R305, R308, R314, R316, R319, R321, R323, R325, R327.) -/
def Obligations.ComputePhasesTakeEffect : Prop :=
  (∀ (s : State) (opc id u ph : Nat) o x (hp : ph < 576), s.dev.op? id = some o → Tbl.find o.units u = some x →
      s.dev.phys x.core.val = some ph → x.phase = .compute → o.state = .running → Desc.op (o.desc x.member) = opc → s.dev.coreRuns ph = true →
      let run := s.dev.carryOn ⟨.core ⟨ph, hp⟩ id, o.part, none⟩ (unitProg (s.dev.unitIn o x.member u x)) x.trace x.acc
      let r := Obl.dev s (match run with
        | (.waits, tr, acc, d) => d.modUnit id u fun x => { x with trace := tr, acc := acc }
        | (.failed st, _, _, d) => d.failUnit id x.member u st
        | (.done r, _, _, d) => d.memberDone o x.member u r)
      (opc = 0x01 → exec (.gatherReduce id u) s = r) ∧
      (opc = 0x02 → exec (.scatterUpdate id u) s = r) ∧
      (opc = 0x03 → exec (.attend id u) s = r) ∧
      (opc = 0x04 → exec (.scanScoreTopk id u) s = r) ∧
      (opc = 0x05 → exec (.hashProbe id u) s = r) ∧
      (opc = 0x06 → exec (.filter id u) s = r) ∧
      (opc = 0x07 → exec (.map id u) s = r) ∧
      (opc = 0x10 → exec (.copy id u) s = r) ∧
      (opc = 0x11 → exec (.move id u) s = r) ∧
      (opc = 0x12 → exec (.fill id u) s = r) ∧
      (opc = 0x13 → exec (.atomicBatch id u) s = r)) ∧
    (∀ (s : State) (id u : Nat) o x, s.dev.op? id = some o → Tbl.find o.units u = some x → x.phase = .ready ∧ o.state = .running ∨ x.phase = .writing →
      exec (.unitWritePhase id u) s = Obl.dev s (Dev.moverRun Dev.carryMax id u (s.dev.modUnit id u fun x => { x with phase := .writing }))) ∧
    (∀ (d : Dev) (n id u : Nat) o x, d.op? id = some o → Tbl.find o.units u = some x → (x.outs = [] → Dev.moverRun (n + 1) id u d = d) ∧
      (∀ m w rest, x.outs = (m, w) :: rest → (moverReady (d.unitIn o m u x) w = false → Dev.moverRun (n + 1) id u d = d) ∧
        (∀ res tr acc d1, moverReady (d.unitIn o m u x) w = true → d.carryOn ⟨.mover ⟨(d.phys x.core.val).getD 0 / 16 % 36, Nat.mod_lt _ (by decide)⟩ id, o.part,
            (o.ckts.find? fun y => y.1 == m).map fun y => y.2⟩ (moverProg (d.unitIn o m u x) w) x.trace x.acc = (res, tr, acc, d1) →
          Dev.moverRun (n + 1) id u d = (match res with
            | .waits => d1.modUnit id u fun x => { x with trace := tr, acc := acc }
            | .failed st => d1.failUnit id m u st
            | .done l => Dev.moverRun n id u (d1.modUnit id u fun x =>
                { x with outs := rest, trace := [], acc := none, add := x.add ++ l.map fun y => (m, y.1, y.2) }))))) ∧
    (∀ (s : State) (id u : Nat) o x, s.dev.op? id = some o → Tbl.find o.units u = some x → x.phase = .writing → x.outs = [] →
      let d1 := s.dev.modOp id fun o => let o := x.parts.foldl Dev.mergePart o
        { o with units := Tbl.drop u o.units, done := NSet.insert u o.done, results := o.results ++ x.add, poisoned := o.poisoned || x.poisoned }
      exec (.unitDone id u) s = Obl.dev s ((match d1.phys x.core.val with
        | some ph => d1.modDom (ph / 16) fun y => { y with idleAt := d1.now } | none => d1).opFinish id))

/-- Of a running operation of the front end with the opcode of the command. PUBLISH gives itself to its region's home, ends at once when that
refuses it, and completes with the status with which it has ended there. PUBLISH_DRAIN_END of a PUBLISH whose drain is over ends it REVOKED
when its extent was revoked; else, with the record line written, it sets VERSION and ends the PUBLISH OK. ADVISE and a SIGNAL of form 0 or 1
carry their program on, and complete when it has ended; a RESTORE_STATE carries its program on, and with a good image runs the units not
marked done with the time that was left. FENCE with every earlier record written completes OK with the number of failures. A SIGNAL of form
2 sends its doorbell, of form 3 the vector. WAIT_COUNT completes OK once the count has reached COUNT, at its start or later. SAVE_STATE of
an operation that can be paused stops it from taking units and drops the units in their compute phase, ends QUOTA without room for the
image, and STATE_CONFLICT without such an operation; with no unit left it fixes the time left and writes the image, and then the target
completes CANCELLED and the SAVE_STATE OK. (R80, R81, R83, R334, R335, R336, R337, R338, R340, R342, R385.) -/
def Obligations.FrontEndOperationsTakeEffect : Prop :=
  ∀ (s : State) (id : Nat) (o : Op) (m : Member) (b : List Byte), let d := s.dev
    (d.frontOp id 0x20 = some (o, m, b) → let found := d.coh.pubEnds.find? fun x => x.1 == id
      (∀ i st, found = some (i, st) → exec (.publish id) s = Obl.dev s
        ((d.modCoh fun c => { c with pubEnds := c.pubEnds.filter fun x => x.1 ≠ id }).frontEnds id st (if st = .ok then Desc.u32 b 52 else 0))) ∧
      (∀ r d1, found = none → o.target = none → d.pubSubmit id o.part (Desc.u16 b 48) (Desc.u32 b 52) (Desc.u64 b 56) = (r, d1) →
        exec (.publish id) s = Obl.dev s (match r with
          | some (st, res) => d1.frontEnds id st res | none => d1.modOp id fun o => { o with target := some 0 }))) ∧
    (∀ (n : BitVec 12) r p c, Tbl.find d.coh.regions n.toNat = some r → r.running = some p → (d.coh.changes.find? fun c => c.id == p.change) = some c →
      d.changeOver c = true →
      let forget (d : Dev) : Dev := (d.modCoh fun x => { x with changes := x.changes.filter fun y => y.id ≠ c.id }).modRegion n.toNat fun r => { r with running := none }
      (p.revoked = true ∨ d.extAt (r.line.toNat * 64) = none →
        exec (.publishDrainEnd n) s = Obl.dev s (((forget d).pubEnd p .revoked).pubNext 9 n.toNat).dropPubChanges) ∧
      (∀ ri re ok d1, p.revoked = false → d.extAt (r.line.toNat * 64) = some (ri, re) → Dev.homeWrite ri re r.line.toNat
          (some (d.recordLine p (p.ext.getD 0) (d.ext (p.ext.getD 0).toNat))) ⟨d.nodeId, r.owner, 0x04, r.line.toNat * 64⟩ d = (ok, d1) →
        exec (.publishDrainEnd n) s = Obl.dev s (Dev.dropPubChanges (if ok = true then
          (((forget d1).modRegion n.toNat fun r => { r with version := p.version }).pubEnd p .ok).pubNext 9 n.toNat else d1)))) ∧
    (d.frontOp id 0x21 = some (o, m, b) → exec (.advise id) s = Obl.dev s
      (d.frontRun o (Dev.adviseProg b) (fun n d => d.frontEnds id .ok n) (fun st d => d.frontEnds id st 0))) ∧
    (∀ q, d.frontOp id 0x30 = some (o, m, b) → d.queue? o.queue = some q → d.earlierWritten o m = true → q.held = [] → exec (.fence id) s = Obl.dev s
      ((d.frontEnds id .ok q.failures).modQueue o.queue fun q => { q with failures := 0, aborting := Desc.u8 b 48 = 1 ∧ q.failures ≠ 0 })) ∧
    (d.frontOp id 0x31 = some (o, m, b) → (Desc.u8 b 65 % 2 = 0 ∨ d.earlierWritten o m = true) →
      (Desc.u8 b 64 = 0 → exec (.signal id) s = Obl.dev s (d.frontRun o (Prog.write (Desc.u64 b 48) (sub b 56 8)) (fun _ d => d.frontEnds id .ok 0)
        (fun st d => d.frontEnds id st 0))) ∧
      (Desc.u8 b 64 = 1 → exec (.signal id) s = Obl.dev s (d.frontRun o (Prog.need (.acc (Prog.at_ (Desc.u64 b 48)) (.update 0 true (sub b 56 8)) false))
        (fun old d => d.frontEnds id .ok (leNat old)) (fun st d => d.frontEnds id st 0))) ∧
      (Desc.u8 b 64 = 2 → exec (.signal id) s = Obl.dev s (Dev.signalDoorbell o b d)) ∧
      (Desc.u8 b 64 = 3 → exec (.signal id) s = Obl.dev s ((d.arriveVec (Desc.u16 b 66 % 2048)).frontEnds id .ok 0))) ∧
    (d.frontOp id 0x32 = some (o, m, b) → Desc.u64 b 48 ≤ d.gtc.count.toNat →
      exec (.waitCount id) s = Obl.dev s (d.frontEnds id .ok 0) ∧ exec (.waitCountReached id) s = Obl.dev s (d.frontEnds id .ok 0)) ∧
    (d.frontOp id 0x38 = some (o, m, b) →
      (o.target = none → d.saveTarget o (Desc.u16 b 64) = none → exec (.saveState id) s = Obl.dev s (d.frontEnds id .stateConflict 0)) ∧
      (∀ t, o.target = none → d.saveTarget o (Desc.u16 b 64) = some t → exec (.saveState id) s = Obl.dev s
        (if Desc.u64 b 56 < Dev.imageSize (t.desc 0) then d.frontEnds id .quota (Dev.imageSize (t.desc 0))
        else (t.units.foldl (fun (d : Dev) x => if x.2.phase = .writing then d else
          (match x.2.acc with | some a => d.dropAcc a | none => d).modOp t.id fun t => { t with units := Tbl.drop x.1 t.units })
          (d.modOp t.id fun t => { t with state := .saving })).modOp id fun o => { o with target := some t.id })) ∧
      (∀ tid t, o.target = some tid → d.op? tid = some t → t.units = [] → let t1 := if o.trace.isEmpty then
          { t with startAt := d.now, budget := (t.startAt + t.budget * 1000 - d.now) / 1000 } else t
        exec (.saveState id) s = Obl.dev s ((d.modOp tid fun _ => t1).frontRun o
          (Prog.write (Desc.u64 b 48) (Dev.saveImage ((d.modOp tid fun _ => t1).hashKeyOf o.part) t1 t1.budget))
          (fun _ d => (d.endOp tid fun _ => (.cancelled, t1.result 0, 0xFFFFFFFF)).frontEnds id .ok (Dev.imageSize (t1.desc 0)))
          (fun st d => (d.modOp tid fun t => { t with state := .running }).frontEnds id st 0)))) ∧
    (∀ res tr acc d1, d.frontOp id 0x39 = some (o, m, b) → d.carryOn ⟨.frontEnd o.queue, o.part, none⟩
        (Dev.restoreProg o.part (d.hashKeyOf o.part) (d.sramLimit o.part) m.index (Desc.u64 b 48)) o.trace o.acc = (res, tr, acc, d1) →
      let e := d1.modOp o.id fun o => { o with trace := [], acc := none }
      exec (.restoreState id) s = Obl.dev s (match res with
        | .waits => d1.modOp o.id fun o => { o with trace := tr, acc := acc }
        | .failed st => e.frontEnds id st 0
        | .done none => e.frontEnds id .stateConflict 0
        | .done (some r) => (e.modOp id fun o =>
          { o with restored := some r.mem, done := r.done, maxima := r.maxima, accs := r.accs, tops := r.tops, counts := r.counts,
                   results := r.adds.map fun a => (0, a.1, a.2), startAt := e.now, budget := r.left }).opFinish id))

/-- A frame with a CRC or FEC error is counted and discarded, and a bad TEST frame makes VERIFY fail. Let a good frame arrive that the state of
the port carries, its corrected symbols counted, with an acknowledgement (if any) of frames that were sent, one of others being a protocol
error; write d for the device after the acknowledged frames have left the replay buffer and the returned credits are added. A DATA frame of
1 to 244 bytes, new and within 1,024 of the expected number, with a free slot, takes the slot, is counted, noted for acknowledgement, and
delivered in order or its gap asked for; one received before is acknowledged again and counted; any other is a protocol error. A CTRL frame
that shows a gap has it asked for. STATUS and SREQ have their effects on credits and on the frames sent again, LINK_DOWN on new DATA frames.
LINK_RESET starts or joins a reset with cause 2 in which the peer has reset, or waits for the end of the one that runs. A TS of another node
in NEGOTIATE or VERIFY is kept, counting its repetitions; VERIFY then compares verdicts, NEGOTIATE once discards the sequence state when the
epochs differ; one of this node puts the port in HELD. A good TEST frame in VERIFY or TEST changes nothing more. (R401, R402, R404, R405,
R406, R407, R409, R411, R415, R420, R421, R434.) -/
def Obligations.LinkFramesTakeEffect : Prop :=
  ∀ (s : State) (p : PortNo) (f : LinkFrame), let n := p.val; let x := s.dev.port n; let st := x.state; let serv := Obl.inService st
    let d0 := if f.corrected = 0 then s.dev else s.dev.bump (Reg.fab n) 0x058 f.corrected
    (f.crcBad = true ∨ f.fecBad = true → ∀ i ∈ [Instr.dataFrame p f, .status p f, .sreq p f, .linkReset p f, .ts p f, .linkDown p f, .testFrame p f],
      let d1 := if st = .verify ∧ f.kind = 2 then d0.modPort n fun x => { x with testBad := true } else d0
      exec i s = Obl.dev s ((if f.fecBad then d1.bump (Reg.fab n) 0x060 1 else d1).bump (Reg.fab n) 0x050 1)) ∧
    (f.crcBad = false → f.fecBad = false →
      (f.kind = 2 → st = .verify ∨ st = .test → exec (.testFrame p f) s = Obl.dev s d0) ∧
      (∀ d1, serv = true → f.av = true → Dev.takeAck n f.ack d0 = (false, d1) → (f.kind = 0 ∧ d0.carriesData n f.vc.toNat = true) ∨
          (f.kind = 1 ∧ Dev.carriesCtrl st f.len.toNat = true) → ∀ i ∈ [Instr.dataFrame p f, .status p f, .sreq p f, .linkReset p f, .ts p f, .linkDown p f],
        exec i s = Obl.dev s (d1.protocolError n)) ∧
      (∀ d1, (if serv = true ∧ f.av = true then Dev.takeAck n f.ack d0 else (true, d0)) = (true, d1) → let d := if serv then d1.takeCret n f else d1
        (f.kind = 0 → d0.carriesData n f.vc.toNat = true → let v := f.vc.toNat; let dist := (f.seq - (d.port n).expected).toNat
          let d2 := ((((d.modVc n v fun y => { y with slots := y.slots + 1 }).bump (Reg.fab n) 0x048 1).modPort n fun x =>
            { x with reorder := x.reorder ++ [f] })).noteAccept n
          exec (.dataFrame p f) s = Obl.dev s (Dev.pump n (if f.len = 0 ∨ f.len.toNat > 244 then d.protocolError n
            else if dist ≥ 1024 ∧ dist < 32768 then d.protocolError n
            else if dist ≥ 32768 ∨ ((d.port n).reorder.any fun g => g.seq == f.seq) = true then
              (d.modPort n fun x => { x with ackDue := true }).bump (Reg.fab n) 0x078 1
            else if (d.vc n v).slots ≥ (d.vc n v).init then d.protocolError n
            else if dist = 0 then Dev.deliver (d2.port n).reorder.length n d2 else d2.askMissing n f.seq))) ∧
        (f.kind = 1 → Dev.carriesCtrl st f.len.toNat = true → let gap := (f.seq - (d.port n).expected).toNat
          let e := if serv = true ∧ 1 ≤ gap ∧ gap ≤ 1024 then d.askMissing n f.seq else d
          let t : Trigger := ⟨2, if leAt f.payload 3 1 ≤ 2 then some (BitVec.ofNat 2 (leAt f.payload 3 1)) else none, leAt f.payload 4 1 == 1⟩
          let b := (f.payload ++ List.replicate 54 0).take 54
          (f.len = 1 → serv = true → exec (.status p f) s = Obl.dev s ((e.rxStatus n f).pump n)) ∧
          (f.len = 2 → serv = true → exec (.sreq p f) s = Obl.dev s ((e.rxSreq n f).pump n)) ∧
          (f.len = 3 → (e.port n).state ∈ [LinkState.quiesce, .tune, .align, .active, .test] → exec (.linkReset p f) s = Obl.dev s
            ((e.startReset n t).modPort n fun x => { x with peerReset := true })) ∧
          (f.len = 3 → (e.port n).state ∈ [LinkState.negotiate, .verify, .resume] → exec (.linkReset p f) s = Obl.dev s (e.startReset n t)) ∧
          (f.len = 5 → exec (.linkDown p f) s = Obl.dev s (e.modPort n fun x => { x with peerDown := true })) ∧
          (f.len = 4 → (e.port n).state = .negotiate ∨ (e.port n).state = .verify →
            (leAt b 0 2 = e.nodeId.toNat → exec (.ts p f) s = Obl.dev s ((((e.enter n .held).cause (Reg.fab n) 5).logLink n 2 0).endPortCmd n .stateConflict)) ∧
            (leAt b 0 2 ≠ e.nodeId.toNat → let y := e.port n
              let k := match y.peerTs with | some t => if t.bytes = b then t.times + 1 else 1 | none => 1
              let e1 := e.modPort n fun x => { x with peerTs := some ⟨b, k⟩ }
              let same := leAt b 12 4 == y.epoch.toNat && (match y.peerEpoch with | some z => z.toNat == leAt b 8 4 | none => false) &&
                y.peerNode.toNat == leAt b 0 2 && y.peerPort.toNat == leAt b 2 1
              exec (.ts p f) s = Obl.dev s (if y.state = .verify then e1.verdicts n else if y.epochSeen = true ∨ same = true then e1
                else ((e1.discardSeq n).modPort n fun x => { x with epochSeen := true }).sendTs n))))))

/-- QUIESCE ends on the peer's reset or after 20 µs: held frames give their slots back and the port enters TUNE. TUNE and ALIGN end with the
wavelengths that stay good: with 4 or more the port goes on to ALIGN and to NEGOTIATE, with fewer the attempt fails. NEGOTIATE ends when 3
equal training sets of a peer that is far enough have come: width, speed, wavelengths, seed, replay buffer and credits are set and VERIFY
sends its test. VERIFY's test sets this end's verdict after 0.8 ms, and both verdicts decide. RESUME ends when a STATUS has been seen and no
old frame is left: the port is ACTIVE with no attempt counted, a TEST_START drains again, and a trigger that waited starts a reset. A step
that passes its limit fails the attempt. A DARK port with light for 1 ms, and a DOWN port after RETRY_INT, start a reset with cause 9; light
that ends makes the port DARK. Loss of lock from NEGOTIATE on starts a reset with cause 5, or waits. A drained shutdown, or one after 100
µs, sends LINK_DOWN and turns the port OFF; a drained TEST_START enters TEST. (R398, R423, R424, R426, R427, R428, R430, R431, R432, R433,
R434, R435.) -/
def Obligations.LinkResetStepsTakeEffect : Prop :=
  ∀ (s : State) (p : PortNo), let d := s.dev; let n := p.val; let x := d.port n
    let test (d : Dev) : Dev := (d.modPort n fun x => { x with testBad := false }).emit (.frame (Dev.portNo n) (Obl.testFrame (prbs31 (d.port n).seed 244)))
    (x.state = .quiesce → x.peerReset = true ∨ x.stepAt + 20000 ≤ d.now → exec (.quiesceEnd p) s = Obl.dev s
      (((foldN 8 (fun v d => d.modVc n v fun y => { y with slots := y.slots - (x.reorder.filter fun f => f.vc.toNat == v).length }) d).modPort n fun x =>
        { x with reorder := [], gaps := [] }).enter n .tune)) ∧
    (∀ m : BitVec 8, x.state = .tune → let d1 := d.modPort n fun x => { x with goodRx := m &&& ~~~x.badRx, badRx := 0 }
      exec (.tuneEnd p m) s = Obl.dev s (if laneCount (d1.port n).goodRx < 4 then d1.failAttempt n else d1.enter n .align)) ∧
    (∀ m : BitVec 8, x.state = .align → let d1 := d.modPort n fun x => { x with goodRx := x.goodRx &&& m }
      exec (.alignEnd p m) s = Obl.dev s (if laneCount (d1.port n).goodRx < 4 then d1.failAttempt n else d1.negotiate n)) ∧
    (∀ b k, x.state = .negotiate → x.peerTs = some ⟨b, k⟩ → 3 ≤ k → 5 ≤ leAt b 6 1 →
      let lead := decide (d.nodeId.toNat < leAt b 0 2); let pr := d.proposal n; let pw : BitVec 2 := BitVec.ofNat 2 (leAt b 3 1)
      let width := (Dev.joinWidth (some pr.1) (some pw)).getD pr.1; let mask : BitVec 8 := BitVec.ofNat 8 (leAt b 5 1); let e : BitVec 16 := BitVec.ofNat 16 (leAt b 16 2)
      lead = true ∨ 6 ≤ leAt b 6 1 →
      let d1 := d.draw.2.modPort n fun x =>
        { x with width := width, half := pr.2 || leAt b 4 1 == 1, leader := lead, goodTx := mask, used := lowestLanes mask (widthLanes width),
                 seed := if lead then x.seed else BitVec.ofNat 32 (leAt b 50 4), rtt := Config.roundTrip d.draw.1, peerEpoch := some (BitVec.ofNat 32 (leAt b 8 4)),
                 peerNode := BitVec.ofNat 16 (leAt b 0 2), peerPort := BitVec.ofNat 5 (leAt b 2 1), peerKnown := true,
                 replay := if (x.nextSeq - e).toNat ≤ x.replay.length then x.replay.drop (x.replay.length - (x.nextSeq - e).toNat) else x.replay }
      let d2 := foldN 8 (fun v d => d.modVc n v fun y =>
        { y with credits := leAt b (18 + 2 * v) 2 - ((d.port n).replay.filter fun s => s.frame.vc.toNat == v).length, cretSeen := 0, cretOwn := 0,
                 leaked := 0, initFar := leAt b (34 + 2 * v) 2 }) d1
      exec (.negotiateEnd p) s = Obl.dev s (test ((d2.enter n .verify).sendTs n))) ∧
    (∀ bad : BitVec 8, x.state = .verify → x.verdict = 0 → x.stepAt + 800000 ≤ d.now → exec (.verifyEnd p bad) s = Obl.dev s (((d.modPort n fun y =>
      { y with verdict := if bad = 0 ∧ x.testBad = false then 1 else 2, badRx := bad, goodRx := y.goodRx &&& ~~~bad }).sendTs n).verdicts n)) ∧
    (x.state = .resume → x.statusSeen = true → (x.replay.any fun s => decide ((x.mark - s.frame.seq).toNat ≤ 1024 ∧ s.frame.seq ≠ x.mark)) = false →
      let d1 := (d.modPort n fun x => { x with attempts := 0, askWidth := none, askHalf := false, ackDue := true, badRx := 0 }).enter n .active
      let d2 := (if x.toTest then d1.modPort n fun x => { x with drainAt := some d1.now } else d1.endPortCmd n .ok).pump n
      exec (.resumeEnd p) s = Obl.dev s (match x.trigger with
        | some t => (d2.modPort n fun x => { x with trigger := none }).startReset n t | none => d2)) ∧
    (∀ k, Dev.stepLimit x.state = some k → x.stepAt + k ≤ d.now → exec (.stepLimitExpiry p) s = Obl.dev s (d.failAttempt n)) ∧
    (x.state = .dark → x.drainAt = none → x.stepAt + 1000000 ≤ d.now → exec (.darkCheck p true) s = Obl.dev s (d.startReset n ⟨9, none, false⟩)) ∧
    (x.state ≠ .dark → x.state ≠ .off → x.state ≠ .held → exec (.darkCheck p false) s = Obl.dev s (d.enter n .dark)) ∧
    (x.state ∈ [LinkState.negotiate, .verify, .resume, .active, .test] → exec (.lossOfLock p) s = Obl.dev s (d.startReset n ⟨5, none, false⟩)) ∧
    (x.state = .down → x.drainAt = none → x.stepAt + min1 (d.fld (Dev.fabA n + 0x100) 23 16) * 10000000 ≤ d.now → exec (.downRetry p) s = Obl.dev s (d.startReset n ⟨9, none, false⟩)) ∧
    (∀ t, x.drainAt = some t → (x.replay = [] ∧ x.rxq = [] ∧ x.reorder = []) ∨ t + 100000 ≤ d.now → exec (.shutdownDrainEnd p) s = Obl.dev s
      (if x.toTest then (test ((d.modPort n fun x => { x with drainAt := none, toTest := false }).enter n .test)).endPortCmd n .ok
      else
        let d1 := if d.portUsable n = true ∨ x.state = .test then (d.modPort n fun x => { x with ackDue := true }).sendCtrl n 5 (leBytes 2 d.nodeId.toNat) else d
        let d2 := (d1.bump (Reg.fab n) 0x090 x.replay.length).modPort n fun y => { y with drainAt := none }
        (((if x.replay.length = 0 then d2 else d2.dropSeq n).enter n .off).logLink n 2 x.replay.length).endPortCmd n .stateConflict))

/-- On a usable port or one in TEST. The oldest frame's ACK timer counts a replay of the whole buffer, or after the limit starts a reset with
cause 3. SREQ_REPEAT asks again for a gap that has been asked for less than 3 times, RTT + 500 ns after the last time. The coalescing timer
makes an acknowledgement due in RESUME and TEST. STATUS_TIMER sends a STATUS every 10 µs on a usable port. A LEAK reset starts after 1 µs
without data, or 1 ms. With FAB.PORT_CMD_STS.BUSY 0: RETRAIN of a port in ACTIVE, QUIESCE, TUNE, ALIGN or DOWN starts or joins a reset with
cause 1 for the width and speed asked and waits; TEST_START of an ACTIVE port drains it towards TEST and waits; TEST_STOP of a port in TEST
resumes it and waits; CLEAR_HELD of a HELD port starts a reset with cause 9 and completes OK; in any other state they complete
STATE_CONFLICT. (R412, R414, R416, R418, R422, R424, R433, R435, R438.) -/
def Obligations.LinkTimersAndPortCommandsTakeEffect : Prop :=
  ∀ (s : State) (p : PortNo), let d := s.dev; let n := p.val; let x := d.port n; let sts := Dev.fabA n + 0x10C; let lives := d.portUsable n = true ∨ x.state = .test
    (∀ f l, x.replay = f :: l → lives → f.time + min1 (d.fld (Dev.fabA n + 0x104) 7 0) * 100 ≤ d.now →
      let k := if x.replayE = some f.frame.seq then x.replays + 1 else 1
      let d1 := (d.modPort n fun x => { x with replays := k, replayE := some f.frame.seq }).bump (Reg.fab n) 0x070 1
      exec (.ackTimerExpiry p) s = Obl.dev s (if k ≥ min1 (d1.fld (Dev.fabA n + 0x104) 12 8) then
        (d1.modPort n fun x => { x with replays := 0, replayE := none }).startReset n ⟨3, none, false⟩ else d1.replayAll n)) ∧
    (∀ q, lives → (x.gaps.any fun g => g.seq == q && decide (g.times < 3 ∧ d.now ≥ g.last + x.rtt + 500)) = true →
      exec (.sreqRepeat p q) s = Obl.dev s ((d.modPort n fun x => { x with
        gaps := x.gaps.map fun (g : Gap) => if g.seq = q then { g with times := g.times + 1, last := d.now } else g }).sendSreq n [q])) ∧
    (∀ t, x.ackSince = some t → x.state = .resume ∨ x.state = .test → t + min1 (d.fld (Dev.fabA n + 0x104) 31 24) * 100 ≤ d.now →
      exec (.coalesceTimer p) s = Obl.dev s ((d.modPort n fun x => { x with ackDue := true }).pump n)) ∧
    (d.portUsable n = true → x.statusAt + 10000 ≤ d.now → exec (.statusTimer p) s = Obl.dev s (d.sendStatus n)) ∧
    (∀ t, x.leakAt = some t → lives → x.dataAt + 1000 ≤ d.now ∨ t + 1000000 ≤ d.now → exec (.leakReset p) s = Obl.dev s (d.startReset n ⟨4, none, false⟩)) ∧
    (d.busy sts = false → let e := d.cmdBegin sts; let turned := Obl.dev s (e.cmdEnd (Reg.fab n) sts 1 .stateConflict)
      (∀ (w : BitVec 2) h, exec (.retrain p w h) s = if x.state ∈ [LinkState.active, .quiesce, .tune, .align, .down] then Obl.dev s
        ((e.modPort n fun x => { x with cmdWaits := true }).startReset n ⟨1, if w = 3 then none else some w, h⟩) else turned) ∧
      exec (.testStart p) s = (if x.state = .active then
        Obl.dev s (e.modPort n fun x => { x with drainAt := some e.now, toTest := true, cmdWaits := true }) else turned) ∧
      exec (.testStop p) s = (if x.state = .test then Obl.dev s ((e.modPort n fun x => { x with cmdWaits := true }).resume n) else turned) ∧
      exec (.clearHeld p) s = (if x.state = .held then Obl.dev s ((e.startReset n ⟨9, none, false⟩).cmdEnd (Reg.fab n) sts 1 .ok) else turned))

/-- With RTE.CMD_STS.BUSY 0, write e for the device with BUSY set. CKT_OPEN of a rate of 0 or over 800, or 0 or over 64 buffers, completes
MALFORMED; of a partition that does not exist or to this node STATE_CONFLICT; without a free entry or room on the port QUOTA; without a
route FENCED; else it makes the entry SETUP, sends CKT_SETUP and waits. CKT_CLOSE of an OPEN source entry that does not close yet drops what
waits, reroutes it and closes; of another entry it completes STATE_CONFLICT. CKT_READ puts the entry's image in DATA (its layout is free,
log 13) and completes OK. CKT_SETUP without a free entry or room is answered CKT_REJECT with QUOTA, without a route with FENCED; for this
node it makes a destination entry OPEN and confirms; for another it makes a transit entry and passes the setup on. CKT_CONFIRM from
downstream opens an entry in SETUP and is passed upstream; at the source CKT_OPEN completes OK with the label. CKT_REJECT from downstream
frees the entry, is passed upstream, and at the source ends CKT_OPEN with its status; a reserved status is logged and counts as MALFORMED.
CKT_TEAR frees the entry it names and is passed on. After 1 ms without an answer the source gives the setup up with cause 3. A message or
timer that finds no such entry changes nothing. (R22, R460, R461, R462, R463, R466, R477, log 13.) -/
def Obligations.CircuitCommandsAndSetupTakeEffect : Prop :=
  ∀ (s : State) (p : PortNo) (k : Packet), let d := s.dev; let e := d.cmdBegin 0xB104; let x := e.rteData; let b := k.payload; let w := k.word.toNat
    let done (st : Status) : Host.Outcome State Fault Refusal := Obl.dev s (e.cmdEnd Reg.rte 0xB104 1 st)
    (d.busy 0xB104 = false →
      (let to_ : NodeId := BitVec.ofNat 16 (bits x 31 16);
        exec .cktOpen s =
          if bits x 41 32 = 0 ∨ bits x 41 32 > 800 ∨ bits x 54 48 = 0 ∨ bits x 54 48 > 64 then done .malformed
          else if (e.part? (BitVec.ofNat 12 (bits x 11 0))).isNone = true ∨ to_ = e.nodeId then done .stateConflict
          else match e.freeCkt, e.routeFrom to_ none with
            | none, _ => done .quota
            | some _, none => done .fenced
            | some l, some q =>
              if e.rateFits q (bits x 41 32) = false then done .quota
              else
                let c : Circuit := { Dev.cktFree with state := .setup, role := .source, outPort := some (Dev.portNo q), srcNode := e.nodeId, dstNode := to_, srcCkt := BitVec.ofNat 10 l, part := BitVec.ofNat 12 (bits x 11 0), rate := BitVec.ofNat 10 (bits x 41 32), bufs := BitVec.ofNat 7 (bits x 54 48), setupAt := e.now }
                let e1 := e.setCkt l c
                Obl.dev s ({ e1 with fab := { e1.fab with openWait := some (BitVec.ofNat 10 l) } }.cktMsg q 0x43 (circuitWord 0 l 0 false 0) (Dev.setupBytes c))) ∧
      (let l := bits x 9 0; let c := e.ckt l
        exec .cktClose s = if c.state = .opened ∧ c.role = .source ∧ c.closing = false then
          Obl.dev s (((e.setCkt l { c with closing := true, command := true, waiting := [] }).reroute (c.waiting.map (·.acc))).cktCloseStep l)
          else done .stateConflict) ∧
      (let c := e.ckt (bits x 9 0); let st := match c.state with | .free => 0 | .setup => 1 | .opened => 2
        let role := match c.role with | .source => 0 | .transit => 1 | .dest => 2;
        let port (p : Option PortNo) : Nat := match p with | some q => q.val | none => 31
        exec .cktRead s = Obl.dev s ((e.setData 0xB128 4 (Config.cktImage [st, role, port c.inPort, c.prevLabel.toNat, port c.outPort, c.outLabel.toNat, c.srcNode.toNat, c.dstNode.toNat, c.srcCkt.toNat, c.part.toNat, c.rate.toNat, c.bufs.toNat]).toNat).cmdEnd Reg.rte 0xB104 1 .ok))) ∧
    (let dst : NodeId := BitVec.ofNat 16 (leAt b 2 2); let prev := bits w 19 10
      let reject (st : Status) : Dev := d.cktMsg p.val 0x45 (circuitWord prev 0 0 false st.code.toNat) []
      let c : Circuit := { Dev.cktFree with inPort := some (Dev.portNo p.val), prevLabel := BitVec.ofNat 10 prev, srcNode := BitVec.ofNat 16 (leAt b 0 2), dstNode := dst, srcCkt := BitVec.ofNat 10 (leAt b 4 2), part := BitVec.ofNat 12 (leAt b 6 2), rate := BitVec.ofNat 10 (leAt b 8 2), bufs := BitVec.ofNat 7 (leAt b 10 1), setupAt := d.now }
      exec (.cktSetup p k) s = Obl.dev s (match d.freeCkt with
        | none => reject .quota
        | some l =>
          if dst = d.nodeId then
            if d.bufsFit (halfOfPort (Dev.portNo p.val)) (leAt b 10 1) = true then
              (d.setCkt l { c with state := .opened, role := .dest }).cktMsg p.val 0x44 (circuitWord prev l 0 false 0) []
            else reject .quota
          else match d.routeFrom dst (some p.val) with
            | none => reject .fenced
            | some q =>
              if (d.rateFits q (leAt b 8 2) && d.bufsFit (halfOfPort (Dev.portNo q)) (leAt b 10 1)) = true then
                let t := { c with state := .setup, role := .transit, outPort := some (Dev.portNo q) }
                (d.setCkt l t).cktMsg q 0x43 (circuitWord 0 l 0 false 0) (Dev.setupBytes t)
              else reject .quota)) ∧
    (let l := bits w 9 0; let c := d.ckt l; let code : BitVec 8 := BitVec.ofNat 8 (bits w 31 24)
      let g := if code.toNat > 0x11 then d.logMalformed (.port (Dev.portNo p.val)) none 6 0x45 6 (some k.src) .malformed else d
      let d1 := d.setCkt l { c with state := .opened, outLabel := BitVec.ofNat 10 (bits w 19 10) }; let g2 := g.setCkt l Dev.cktFree
      (c.state ≠ .setup ∨ Dev.fromDown c p.val = false → exec (.cktConfirm p k) s = .next s) ∧
      (c.state ≠ .setup ∨ Dev.fromDown c p.val = false → exec (.cktReject p k) s = Obl.dev s g) ∧
      (c.state = .setup → Dev.fromDown c p.val = true →
        (∀ q, c.role = .transit → c.inPort = some q →
          exec (.cktConfirm p k) s = Obl.dev s (d1.cktMsg q.val 0x44 (circuitWord c.prevLabel.toNat l 0 false 0) []) ∧
          exec (.cktReject p k) s = Obl.dev s (g2.cktMsg q.val 0x45 (circuitWord c.prevLabel.toNat l 0 false (Status.ofCode code).code.toNat) [])) ∧
        (c.role = .source →
          exec (.cktConfirm p k) s = Obl.dev s (({ d1 with fab := { d1.fab with openWait := none } }.setFld 0xB128 9 0 l).cmdEnd Reg.rte 0xB104 1 .ok) ∧
          exec (.cktReject p k) s = Obl.dev s ({ g2 with fab := { g2.fab with openWait := none } }.cmdEnd Reg.rte 0xB104 1 (Status.ofCode code))))) ∧
    (exec (.cktTear p k) s = match d.tearEntry p.val w with
      | none => .next s
      | some l => Obl.dev s ((if (d.ckt l).role = .transit then d.sendTear l (bits w 22 20) (bits w 23 23 = 1) else d).releaseCkt l (bits w 22 20))) ∧
    (∀ l : BitVec 10, let c := d.ckt l.toNat
      exec (.cktSetupTimeout l) s = if c.state = .setup ∧ c.role = .source ∧ c.setupAt + 1000000 ≤ d.now then
        Obl.dev s ((d.sendTear l.toNat 3 false).releaseCkt l.toNat 3) else .next s)

/-- A frame on an entry that is not OPEN, from another port than its in port, or at a source entry, is dropped and counted. At a transit entry
it leaves with the out label. At the destination it is metered where its line lies in an extent: a red one is answered POLICED with its
hint; an encrypted one is opened, and one that fails is counted and answered KEY_ERROR; a payload that is no whole number of 1 to 128 lines
is dropped and counted; else its lines are queued to be written and tried at once. CKT_ACK from the destination, on an OPEN source entry,
for a frame that has no answer: POLICED makes the frame wait for its hint; any other status ends the frame's engine access with it, sends
what waits and lets a close go on. A frame whose deadline passed on an OPEN entry tears the circuit down with cause 3, or, while it closes,
goes on as routed packets. A policed frame is sent again once its hint has passed. Any other acknowledgement or timer changes nothing.
(R447, R464, R465, R466, R467, R472, R474, R505.) -/
def Obligations.CircuitFramesTakeEffect : Prop :=
  ∀ (s : State), let d := s.dev
    (∀ (p : PortNo) (f : CktFrame), let l := f.label.toNat; let c := d.ckt l
      let m := match d.extAt (f.line.toNat * 64) with | some r => d.shape r.2.part 2 8 f.payload.length | none => (Colour.green, 0, d)
      let o : Option (List Byte × Option (BitVec 13)) × Dev := if f.enc = true then
          (match m.2.2.openEnc ((Dev.cktBytes { f with label := 0 }).take 8) f.payload c.srcNode none with | (some (b, i), d) => (some (b, some i), d) | (none, d) => (none, d))
        else (some (f.payload, none), m.2.2)
      exec (.battenCircuitFrame p f) s = Obl.dev s (
        if c.state ≠ .opened ∨ c.inPort ≠ some (Dev.portNo p.val) ∨ c.role = .source then d.bump Reg.rte 0x088 1
        else if c.role = .transit then d.pushFrame l (Dev.cktBytes { f with label := c.outLabel })
        else if m.1 = .red then m.2.2.sendCktAck c f.ftag .policed m.2.1
        else match o.1 with
          | none => (o.2.bump Reg.sec 0x050 1).sendCktAck c f.ftag .keyError 0
          | some (plain, key) => match Dev.cktLines f plain with
            | none => o.2.bump Reg.rte 0x088 1
            | some ls => (o.2.modCoh fun x => { x with posted := x.posted ++ [⟨c.srcNode, some c.part, key, ls, .ok, some (c.srcCkt, f.ftag)⟩] }).tryPosted)) ∧
    (∀ (k : Packet), let w := k.word.toNat; let l := bits w 27 18; let ftag : BitVec 10 := BitVec.ofNat 10 (bits w 17 8); let c := d.ckt l
      let found := c.sent.find? fun x => x.ftag == ftag
      (c.state ≠ .opened ∨ c.role ≠ .source ∨ c.dstNode ≠ k.src ∨ found = none → exec (.cktAck k) s = .next s) ∧
      (∀ x, c.state = .opened → c.role = .source → c.dstNode = k.src → found = some x → exec (.cktAck k) s =
        if x.again.isSome = true then .next s
        else if Status.ofCode (BitVec.ofNat 8 w) = .policed then Obl.dev s (d.setCkt l { c with sent := c.sent.map fun y =>
          if y.ftag = ftag then { y with again := some (d.now + max 1 (bits w 43 28) * 100) } else y })
        else Obl.dev s ((((d.setCkt l { c with sent := c.sent.filter fun y => y.ftag != ftag }).endAcc x.acc (Status.ofCode (BitVec.ofNat 8 w)) []).cktPump l).cktCloseStep l))) ∧
    (∀ (l t : BitVec 10), let c := d.ckt l.toNat
      exec (.circuitFrameTimeout l t) s = (match c.sent.find? fun x => x.ftag == t with
        | none => .next s
        | some x =>
          if x.again.isSome = true ∨ d.now < x.due ∨ c.state ≠ .opened then .next s
          else if c.closing = true then
            Obl.dev s (((d.setCkt l.toNat { c with sent := c.sent.filter fun y => y.ftag != t }).reroute [x.acc]).cktCloseStep l.toNat)
          else Obl.dev s ((d.sendTear l.toNat 3 false).releaseCkt l.toNat 3)) ∧
      exec (.circuitFrameResend l t) s = (match (c.sent.find? fun x => x.ftag == t).bind fun x => x.again.map fun r => (x, r) with
        | some (x, r) => if r ≤ d.now then Obl.dev s (d.cktEmit l.toNat x) else .next s
        | none => .next s))

/-- With BUSY 0, write d for the device with BUSY set. RT_READ puts the route entry of the node in DATA; RT_WRITE stores a route entry, and
completes MALFORMED for a reserved port code or a 1 in a reserved bit; TREE_READ and TREE_WRITE the same for a tree entry, whose UP is a
port or 31; MTR_READ puts the meter's image in DATA, and completes STATE_CONFLICT for a partition that does not exist; MTR_WRITE stores a
meter with full buckets, the current count and no red packets, and completes MALFORMED for PIR below CIR, a bucket smaller than the largest
packet with its overhead, or a 1 in a reserved bit. The others complete OK; RTE_NOP and SHP_NOP do nothing else. (R448, R468, R472, R477,
R479, R480, R481.) -/
def Obligations.RouterTablesTakeEffect : Prop :=
  ∀ (s : State), let d := s.dev.cmdBegin 0xB104; let x := d.rteData; let e := s.dev.cmdBegin 0xC104; let y := e.data 0xC110 8
    let n := bits x 9 0; let v := bits x 191 64; let r := bits x 47 32
    let rte (st : Status) (d : Dev) : Host.Outcome State Fault Refusal := Obl.dev s (d.cmdEnd Reg.rte 0xB104 1 st)
    let shp (st : Status) (d : Dev) : Host.Outcome State Fault Refusal := Obl.dev s (d.cmdEnd Reg.shp 0xC104 1 st)
    (s.dev.busy 0xB104 = false →
      exec .rteNop s = rte .ok d ∧
      exec .rtRead s = rte .ok (d.setFld 0xB124 15 0 (Tbl.get (0 : BitVec 16) d.fab.routes (bits x 15 0)).toNat) ∧
      exec .rtWrite s = (if (24 ≤ bits r 4 0 ∧ bits r 4 0 ≤ 30) ∨ (24 ≤ bits r 9 5 ∧ bits r 9 5 ≤ 30) ∨ bits r 15 12 ≠ 0 then rte .malformed d
        else rte .ok { d with fab := { d.fab with routes := Tbl.set 0 (bits x 15 0) (BitVec.ofNat 16 r) d.fab.routes } }) ∧
      exec .treeRead s = rte .ok (d.setData 0xB128 4 (Dev.treeImage (d.tree n))) ∧
      exec .treeWrite s = (if (24 ≤ bits v 20 16 ∧ bits v 20 16 ≤ 30) ∨ bits v 63 35 ≠ 0 ∨ bits v 127 88 ≠ 0 then rte .malformed d
        else rte .ok (d.setTree n { d.tree n with
          root := BitVec.ofNat 16 v, up := BitVec.ofNat 5 (bits v 20 16), local_ := decide (bits v 21 21 = 1), valid := decide (bits v 22 22 = 1),
          part := BitVec.ofNat 12 (bits v 34 23), down := BitVec.ofNat 24 (bits v 87 64) }))) ∧
    (s.dev.busy 0xC104 = false → exec .shpNop s = shp .ok e ∧ ∀ (p : PartId) (c : Fin 4),
      exec (.mtrRead p c) s = (if (e.part? p).isNone = true then shp .stateConflict e else shp .ok (e.setData 0xC110 8 (Dev.meterImage (e.meter p.toNat c.val)))) ∧
      (let least := (if c.val = 2 then 8200 else 4112) + bits y 55 48;
        exec (.mtrWrite p c) s = (if bits y 47 24 < bits y 23 0 ∨ bits y 95 64 < least ∨ bits y 127 96 < least ∨ bits y 63 57 ≠ 0 then shp .malformed e
          else shp .ok (e.setMeter p.toNat c.val
            { cir := BitVec.ofNat 24 (bits y 23 0), pir := BitVec.ofNat 24 (bits y 47 24), overhead := BitVec.ofNat 8 (bits y 55 48),
              en := decide (bits y 56 56 = 1), cbs := BitVec.ofNat 32 (bits y 95 64), pbs := BitVec.ofNat 32 (bits y 127 96),
              tc := bits y 95 64 * 65536, tp := bits y 127 96 * 65536, tcPart := 0, tpPart := 0, time := e.gtc.count, red := 0 }))))

/-- An answer finds the device-issued transaction of its node and TAG that waits for no hint, else it is discarded. A home's answer of another
RETRY is discarded, a reserved status logged first. OK ends the access with the data, or with FWD waits for the forwarded data; NACK_RETRY
waits for the hint with one more RETRY; TIER_FILL and POLICED wait for it; any other status ends the access with it. Forwarded data is kept
until the acknowledgement. At the deadline a transaction is issued again with RISS once, and then ends TIMEOUT. A transit packet that has
waited longer than LIFE is dropped and counted. A pruned branch of a valid tree drops the copies that wait. FABRIC_PACKET takes the oldest
packet of a port and routes it; with none it changes nothing. MCAST is counted as misrouted at an entry that is not valid, from another
source or port, or with a tree over 1,023; else it is copied to the branches and delivered here when LOCAL is 1, a control message with
POISON only logged. NOTICE with a reserved status is logged; UNREACHED at the root adds to the tree's counter; POLICED answers the
transaction; any other changes nothing. (R22, R121, R442, R445, R449, R450, R452, R454, R456, R469, R470, R471.) -/
def Obligations.RouterEventsTakeEffect : Prop :=
  ∀ (s : State), let d := s.dev
    (∀ (via : Via) (n : NodeId) (t : Tag) (a : DevAnswer), let g := match a with
        | .home code _ _ _ _ => if code.toNat > 0x11 then d.logMalformed via none 6 0x20 1 (some n) .malformed else d
        | _ => d
      (g.devTx? n t = none → exec (.deviceTransactionAnswer via n t a) s = Obl.dev s g) ∧
      (∀ x, g.devTx? n t = some x → exec (.deviceTransactionAnswer via n t a) s = Obl.dev s (
        if x.again.isSome = true then g
        else match a with
          | .policed h => g.devAgain x false h.toNat
          | .forwarded data retry => if retry ≠ x.retry then g else if x.fwdAck = true then g.endDevTx x .ok data else g.setDevTx { x with fwdData := some data }
          | .home code data fwd retry h =>
            if retry ≠ x.retry then g
            else if Status.ofCode code = .nackRetry then g.devAgain x true h.toNat
            else if Status.ofCode code = .tierFill ∨ Status.ofCode code = .policed then g.devAgain x false h.toNat
            else if Status.ofCode code = .ok then
              if fwd = true then (match x.fwdData with | some b => g.endDevTx x .ok b | none => g.setDevTx { x with fwdAck := true }) else g.endDevTx x .ok data
            else g.endDevTx x (Status.ofCode code) []))) ∧
    (∀ (n : NodeId) (t : Tag), exec (.dtoExpiry n t) s = match d.devTx? n t with
      | none => .next s
      | some x => if x.again.isSome = true ∨ d.now < x.due then .next s
        else Obl.dev s (if x.riss = true then (d.bump Reg.rte 0x060 1).endDevTx x .timeout [] else (d.bump Reg.rte 0x058 1).issueDevTx { x with riss := true })) ∧
    (∀ i, let late (t : TxItem) : Bool := match t.transit with | some (j, since) => j == i && t.sent == 0 && decide (since + min1 (d.fld 0xB108 11 8) * 250 < d.now) | none => false
      exec (.transitLifetimeExpiry i) s = Obl.dev s ((List.range 24).foldl (fun d p => if (d.port p).txq.any late then
        (d.modPort p fun x => { x with txq := x.txq.filter fun t => !late t }).bump Reg.rte 0x050 1 else d) d)) ∧
    (∀ (n : BitVec 10) (p : PortNo), let mine (x : TxItem) : Bool := x.vc == 5 && x.sent == 0 && leAt x.bytes 0 2 % 1024 == n.toNat
      exec (.branchPrune n p) s = if ((d.tree n.toNat).valid && (d.tree n.toNat).down.getLsbD p.val && d.pruned p.val) = true then
        Obl.dev s ((d.modPort p.val fun x => { x with txq := x.txq.filter fun y => !mine y }).dropCopies n.toNat ((d.port p.val).txq.filter mine).length)
        else .next s) ∧
    (∀ p : PortNo, exec (.fabricPacket p) s = match d.popRx p.val with
      | none => .next s
      | some (r, d1) => .next (({ s with dev := d1 } : State).route p.val r)) ∧
    (∀ (via : Via) (k : Packet), let n := k.dst.toNat % 1024; let t := d.tree n; let d1 := d.copyDown n (pktBytes k)
      let up : Bool := match via with | .port q => t.up.toNat == q.val | .companion => false
      exec (.mcast via k) s =
        if t.valid = false ∨ k.src ≠ t.root ∨ up = false ∨ k.dst.toNat ≥ 1024 then Obl.dev s (d.bump Reg.rte 0x080 1)
        else if t.local_ = false then Obl.dev s d1
        else if k.arg.getLsbD 0 = false then Obl.dev s (d1.treeData n t k)
        else if k.poison = true then Obl.dev s (d1.logMalformed via none 2 0x32 5 (some k.src) .ok)
        else .next (({ s with dev := d1 } : State).treeControl t.root k.payload)) ∧
    (∀ (via : Via) (k : Packet), let w := k.word.toNat; let n := k.tag.toNat % 1024
      exec (.notice via k) s = Obl.dev s (
        if bits w 7 0 > 0x11 then d.logMalformed via none 6 0x31 7 (some k.src) .malformed
        else if bits w 7 0 = Status.unreached.code.toNat then
          if (d.tree n).valid = true ∧ (d.tree n).root = d.nodeId then d.unreached n (bits w 63 32) else d
        else if bits w 7 0 = Status.policed.code.toNat then d.devAnswer k.src k.tag (.policed (BitVec.ofNat 16 (bits w 23 8)))
        else d))

/-- A master or a follower whose interval has passed sends SYNC on its usable downstream ports. A follower takes a SYNC from its upstream port:
the hops plus one, the master and ALIGNED are kept, over 8 hops set their cause; the exchange whose ECHO it returns ends, too late after 4
intervals, else with its offset and delay; an ECHO is sent and a new exchange opens. A SYNC from another port is counted. The ECHO on a
downstream port is kept with the count of its receipt. An exchange in ACQUIRING whose offset is more than 1,000 ns behind moves the count
forward by it, and one more than 1,000 ns ahead freezes it for that time. A freeze whose time has come ends. A follower in ACQUIRING or
LOCKED without a valid exchange for 3 intervals enters HOLDOVER. Exchanges older than 4 intervals are dropped and counted. A write of
GTC.SET_HI, with no upstream, steps the count forward to the pair; backward or with an upstream it is illegal. A write of GTC.SYNC_CFG sets
the interval, and the upstream port and the role unless their value is reserved; a changed role starts anew: FREE_RUN, MASTER with 0 hops,
or ACQUIRING with 255. Anything else changes nothing. Register writes take effect on the paths that hold the page. (R17, R373, R374, R375,
R376, R377, R378, R379, R381, R393, R394.) -/
def Obligations.SyncTreeEventsTakeEffect : Prop :=
  ∀ (s : State), let d := s.dev
    (exec .syncSend s = if d.syncRole = 0 ∨ d.now < d.sync.sentAt + d.syncInterval then .next s else Obl.dev s ((List.range 24).foldl (fun d p =>
      if (d.reg 0x310C).getLsbD p && !(d.syncRole == 2 && d.upstream == p) && d.portUsable p then d.sendSync p else d)
      (d.modSync fun s => { s with sentAt := d.now }))) ∧
    (∀ (p : PortNo) (m : SyncMsg), let hops := min 255 (m.hops.toNat + 1)
      let d1 := (d.setFld 0x3110 11 4 hops).setFld 0x3114 15 0 m.master.toNat
      let d2 := (if 8 < hops then d1.cause Reg.gtc 4 else d1).modSync fun s => { s with upAligned := m.flags.getLsbD 0 }
      let d3 := match d2.sync.open_.find? fun x => x.seq == m.rxSeq && decide (m.rxPrev ≠ 0) with
        | none => d2
        | some x =>
          let e := d2.modSync fun s => { s with open_ := s.open_.filter fun y => y.seq ≠ x.seq }
          let a := Dev.countDiff x.t2 x.t1; let b := Dev.countDiff m.rxPrev x.t3
          if e.now > x.at_ + 4 * e.syncInterval then (e.modSync fun s => { s with run := 0 }).bump Reg.gtc 0x060 1 else e.exchangeDone (a - b) (a + b)
      let d4 := d3.sendEcho p.val m
      exec (.syncReceive p m) s = if d.syncRole ≠ 2 then .next s else if d.upstream ≠ p.val then Obl.dev s (d.bump Reg.gtc 0x058 1)
        else Obl.dev s (d4.modSync fun s => { s with open_ := s.open_ ++ [⟨m.seq, m.tx, d.portTime p.val, d4.portTime p.val, d4.now⟩] }).setAligned) ∧
    (∀ (p : PortNo) (m : SyncMsg), exec (.echoReceive p m) s = if d.syncRole = 0 ∨ (d.reg 0x310C).getLsbD p.val = false then .next s else
      Obl.dev s (d.setSyncPort p.val { d.syncPort p.val with echo := some (m.seq, d.portTime p.val) })) ∧
    (∀ (o2 delay : Int), d.syncState = 1 →
      (o2 < -2000 → (d.exchangeDone o2 delay).gtc.count = d.gtc.count + BitVec.ofNat 64 ((-o2) / 2).toNat) ∧
      (2000 < o2 → (d.exchangeDone o2 delay).gtc.freeze = d.now + (o2 / 2).toNat)) ∧
    (exec .freezeEnd s = if d.gtc.freeze ≤ d.now then Obl.dev s { d with gtc := { d.gtc with freeze := 0 } } else .next s) ∧
    (exec .holdoverEntry s = if d.syncRole = 2 ∧ (d.syncState = 1 ∨ d.syncState = 2) ∧ d.sync.validAt + 3 * d.syncInterval ≤ d.now then
      Obl.dev s ((d.enterSync 3).modSync fun s => { s with run := 0 }).setAligned else .next s) ∧
    (let late (x : Exchange) : Bool := decide (x.at_ + 4 * d.syncInterval < d.now);
      exec .exchangeTimeout s = if (d.sync.open_.filter late).length = 0 then .next s else
        Obl.dev s ((d.modSync fun s => { s with open_ := s.open_.filter fun x => !late x, run := 0 }).bump Reg.gtc 0x060 (d.sync.open_.filter late).length)) ∧
    (∀ (path : Path) (v : Word32), exec (.setHiWrite path v) s = Obl.dev s (d.accept path Reg.gtc 0x124 fun d =>
      let new := v ++ d.heldLow path 0x3120
      if d.syncRole ≠ 2 ∧ d.gtc.count.toNat < new.toNat then ((d.setReg 0x3120 (new.setWidth 32)).setReg 0x3124 (new.extractLsb' 32 32)).stepCount new
      else d.illegal Reg.gtc)) ∧
    (∀ (path : Path) (v : Word32), exec (.syncRoleWrite path v) s = Obl.dev s (d.accept path Reg.gtc 0x108 fun d =>
      let d1 := d.setFld 0x3108 15 8 (fieldOf v 15 8)
      let d2 := if fieldOf v 6 2 < 24 then d1.setFld 0x3108 6 2 (fieldOf v 6 2) else d1.illegal Reg.gtc
      let e := d2.setFld 0x3108 1 0 (fieldOf v 1 0)
      if fieldOf v 1 0 = 3 then d2.illegal Reg.gtc
      else if fieldOf v 1 0 = d.syncRole then e
      else (({ e with sync := { Sync.reset with ports := e.sync.ports, sentAt := e.sync.sentAt, validAt := e.now } }.setFld 0x3110 2 0
        (match fieldOf v 1 0 with | 0 => 0 | 1 => 4 | _ => 1)).setFld 0x3110 11 4 (if fieldOf v 1 0 = 1 then 0 else 0xFF)).setAligned))

/-- TEMPERATURE_SAMPLE keeps the readings and shows the hottest of the 40 die and the 4 optical readings in whole degrees; a reading at its
alarm threshold raises the alert, with its cause and record, unless it is up; readings all 5 °C below end it. POWER_SAMPLE keeps the
measurement and the estimate, counts a disagreement of more than 12 %, and shows the mean of the window; 1,000 bad samples in a row turn
measurement-alone mode on, with its cause and record, and 60,000 good ones turn it off. At a decision point, every 250 ms, the cap level,
the thermal level and MISS are set, and LEVEL to the highest of the two and MIN. A pace notice is shown, counted and its cause set. With
PWR.CMD_STS.BUSY 0: THERM_POINT sets the offsets when the readings lie within 2 °C and none has changed by 0.5 °C; THERM_SAVE saves offsets
that have been taken; PSENSE_POINT of a start at least 1 ms away, with none open, waits; PSENSE_SAVE of two points 10 W apart, one at 25 W
or more, saves the gain when it lies in range and is MALFORMED otherwise. Each ends OK, and STATE_CONFLICT where its condition does not
hold. PSENSE_POINT_DONE after the 4 s average keeps the point and completes PSENSE_POINT; before, or with none open, it changes nothing.
(R612, R614, R615, R617, R618, R620, R622, R623, R624, R626, R627, R630.) -/
def Obligations.SensorsAndCappingTakeEffect : Prop :=
  ∀ (s : State), let d := s.dev; let e := d.cmdBegin 0x2104
    let done (st : Status) : Host.Outcome State Fault Refusal := Obl.dev s (e.cmdEnd Reg.pwr 0x2104 1 st)
    (∀ raw, let d1 := d.modPwr (fun p => { p with temps := (raw.map fun x => 25 * x) :: p.temps.take 9999 }); let r := d1.readings
      let d2 := (d1.setFld 0x2134 7 0 (Dev.degrees (Dev.hottest (r.take 40)))).setFld 0x2134 15 8 (Dev.degrees (Dev.hottest (r.drop 40)))
      exec (.temperatureSample raw) s = Obl.dev s (match (List.range 44).find? fun i => decide (r.getD i 0 ≥ d2.alarmAt i) with
        | some i => if (d2.reg 0x1100).getLsbD 1 = true then d2 else ((d2.cause Reg.pwr 5).alert 1).logPower (Dev.sensorHalf i) 2
        | none => if ((List.range 44).all fun i => decide (r.getD i 0 ≤ d2.alarmAt i - 500)) = true then d2.unalert 1 else d2)) ∧
    (∀ m x : BitVec 16, let bad : Prop := 100 * (max m.toNat x.toNat - min m.toNat x.toNat) > 12 * m.toNat
      let d1 := (d.setReg 0x2118 (m.setWidth 32 ||| (x.setWidth 32 <<< 16))).modPwr fun p =>
        { p with window := m.toNat :: p.window.take 9999, badRun := if bad then p.badRun + 1 else 0, goodRun := if bad then 0 else p.goodRun + 1 }
      let d2 := if bad then d1.bump Reg.pwr 0x068 1 else d1
      let d3 := d2.setFld 0x2114 15 0 (min 65535 (d2.window.sum / d2.window.length))
      exec (.powerSample m x) s = Obl.dev s (
        if d3.fld 0x2114 17 17 ≠ 1 ∧ d3.pwr.badRun ≥ 1000 then (((d3.setFld 0x2114 17 17 1).setDegraded).cause Reg.pwr 3).logPower d3.strapHalf 2
        else if d3.fld 0x2114 17 17 = 1 ∧ d3.pwr.goodRun ≥ 60000 then (d3.setFld 0x2114 17 17 0).setDegraded
        else d3)) ∧
    (∀ est, exec (.decisionPoint est) s = match d.pwr.decideAt with
      | none => .next s
      | some t =>
        if d.now < t then .next s
        else
          let d1 := d.modPwr fun p => { p with decideAt := some (t + 250000000) }; let cap := (d1.capLevel est).1; let miss := (d1.capLevel est).2
          let d2 := ((d1.setFld 0x210C 6 4 cap).setFld 0x210C 10 8 d1.thermLevel).setFld 0x2114 19 19 (if miss then 1 else 0)
          let new := max (d1.fld 0x2108 2 0) (max cap d1.thermLevel); let d3 := if miss then d2.cause Reg.pwr 4 else d2
          Obl.dev s (d3.setLevel new (if cap = new ∧ d3.fld 0x2110 0 0 = 1 then (if d3.measureOnly then 4 else 1) else if d1.thermLevel = new then 2 else 3))) ∧
    (∀ (n : NodeId) (l : BitVec 3) (c : Word64), exec (.paceNoticeReceive n l c) s = Obl.dev s
      ((((d.setReg 0x212C (BitVec.ofNat 32 (n.toNat + l.toNat * 2 ^ 16 + 2 ^ 19))).modPwr fun p => { p with paceCount := c }).bump Reg.pwr 0x078 1).cause Reg.pwr 6)) ∧
    (d.busy 0x2104 = false →
      exec .pwrNop s = done .ok ∧
      (let r := e.readings; let moved (i : Nat) : Bool := let l := e.pwr.temps.map fun t => t.getD i 0; decide (Dev.hottest l + Dev.hottest (l.map fun x => -x) ≥ 50)
        exec .thermPoint s = if Dev.hottest r + Dev.hottest (r.map fun x => -x) > 200 ∨ (List.range 44).any moved = true then done .stateConflict
          else Obl.dev s ((e.modPwr fun p => { p with
            offsets := (List.range 44).map fun i => Int.ofNat (bits e.pwrData 31 0) - (e.pwr.temps.headD []).getD i 0, offsetsOk := true }).cmdEnd Reg.pwr 0x2104 1 .ok)) ∧
      (exec .thermSave s = if d.pwr.offsetsOk = false then done .stateConflict else
        .next { s with nv := { s.nv with thermal := .saved d.pwr.offsets }, dev := (e.setFld 0x2134 16 16 0).cmdEnd Reg.pwr 0x2104 1 .ok }) ∧
      (exec .psensePoint s = if bits e.pwrData 127 64 < e.gtc.count.toNat + 1000000 ∨ e.pwr.point.isSome = true then done .stateConflict else Obl.dev s
        (e.modPwr fun p => { p with point := some (bits e.pwrData 31 0, BitVec.ofNat 64 (bits e.pwrData 127 64)) })) ∧
      (exec .psenseSave s = match d.pwr.points with
        | (e1, r1) :: (e2, r2) :: _ =>
          if max e1 e2 - min e1 e2 < 100000 ∨ max e1 e2 < 250000 then done .stateConflict
          else (match gainOf e1 r1 e2 r2 with
            | none => done .malformed
            | some g => .next { s with nv := { s.nv with psense := .saved g }, dev := ((e.setFld 0x2114 18 18 0).setDegraded).cmdEnd Reg.pwr 0x2104 1 .ok })
        | _ => done .stateConflict)) ∧
    (∀ raw, exec (.psensePointDone raw) s = match d.pwr.point with
      | none => .next s
      | some (ext, start) => if d.gtc.count.toNat < start.toNat + 4000000000 then .next s else
        Obl.dev s ((d.modPwr fun p => { p with point := none, points := (ext, raw) :: p.points.take 1 }).cmdEnd Reg.pwr 0x2104 1 .ok))

/-- With PWR.CMD_STS.BUSY 0: VOTE over domain 76 is MALFORMED. VOTE with 1 keeps the vote; in Midnight it waits for the return, past the last
abort point for its end, else it completes OK. VOTE with 0 withdraws it, starts the entry when no vote is left, and completes OK, but waits
for a return that has no vote. PART_POLICY of a live partition sets its policy, of another is STATE_CONFLICT. DUSK_ENTRY of an enabled,
idle, unclaimed ON cluster that has been idle for IDLE_TIME starts the entry and counts it. Without a vote MIDNIGHT_ENTRY starts step 1 from
ON and step 3 from Dusk: it is counted, a port begins its shutdown, the companion's lines are recalled. A cluster's step of 100, 500, 300 or
1,000 ns (step 2: until it is empty, at most 1 µs) leads to the next, the fifth to Midnight or Dusk; an entry wanted no more at steps 1 to 3
is counted and undone after 200 or 500 ns; a Dusk entry whose last vote goes becomes a Midnight entry. A port that is OFF, a root port with
no command out and a link with no line left are in Midnight; wanted again, they are ON, and it is counted. At a sample in Dusk a wake
condition sets WAKE, a lost last vote starts the Midnight entry, and else DOORBELL is dropped; 12 µs after WAKE the cluster is ON. The first
domain in order that waits returns at its spacing; it is usable after 150, 35, 20 or 30 µs: a port resets with cause POWER when enabled, a
root port and the link train. A shutdown of a port that is disabled or has no vote begins. Anything else changes nothing. (R434, R599, R600,
R601, R602, R603, R604, R605, R606, R608, R609, R630.) -/
def Obligations.PowerDomainsTakeEffect : Prop :=
  ∀ (s : State), let d := s.dev; let e := d.cmdBegin 0x2104; let x := e.pwrData
    let done (st : Status) (e : Dev) : Host.Outcome State Fault Refusal := Obl.dev s (e.cmdEnd Reg.pwr 0x2104 1 st)
    let start (n step : Nat) : Dev :=
      let g := ((d.voteDone n).modDom n fun x => { x with state := .entering true step false, at_ := (d.voteDone n).now, wake := false }).bump Reg.pwr 0x058 1
      if 36 ≤ n ∧ n < 60 then g.beginShutdown (n - 36) else if n = 76 then g.recallCompanion else g
    (d.busy 0x2104 = false →
      (let n := bits x 7 0; let e1 := e.modDom n fun y => { y with comp := decide (bits x 8 8 = 1) }; let wait := e1.modPwr fun p => { p with voteWait := some n }
        (n > 76 → exec .vote s = done .malformed e) ∧
        (n ≤ 76 → bits x 8 8 = 1 → exec .vote s = if (e1.dom n).state = .midnight then Obl.dev s (wait.domainReturn n)
          else if Dev.pastAbort (e1.dom n).state = true then Obl.dev s wait else done .ok e1) ∧
        (n ≤ 76 → bits x 8 8 = 0 → exec .vote s = if (e1.dom n).state = .returning ∧ e1.voted n = false then Obl.dev s wait else done .ok (e1.midnightEntry n))) ∧
      (∀ p : PartId, exec (.partPolicy p) s = if e.partLive p = true then done .ok (e.modPart p fun y => { y with keep := decide (bits x 0 0 = 1) })
        else done .stateConflict e)) ∧
    (∀ n : ClusterNo, let y := d.dom n.val
      let en := if n.val < 32 then (d.reg 0x2120).getLsbD n.val else (d.reg 0x2124).getLsbD (n.val - 32)
      (exec (.duskEntry n) s = if en = true ∧ y.state = .on ∧ d.clusterEmpty n.val = true ∧ d.fwCluster n.val = false ∧ y.idleAt + min1 (d.fld 0x211C 15 8) * 1000 ≤ d.now then
        Obl.dev s ((d.modDom n.val fun y => { y with state := .entering false 1 false, at_ := d.now, wake := false, bell := false }).bump Reg.pwr 0x048 1) else .next s) ∧
      (exec (.duskSamplerWake n) s = if y.state = .dusk ∧ y.wake = false ∧ y.at_ < d.now ∧ (d.now - y.at_) % (min1 (d.fld 0x211C 7 0) * 500) = 0 then
          if d.wakes n.val = true then Obl.dev s (d.modDom n.val fun y => { y with wake := true, at_ := d.now, bell := false })
          else if d.voted n.val = false then Obl.dev s (start n.val 3)
          else Obl.dev s (d.modDom n.val fun y => { y with bell := false })
        else .next s) ∧
      (exec (.clusterResume n) s = if y.state = .dusk ∧ y.wake = true ∧ y.at_ + 12000 ≤ d.now then
        Obl.dev s (d.modDom n.val fun y => { y with state := .on, at_ := d.now, wake := false, idleAt := d.now }) else .next s)) ∧
    (∀ n : DomainNo, let y := d.dom n.val
      (exec (.midnightEntry n) s = if d.voted n.val = true then .next s else if y.state = .on then Obl.dev s (start n.val 1)
        else if y.state = .dusk then Obl.dev s (start n.val 3) else .next s) ∧
      ((∀ m step u, y.state ≠ .entering m step u) → exec (.entryStepDone n) s = .next s) ∧
      (∀ m step u, y.state = .entering m step u → n.val < 36 →
        (u = true → exec (.entryStepDone n) s = if d.now < y.at_ + (if step = 2 then 200 else 500) then .next s
          else Obl.dev s ((d.modDom n.val fun y => { y with state := .on, at_ := d.now }).modDom n.val fun y => { y with wake := false, idleAt := d.now })) ∧
        (u = false → d.now < y.at_ + Dev.entryTime step → exec (.entryStepDone n) s = .next s) ∧
        (u = false → y.at_ + Dev.entryTime step ≤ d.now →
          let m' := m || !d.voted n.val; let d1 := if (m' && !m) = true then d.bump Reg.pwr 0x058 1 else d
          let wake := if m' = true then d1.voted n.val else d1.wakes n.val; let d2 := d1.bump Reg.pwr (if m' then 0x060 else 0x050) 1
          let goTo (st : DomState) (d : Dev) : Dev := d.modDom n.val fun y => { y with state := st, at_ := d.now }
          exec (.entryStepDone n) s = Obl.dev s (
            if step ≤ 3 ∧ wake = true then
              if step = 1 then (goTo .on d2).modDom n.val fun y => { y with idleAt := d2.now } else goTo (.entering m' step true) d2
            else if step = 2 ∧ d1.clusterEmpty n.val = false ∧ d1.now < y.at_ + 1000 then d1.modDom n.val fun y => { y with state := .entering m' 2 false }
            else if step < 5 then goTo (.entering m' (step + 1) false) (if step = 2 then d1.clusterUnits n.val else d1)
            else goTo (if m' then .midnight else .dusk) ((if m' then d1.coresOff n.val else d1).modDom n.val fun y => { y with wake := wake, bell := false })))) ∧
      (∀ m step u, y.state = .entering m step u → 36 ≤ n.val →
        let off (d : Dev) : Dev := d.modDom n.val fun y => { y with state := .midnight, at_ := d.now }
        let back (d : Dev) : Dev := (d.modDom n.val fun y => { y with state := .on }).bump Reg.pwr 0x060 1; let p := n.val - 36
        (n.val < 60 → exec (.entryStepDone n) s = if (d.port p).state = .off then Obl.dev s (off d)
          else if d.voted n.val = true then Obl.dev s (back ((d.modPort p fun x => { x with drainAt := none }).pump p)) else .next s) ∧
        (60 ≤ n.val → d.voted n.val = true → exec (.entryStepDone n) s = Obl.dev s (back d)) ∧
        (60 ≤ n.val → n.val < 76 → d.voted n.val = false → exec (.entryStepDone n) s =
          if ((d.drive (n.val - 60)).io.any fun c => c.issued.isSome) = true then .next s else Obl.dev s (off (d.rootLink (n.val - 60) 0))) ∧
        (76 ≤ n.val → d.voted n.val = false → exec (.entryStepDone n) s = if d.companionHolds = true then .next s else Obl.dev s (off (d.linkOff 0)))) ∧
      (let first : Prop := d.returnWaits n.val = true ∧ (∀ m < 77, d.returnWaits m = true → Dev.returnRank n.val ≤ Dev.returnRank m) ∧
          (∀ m t, d.pwr.returned = some (m, t) → t + Dev.returnGap m n.val ≤ d.now);
        (first → exec (.domainReturn n) s = Obl.dev s
          (((d.modDom n.val fun y => { y with state := .returning, at_ := d.now, wake := false }).modPwr fun p => { p with returned := some (n.val, d.now) }).voteDone n.val)) ∧
        (¬ first → exec (.domainReturn n) s = .next s)) ∧
      (y.state ≠ .returning → exec (.domainUsable n) s = .next s) ∧
      (y.state = .returning →
        let wait := if n.val < 36 then 150000 else if n.val < 60 then 35000 else if n.val < 76 then 20000 else 30000
        let d1 := d.modDom n.val fun y => { y with state := .on, at_ := d.now, idleAt := d.now }; let d2 := if d1.voted n.val = true then d1.voteDone n.val else d1
        exec (.domainUsable n) s = if d.now < y.at_ + wait then .next s else Obl.dev s (
          if n.val < 36 then d2
          else if n.val < 60 then
            if d2.fld (Dev.fabA (n.val - 36) + 0x100) 0 0 = 1 ∧ d2.nodeId ≠ 0xFFFF then d2.startReset (n.val - 36) ⟨7, none, false⟩ else d2
          else if n.val < 76 then d2.rootLink (n.val - 60) 1
          else ({ d2 with cmp := { d2.cmp with trainAt := d2.now } }).setFld 0xD100 2 0 1))) ∧
    (∀ p : PortNo, exec (.plannedShutdown p) s = if d.fld (Dev.fabA p.val + 0x100) 0 0 = 0 ∨ d.voted (36 + p.val) = false then Obl.dev s (d.beginShutdown p.val) else .next s)

/-- With SEC.CMD_STS.BUSY 0: SLOT_READ shows whether the partition's secret slot is live, CONF, quiet mode and its number of fabric keys.
LOG_READ shows the security record with the SEQ of DATA; without one it is STATE_CONFLICT. QUIET_SET for a confidential partition is
STATE_CONFLICT; a PERIOD below 2 or a LAT outside 5 to 35 is MALFORMED; a partition that does not exist, has a queue that is not STOPPED, or
turns quiet mode on without a spill extent is STATE_CONFLICT; else the mode is set, and the overruns cleared when it turns on. FKEY_FLUSH of
a live partition ends its sessions and drops its keys; of another it is STATE_CONFLICT. SVN_COMMIT with a higher FW_SVN waits, else it is
STATE_CONFLICT; SVN_COMMIT_DONE raises the fuses to it, logs it and completes it. With GLB.CMD_STS.BUSY 0 every command before SERVICE is
STATE_CONFLICT. In SERVICE: PART_CREATE of a partition that exists, or a confidential one while the debug port is unlocked, is
STATE_CONFLICT; else it is created with KEEP 1, a fresh secret and cleared meters. PART_DESTROY of one that does not exist or has objects is
STATE_CONFLICT; else its keys are flushed, it is logged and removed. PART_QUERY shows LIVE and CONF. The others end OK. (R68, R490, R495,
R499, R507, R511, R513, R514, R521, R675, R676, R677.) -/
def Obligations.SecurityAndPartitionCommandsTakeEffect : Prop :=
  ∀ (s : State) (p : PartId), let d := s.dev.cmdBegin 0x6104; let x := d.secData; let g := s.dev.cmdBegin 0x118
    let sec (st : Status) (d : Dev) : Host.Outcome State Fault Refusal := Obl.dev s (d.cmdEnd Reg.sec 0x6104 1 st)
    let glb (st : Status) (d : Dev) : Host.Outcome State Fault Refusal := Obl.dev s (d.cmdEnd Reg.glb 0x118 1 st)
    (s.dev.busy 0x6104 = false →
      exec .secNop s = sec .ok d ∧
      exec (.slotRead p) s = sec .ok (d.setReg 0x6120 (BitVec.ofNat 32 ((match d.part? p with
        | some x => (if x.slotLive then 1 else 0) + (if x.conf then 2 else 0) + (if x.quiet.on then 4 else 0)
        | none => 0) + (d.fkeysOf p).length * 2 ^ 16))) ∧
      exec .secLogRead s = (match d.sec.log.find? fun e => e.seq.toNat == bits x 31 0 with
        | some r => sec .ok (d.setData 0x6120 16 r.view.toNat)
        | none => sec .stateConflict d) ∧
      (d.conf p = true → exec (.quietSet p) s = sec .stateConflict d) ∧
      (d.conf p = false → exec (.quietSet p) s =
        if bits x 15 8 < 2 ∨ bits x 31 16 < 5 ∨ 35 < bits x 31 16 then sec .malformed d
        else match d.part? p with
          | none => sec .stateConflict d
          | some q =>
            if ((d.queuesOf p).any fun x => x.2.state != .stopped) = true ∨ (bits x 0 0 = 1 ∧ q.spill.isNone = true) then sec .stateConflict d
            else sec .ok (d.modPart p fun y => { y with quiet := { on := decide (bits x 0 0 = 1), period := BitVec.ofNat 8 (bits x 15 8), lat := BitVec.ofNat 6 (bits x 31 16), overruns := if bits x 0 0 = 1 ∧ ¬ y.quiet.on = true then 0 else y.quiet.overruns, lastSlot := y.quiet.lastSlot } })) ∧
      exec (.fkeyFlush p) s = (if d.partLive p = true then sec .ok ((d.endSessions fun y => y.via == .fabric p).modSec fun y =>
        { y with fkeys := y.fkeys.filter fun k => k.2.part != p }) else sec .stateConflict d) ∧
      exec .svnCommit s = (if d.fw.runSvn ≤ s.nv.fuses.svn then sec .stateConflict d else Obl.dev s (d.modSec fun y => { y with svnBusy := true }))) ∧
    (exec .svnCommitDone s = if s.dev.sec.svnBusy = true then .next { s with
      nv := { s.nv with fuses := { s.nv.fuses with svn := max s.nv.fuses.svn s.dev.fw.runSvn } },
      dev := ((s.dev.modSec fun y => { y with svnBusy := false }).secLog 7 0 { type := 0, sev := 0, block := 0 }).cmdEnd Reg.sec 0x6104 1 .ok } else .next s) ∧
    (s.dev.busy 0x118 = false →
      (s.dev.dawn.step ≠ .service → ∀ c ∈ [Instr.glbNop, .partCreate p true, .partCreate p false, .partDestroy p, .partQuery p], exec c s = glb .stateConflict g) ∧
      (s.dev.dawn.step = .service →
        exec .glbNop s = glb .ok g ∧
        (∀ c : Bool, let g2 := g.draw.2.draw.2
          exec (.partCreate p c) s = if g.partLive p = true ∨ (c = true ∧ g.sec.dbgLive = true) then glb .stateConflict g else glb .ok { g2 with
            parts := Tbl.put p.toNat { conf := c, tenant := BitVec.ofNat 512 (g.data 0x120 16), slotLive := true, secret := g.draw.1, hashKey := Config.drawKey g.draw.2.draw.1, keep := true, quiet := ⟨false, 4, 20, 0, 0⟩, ctx := ctxReset, spill := none, spillIx := 0, quota := 0, cores := [], mailbox := ⟨0, 0, 0, 0, []⟩, rrQueue := 0, rrLeft := 0 } g2.parts,
            fab := { g2.fab with meters := g2.fab.meters.filter fun m => !(m.1 / 4 == p.toNat) } }) ∧
        (exec (.partDestroy p) s = match g.part? p with
          | none => glb .stateConflict g
          | some y =>
            if g.partBusy p y = true then glb .stateConflict g
            else
              let g1 := (g.flushKeys p).secLog 5 0 { type := 0, sev := 0, block := 0, part := some p, detail := [(41, 2, p.toNat)] }
              glb .ok { g1 with parts := Tbl.drop p.toNat g1.parts }) ∧
        exec (.partQuery p) s = glb .ok (g.setReg 0x120 (BitVec.ofNat 32 (if g.partLive p then 1 + (if g.conf p then 2 else 0) else 0)))))

/-- While SPDM is not served, requests get ERROR Busy. A request outside the subset gets ERROR; one of it is answered (the bytes are free, log
10), and a HEARTBEAT noted in its session. KEY_EXCHANGE for a partition that is not live, or without the authentication it needs, gets
ERROR; over 2 side-band or 4 companion sessions, or one open on the fabric, ERROR Busy; else it creates a session. FINISH of a session in
set-up: a bad signature or leaf key ends it, counted, logged, its cause set, with ERROR; else it is secured, replaces the tenant's old one,
is counted and answered; of any other session, ERROR. END_SESSION ends a session, or gets ERROR. MEASUREMENTS counts a report and answers
with blocks 1 to 6, the tenant's own blocks in its session, and the signature of the identity key with a fresh nonce. A secured session
without a heartbeat for 30 s ends. Outside a secured side-band session the four messages are MALFORMED. DEBUG_CHALLENGE answers with a fresh
nonce. DEBUG_UNLOCK unlocks and logs with the owner's signature over it, the debug port not disabled and no confidential partition;
OWNER_SET programs the hash of the owner's key once; DEBUG_DISABLE with the owner's signature blows DBG_OFF; else each is STATE_CONFLICT. A
use of the unlocked port is noted. (R486, R487, R491, R492, R493, R494, R495, R498, R517, R518, R649, log 10.) -/
def Obligations.SpdmSessionsTakeEffect : Prop :=
  ∀ (s : State), let d := s.dev; let f := s.nv.fuses
    (∀ v (c : BitVec 8) b, exec (.spdmRequest v c b) s = Obl.dev s (
      if d.spdmReady = false then d.spdmError 0x03
      else if Dev.spdmCodes.contains c.toNat = false then d.spdmError 0x07
      else (if c = 0xE8 then d.modSec fun s => { s with sessions := Tbl.upd (leAt b 0 4) (fun x => { x with lastBeat := d.now }) s.sessions } else d).emit
        (.answer (c &&& 0x7F) (Config.spdmAnswer c b)))) ∧
    (∀ v m, let l := d.sec.sessions.filter fun s => s.2.via == v
      let full := match v with | .sideband => decide (l.length ≥ 2) | .companion => decide (l.length ≥ 4) | .fabric _ => l.any fun s => !s.2.secured
      let bad := match v with | .fabric p => !d.partLive p || (d.mustAuth p && !m) | _ => false
      exec (.keyExchange v m) s = Obl.dev s (
        if d.spdmReady = false then d.spdmError 0x03
        else if bad = true then d.spdmError 0x01
        else if full = true then d.spdmError 0x03
        else (d.modSec fun s => { s with sessions := Tbl.put d.sec.nextSession ⟨v, m, false, d.now, 0⟩ s.sessions, nextSession := d.sec.nextSession + 1 }).emit
          (.answer 0x64 (leBytes 4 d.sec.nextSession)))) ∧
    (∀ i leaf ok, exec (.finish i leaf ok) s = match d.session? i with
      | none => Obl.dev s (d.spdmError 0x01)
      | some x =>
        let part := match x.via with | .fabric p => some p | _ => none
        let tenantOk := match x.via with | .fabric p => (d.part? p).any (fun (y : Part) => y.tenant == leaf) && x.mutualAuth | _ => false
        let need := match x.via with | .fabric p => d.mustAuth p | _ => false
        let e := match x.via with | .fabric _ => d.endSessions fun y => y.via == x.via && y.secured | _ => d
        if x.secured = true then Obl.dev s (d.spdmError 0x01)
        else if ok = false ∨ (need = true ∧ tenantOk = false) then
          Obl.dev s (((((d.modSec fun y => { y with sessions := Tbl.drop i y.sessions }).bump Reg.sec 0x060 1).cause Reg.sec 2).secLog 8 1
            { type := 0, sev := 1, block := 0, part := part }).spdmError 0x06)
        else Obl.dev s (((e.modSec fun y =>
          { y with sessions := Tbl.upd i (fun z => { z with secured := true, mutualAuth := tenantOk, lastBeat := e.now }) y.sessions }).bump Reg.sec 0x058 1).emit (.answer 0x65 []))) ∧
    (∀ i, exec (.endSession i) s = Obl.dev s (if (d.session? i).isSome = true then (d.modSec fun y => { y with sessions := Tbl.drop i y.sessions }).emit (.answer 0x6C [])
      else d.spdmError 0x01)) ∧
    (∀ i, (d.session? i = none → exec (.heartbeatMissed i) s = .next s) ∧ ∀ x, d.session? i = some x → exec (.heartbeatMissed i) s =
      if x.secured = true ∧ x.lastBeat + 30000000000 ≤ d.now then Obl.dev s (d.modSec fun y => { y with sessions := Tbl.drop i y.sessions }) else .next s) ∧
    (∀ ses nonce, let e := d.modSec fun x => { x with reports := x.reports + 1 }; let part := match ses with | some i => e.tenantOf i | none => none
      let block (i : Nat) (v : List Byte) : List Byte := leBytes 1 i ++ leBytes 2 v.length ++ v
      let digest (i : Nat) : List Byte := block i (leBytes 64 (Tbl.get 0 e.sec.measure i).toNat)
      let own := match part.bind fun p => (e.part? p).map fun x => (p, x) with
        | none => []
        | some (p, x) => block 0x10 (e.summary p x (match ses with | some i => (e.session? i).any (·.mutualAuth) | none => false))
          ++ ((pieces 2048 16 (e.extsOf p)).zipIdx.flatMap fun y => block (0x11 + y.2) (y.1.flatMap Dev.extEntry))
          ++ ((pieces 16384 2 (e.queuesOf p)).zipIdx.flatMap fun q => block (0x21 + q.2) (q.1.flatMap fun y => leBytes 2 y.1))
      let report := digest 1 ++ digest 2 ++ digest 3
        ++ block 4 (leBytes 1 f.svn ++ leBytes 1 e.fw.runSvn ++ leBytes 1 ((if f.ownerHash = 0 then 0 else 1) + (if f.dbgOff then 2 else 0) + (if e.sec.chainOk then 4 else 0)) ++ ([0] : List Byte) ++ leBytes 64 f.ownerHash.toNat)
        ++ block 5 (leBytes 4 ((if e.sec.dbgLive then 1 else 0) + (if e.sec.dbgUsed then 2 else 0)))
        ++ block 6 (leBytes 32 nonce.toNat ++ leBytes 8 e.sec.reports.toNat ++ leBytes 8 e.gtc.count.toNat ++ leBytes 2 e.nodeId.toNat ++ leBytes 2 (e.fld 0x104 9 0)
          ++ leBytes 2 (match part with | some p => p.toNat | none => 0xFFFF) ++ leBytes 2 0) ++ own
      exec (.measurements ses nonce) s = if d.spdmReady = false then Obl.dev s (d.spdmError 0x03) else
        Obl.dev s (e.draw.2.emit (.answer 0x60 (report ++ p521Sign e.draw.2.sec.idScalar (Config.sha512 report) (Config.signNonce e.draw.1))))) ∧
    (∀ i, (d.sidebandSession i = false → ∀ g k, exec (.debugChallenge i) s = Obl.dev s (d.answerMsg 0x10 .malformed []) ∧
        exec (.debugUnlock i g) s = Obl.dev s (d.answerMsg 0x11 .malformed []) ∧ exec (.ownerSet i k) s = Obl.dev s (d.answerMsg 0x12 .malformed []) ∧
        exec (.debugDisable i g) s = Obl.dev s (d.answerMsg 0x13 .malformed [])) ∧
      (d.sidebandSession i = true →
        exec (.debugChallenge i) s = Obl.dev s ((d.draw.2.modSec fun s => { s with dbgNonce := some (Config.drawKey d.draw.1) }).answerMsg 0x10 .ok
          (leBytes 16 (Config.drawKey d.draw.1).toNat)) ∧
        (∀ g, exec (.debugUnlock i g) s = Obl.dev s (
            if f.dbgOff = true ∨ d.ownerSigned f g = false ∨ (d.parts.any fun p => p.2.conf) = true then d.answerMsg 0x11 .stateConflict []
            else ((d.modSec fun x => { x with dbgLive := true, dbgUsed := false }).secLog 6 0 { type := 0, sev := 0, block := 0 }).answerMsg 0x11 .ok []) ∧
          exec (.debugDisable i g) s = if d.ownerSigned f g = false then Obl.dev s (d.answerMsg 0x13 .stateConflict [])
            else .next { s with nv := { s.nv with fuses := { f with dbgOff := true } }, dev := d.answerMsg 0x13 .ok [] }) ∧
        (∀ k, exec (.ownerSet i k) s = if f.ownerHash ≠ 0 then Obl.dev s (d.answerMsg 0x12 .stateConflict []) else .next { s with
          nv := { s.nv with fuses := { f with ownerHash := Config.sha512 (leBytes 133 k.toNat) } }, dev := d.answerMsg 0x12 .ok [] }))) ∧
    (exec .debugPortAccess s = if d.sec.dbgLive = true then Obl.dev s (d.modSec fun x => { x with dbgUsed := true }) else .next s)

/-- Outside a secured tenant session the messages are answered MALFORMED. In one of partition p: FKEY_INSTALL of a wrong length, type or tree is
MALFORMED; over 8,192 keys or 256 of p, QUOTA; of a second pair key for a peer, STATE_CONFLICT; else the key is installed under the lowest
free index with TX_SEQ 1 and answered OK with it. FKEY_DESTROY of an own entry removes it, of another is STATE_CONFLICT. EXT_ACCEPT of an
ACTIVE own extent of that generation accepts it, else STATE_CONFLICT. LOG_READ answers with the record of p of the lowest SEQ from SEQ on,
its LOC and BLOCK 0, and without one STATE_CONFLICT. XLT_COMMAND, OPQ_COMMAND and QUIET_SET wait while the block's BUSY is 1, and else run
in the block for p with DATA, STATUS and cause restored, answered at the end; a fault record or queue of another partition is
STATE_CONFLICT, a code the message does not allow MALFORMED. At a multiple of PERIOD every core of a quiet partition issues, once: the
access that waits for its slot, or a read of the spill extent's first line. A held answer leaves at its time, a held result ends then;
anything else changes nothing. (R498, R499, R500, R501, R502, R513, R514, R515, R670.) -/
def Obligations.TenantMessagesTakeEffect : Prop :=
  ∀ (s : State) (i : Nat) (p : PartId), let d := s.dev
    (d.tenantOf i = none → ∀ a k x g c y w q, ∀ m ∈ [(Instr.fkeyInstall i a, (0x01 : BitVec 8)), (.fkeyDestroy i k, 0x02), (.xltCommand i c y, 0x03), (.opqCommand i c y, 0x04),
      (.extAccept i x g, 0x05), (.quietSetMessage i w, 0x06), (.tenantLogRead i q, 0x07)], exec m.1 s = Obl.dev s (d.answerMsg m.2 .malformed [])) ∧
    (d.tenantOf i = some p →
      (∀ a, let peer : NodeId := BitVec.ofNat 16 (leAt a 2 2); let type := leAt a 0 1; let tree := leAt a 4 2
        exec (.fkeyInstall i a) s = Obl.dev s (
          if a.length ≠ 80 ∨ type > 1 ∨ (type = 1 ∧ tree > 1023) then d.answerMsg 0x01 .malformed []
          else if d.sec.fkeys.length ≥ 8192 ∨ (d.fkeysOf p).length ≥ 256 then d.answerMsg 0x01 .quota []
          else if type = 0 ∧ ((d.fkeysOf p).any fun k => k.2.tree.isNone && k.2.peer == peer) = true then d.answerMsg 0x01 .stateConflict []
          else match (List.range 8192).find? fun i => (d.fkey i).isNone with
            | none => d.answerMsg 0x01 .quota []
            | some n =>
              let k : FKey := { part := p, tree := if type = 1 then some (BitVec.ofNat 10 tree) else none, peer := peer, remote := BitVec.ofNat 16 (leAt a 6 2), txKey := BitVec.ofNat 256 (leAt a 8 32), txSalt := BitVec.ofNat 32 (leAt a 40 4), txSeq := 1, rxKey := BitVec.ofNat 256 (leAt a 44 32), rxSalt := BitVec.ofNat 32 (leAt a 76 4), top := 0, seen := [] }
              (d.modSec fun s => { s with fkeys := Tbl.put n k s.fkeys }).answerMsg 0x01 .ok (leBytes 2 n))) ∧
      (∀ k : BitVec 13, exec (.fkeyDestroy i k) s = Obl.dev s (if ((d.fkey k.toNat).any fun y => y.part == p) = true then
        (d.modSec fun s => { s with fkeys := Tbl.drop k.toNat s.fkeys }).answerMsg 0x02 .ok [] else d.answerMsg 0x02 .stateConflict [])) ∧
      (∀ x g, exec (.extAccept i x g) s = Obl.dev s (if (d.ext x.toNat).state = .active ∧ (d.ext x.toNat).part = p ∧ (d.ext x.toNat).gen = g then
        (d.setExt x.toNat { d.ext x.toNat with accepted := true }).answerMsg 0x05 .ok [] else d.answerMsg 0x05 .stateConflict [])) ∧
      (∀ q, let l := ((d.ras.at d.strapHalf).log ++ (d.ras.at (otherHalf d.strapHalf)).log).filter fun e => recordPart e == some p.toNat && decide (q.toNat ≤ e.seq.toNat)
        (l = [] → exec (.tenantLogRead i q) s = Obl.dev s (d.answerMsg 0x07 .stateConflict [])) ∧
        (l ≠ [] → ∃ e ∈ l, (∀ x ∈ l, e.seq.toNat ≤ x.seq.toNat) ∧ exec (.tenantLogRead i q) s = Obl.dev s (d.answerMsg 0x07 .ok (lineBytes (tenantView e))))) ∧
      (let run (msg : WaitMsg) (page sts base : Nat) (code : BitVec 8) (image : Nat) (f : Dev → Option Status × Dev) : Host.Outcome State Fault Refusal :=
          if d.busy sts = true then Obl.dev s (d.modSec fun s => { s with msgs := s.msgs ++ [msg] })
          else match f (((d.modSec fun s => { s with borrow := Tbl.put sts ⟨code, base, d.data base 8⟩ s.borrow }).setData base 8 image).cmdBegin sts) with
            | (some st, e) => Obl.dev s (e.cmdEnd page sts 1 st)
            | (none, e) => Obl.dev s e
        (∀ (c : Word32) (x : BitVec 256), let r := fieldOf c 24 16; let q : QueueId := BitVec.ofNat 16 (fieldOf c 31 16)
          let mine (f : Dev → Option Status × Dev) (e : Dev) := if ((e.faultRec? r).any fun x => x.part == p) = true then f e else (some Status.stateConflict, e)
          let own (k : Nat) (e : Dev) := if ((e.queue? q).any fun x => x.part == p) = true then e.onQueue k q p else (some Status.stateConflict, e)
          exec (.xltCommand i c x) s = run (.xlt p c x.toNat) Reg.xlt 0x8104 0x8110 0x03 x.toNat (fun e => match fieldOf c 3 0 with
            | 0 => (some .ok, e) | 1 => e.ctxRead p | 2 => e.ctxWrite p e.xltData | 3 => e.invPage p e.xltData | 4 => e.invRange p e.xltData | 5 => e.invPart p
            | 6 => mine (Dev.faultRead r) e | 7 => mine (Dev.faultResume r) e | 8 => mine (Dev.faultAbort r) e | _ => (some .malformed, e)) ∧
          exec (.opqCommand i c x) s = run (.opq p c x.toNat) Reg.opq 0x7104 0x7110 0x04 x.toNat (fun e => match fieldOf c 3 0 with
            | 1 => e.onQueue 1 q p | 2 => own 2 e | 4 => own 4 e | 6 => own 6 e | 7 => e.partSet p e.opqData | 8 => e.partRead p | _ => (some .malformed, e))) ∧
        (∀ w : Word32, exec (.quietSetMessage i w) s = run (.quiet p w) Reg.sec 0x6104 0x6120 0x06 w.toNat (Dev.quietSet p w.toNat)))) ∧
    (exec (.quietIssueSlot p) s = match d.part? p with
      | none => .next s
      | some r => if r.quiet.on = false ∨ d.gtc.count.toNat % (r.quiet.period.toNat * 10) ≠ 0 ∨ r.quiet.lastSlot = d.now + 1 then .next s
        else Obl.dev s (r.cores.foldl (fun d c => d.quietSlot p c.val) (d.modPart p fun x => { x with quiet := { x.quiet with lastSlot := d.now + 1 } }))) ∧
    (∀ n, let held := d.sec.held.find? fun h => h.id == n && h.part == p
      (∀ h, held = some h → exec (.quietRelease p n) s = if d.now < h.due then .next s else
        Obl.dev s ((d.modSec fun s => { s with held := s.held.filter fun x => x.id ≠ n }).emitPkt h.via h.vc h.pkt)) ∧
      (held = none → exec (.quietRelease p n) s = Obl.dev s (d.modXlt fun x => { x with accs := x.accs.map fun a => match a.state with
        | .quiet i due st data => if i = n ∧ a.part = p ∧ due ≤ d.now then { a with state := .ended st data } else a
        | _ => a })))

/-- With CTL.CMD_STS.BUSY 0: SWITCHOVER to a STANDBY complex that lags by less than 64 inputs, no ridge fault, releases the ACTIVE one with
cause 4 and waits; STANDBY_RESYNC of an OFFLINE complex forgets its entries, starts RESYNC and completes OK; else each is STATE_CONFLICT. An
input is numbered and seen by the ACTIVE complex, and else waits; a STANDBY one over 4,096 behind enters RESYNC with its cause. A message of
a complex in RESYNC or OFFLINE is dropped; with a CSN above its filter's by less than 2^31 it passes, else it is counted. A status message
is sent every 10 µs. One taken notes its time and the other's input; the third wrong one in a row is a ridge fault, and an ACTIVE half
without the line that hears an ACTIVE one stands by. A ridge fault of 10 ms lets a STANDBY strap half take over with cause 5. A half not
heard for 100 µs is logged once. A STANDBY complex that senses both latches clear claims in SERVICE, and at HANDOVER, the other half after 1
ms. A mismatch, an uncorrectable word or 1 ms without a kick makes the complex fail; 500 µs warn. RESYNC ends in STANDBY when the store
holds running firmware. Unpowered, or where its condition does not hold, an event changes nothing. (R525, R527, R529, R530, R531, R533,
R534, R535, R536, R538, R541, R560.) -/
def Obligations.ControlComplexEventsTakeEffect : Prop :=
  ∀ (s : State) (h : Half), let d := s.dev; let e := d.cmdBegin 0x4108; let o := e.otherComplex
    let done (st : Status) (e : Dev) : Host.Outcome State Fault Refusal := Obl.dev s (e.cmdEnd Reg.ctl 0x4108 1 st)
    let wake (d : Dev) : Host.Outcome State Fault Refusal := .next (({ s with dev := d } : State).answerWaiting)
    (d.busy 0x4108 = false →
      exec .ctlNop s = done .ok e ∧
      (exec .switchover s = if e.orders = false ∨ (e.cplx o).role ≠ .standby ∨ e.ctl.lastInput - (e.cplx o).seen ≥ 64 ∨ e.ctl.faultAt.isSome = true then done .stateConflict e
        else Obl.dev s ((e.modCtl fun c => { c with swCmd := true }).release (otherHalf o) 4)) ∧
      (exec .standbyResync s = if (e.cplx o).role ≠ .offline then done .stateConflict e
        else done .ok ((e.modCplx o fun c => { c with resyncs := [] }).enterResync o))) ∧
    (∀ i, (d.orders = false → exec (.controlInput i) s = Obl.dev s (d.modCtl fun c => { c with unnumbered := c.unnumbered ++ [i] })) ∧
      (d.orders = true → let a : Half := if d.ctl.cplx.east.role = .active then .east else .west; let n := d.ctl.lastInput + 1
        let d1 := (d.modCtl fun c => { c with lastInput := n, journal := n }).modCplx a fun c => { c with seen := n }
        exec (.controlInput i) s = Obl.dev s (if (d1.cplx (otherHalf a)).role = .standby ∧ n - (d1.cplx (otherHalf a)).seen > 4096 then
          (d1.enterResync (otherHalf a)).cause Reg.ctl 4 else d1))) ∧
    (∀ csn (eg : Fin 25), let x := (csn - Tbl.get 0 d.ctl.filters eg.val).toNat
      exec (.controlMessage h csn eg) s = if (d.cplx h).role = .resync ∨ (d.cplx h).role = .offline then .next s else Obl.dev s (if 1 ≤ x ∧ x < 2 ^ 31 then
        (d.modCtl fun c => { c with filters := Tbl.set 0 eg.val csn c.filters }).emit (.control eg.val csn) else d.bump Reg.ctl 0x050 1)) ∧
    (exec (.ridgeStatusSend h) s = if d.dawn.powered = false ∨ d.now < (d.cplx h).sentAt + 10000 then .next s
      else Obl.dev s (d.modCplx h fun c => { c with sentAt := d.now })) ∧
    (∀ m : RidgeMsg, let d1 := (d.modCplx h fun c => { c with heardAt := d.now, lost := false }).modCplx (otherHalf h) fun c =>
        if c.role = .standby then { c with seen := max c.seen (min m.input d.ctl.lastInput) } else c
      let own := match h with | .west => m.ownWest | .east => m.ownEast
      let wrong := own != (d1.cplx h).latch || m.west != m.ownWest || m.east != m.ownEast || (m.ownWest && m.ownEast)
      let d2 := d1.modCplx h fun c => { c with bad := if wrong then c.bad + 1 else 0 }
      exec (.ridgeStatus h m) s = if d.dawn.powered = false then .next s else Obl.dev s (
        if d2.ctl.faultAt.isSome = true then d2
        else if (d2.cplx h).bad ≥ 3 then d2.ridgeFault
        else if (d2.cplx h).role = .active ∧ (d2.cplx h).latch = false ∧ m.role = 0 then d2.modCplx h fun c => { c with role := .standby }
        else d2)) ∧
    (exec .ridgeFaultTakeover s = wake (match d.ctl.faultAt with
      | none => d
      | some t => if d.ctl.taken = true ∨ d.now < t + 10000000 ∨ (d.cplx d.strapHalf).role ≠ .standby ∨ d.dawn.step ≠ .service then d
        else ((d.modCtl fun c => { c with taken := true }).activate d.strapHalf false).switched 5)) ∧
    (exec (.peerLost h) s = if (d.cplx h).lost = true ∨ d.now < (d.cplx h).heardAt + 100000 ∨ d.dawn.step ≠ .service then .next s
      else Obl.dev s ((d.modCplx h fun c => { c with lost := true }).logFirmware h Reg.ctl)) ∧
    (let claimed := if d.mayClaim h = false then d else if d.dawn.step = .handover then (d.activate h true).enterService
        else (d.activate h true).switched (if (d.cplx h).lost then 6 else d.ctl.swCause);
      exec (.ridgeClaim h) s = wake claimed ∧ exec (.claimWaitExpiry h) s = wake (if h = d.strapHalf ∨ d.dawn.step ≠ .handover then d else claimed)) ∧
    (let fails (e : Dev) (cause : Nat) : Dev := match (e.cplx h).role with | .active => e.release h cause | .standby => e.enterResync h | _ => e;
      (d.dawn.powered = false → ∀ c ∈ [Instr.lockstepMismatch h, .controlMemoryError h, .watchdogWarning h, .controlWatchdogExpiry h, .resyncDone h], exec c s = .next s) ∧
      (d.dawn.powered = true →
        exec (.lockstepMismatch h) s = Obl.dev s (fails d 1) ∧
        exec (.controlMemoryError h) s = Obl.dev s (fails ((d.irqEvent (Dev.namedSource 2)).log h { type := 0x06, sev := 2, block := blockOf Reg.ctl }) 2) ∧
        (exec (.watchdogWarning h) s = if d.now < (d.cplx h).kickAt + 500000 then .next s else Obl.dev s (d.irqEvent (Dev.namedSource 0))) ∧
        (exec (.controlWatchdogExpiry h) s = if d.now < (d.cplx h).kickAt + 1000000 then .next s else Obl.dev s (fails d 3)) ∧
        (exec (.resyncDone h) s = if (d.cplx h).role = .resync ∧ d.fw.store = .running then Obl.dev s (d.modCplx h fun c =>
          { c with role := .standby, seen := d.ctl.lastInput, kickAt := d.now, heardAt := d.now, lost := false, bad := 0 }) else .next s)))

/-- An arrival sets the source pending in the half's controller, counts it and offers it to its core. An end that names the source on top of the
core's stack pops it and offers again; any other, or one on an empty stack, is counted, logged and raises IRQ_ORDER. An arrival on a vector
that is unmasked while messages may leave sends it; else it is pending and counted. Unmasking a pending vector sends it while messages may
leave; any other write of VEC_CTL sends nothing. A write of DELIVER from 0 to 1 offers every core what is pending, the vectors in ascending
order; any other only sets the bit. A heartbeat of a live core is noted; while orders are given, 10 ms without one, or since its cluster
came on, are counted and reset the core. A fetch trap of a live core is counted, logged, fails what runs on it UNCORRECTABLE and resets it.
A reload ends. A side-band watchdog restarts its half's island after 2 s, the strap half's losing its address and sessions, and is logged. A
companion read of 50 µs is counted and answered TIMEOUT. Anything else changes nothing. Register writes take effect on the paths that hold
the page. (R252, R546, R547, R548, R549, R550, R551, R552, R556, R557, R558, R643.) -/
def Obligations.InterruptsAndCoresTakeEffect : Prop :=
  ∀ (s : State) (h : Half), let d := s.dev
    (∀ src : Fin 1024, exec (.interruptArrival h src) s = Obl.dev s
      ((d.setIrqSource h src.val ⟨true, satAdd (d.irqSource h src.val).cnt 1⟩).irqOffer h (Dev.irqCore src.val))) ∧
    (∀ (c : Fin 4) (src : Fin 1024), let x := d.irqStack h c.val
      exec (.endOfInterrupt h c src) s = Obl.dev s (if Dev.irqTop x = some src.val then
        (d.setIrqStack h c.val (if x.ninth.isSome then { x with ninth := none } else { x with entries := x.entries.tail })).irqOffer h c.val
        else (((d.bump Reg.irq 0x060 1).cause Reg.irq 1).log h { type := 0x16, sev := 1, block := blockOf Reg.irq, detail := [(40, 1, c.val), (41, 2, src.val), (43, 2, match Dev.irqTop x with | some t => t | none => Config.irqNoTop.toNat)] }).irqArrive h (Dev.orderSource c.val))) ∧
    (∀ v : VecNo, let x := d.vec v.toNat
      (x.mask = false → d.msiMayLeave = true → exec (.vectorArrival v) s = Obl.dev s
        (((d.sendMsi x.addr x.data).bump Reg.irq 0x050 1).setVec v.toNat { x with pend := false, cnt := 0 })) ∧
      (x.mask = true ∨ d.msiMayLeave = false → exec (.vectorArrival v) s = Obl.dev s
        ((d.bump Reg.irq 0x058 1).setVec v.toNat { x with pend := true, cnt := satAdd x.cnt 1 }))) ∧
    (∀ (path : Path) (v : Word32),
      exec (.vectorUnmask path v) s = Obl.dev s (d.accept path Reg.irq 0x114 fun d =>
        let n := d.fld 0x5104 10 0; let e := d.setVec n { d.vec n with mask := v.getLsbD 0 }
        if ((d.vec n).pend && !v.getLsbD 0 && e.msiMayLeave) = true then e.sendVec n else e) ∧
      exec (.deliverWrite path v) s = Obl.dev s (d.accept path Reg.irq 0x100 fun d =>
        let e := d.setReg 0x5100 (v &&& 1); let f := foldN 4 (fun c d => (d.irqOffer .west c).irqOffer .east c) e
        if d.fld 0x5100 0 0 = 1 ∨ v.getLsbD 0 = false then e
        else f.irq.vectors.foldl (fun d x => if x.2.pend && !x.2.mask && d.msiMayLeave then d.sendVec x.1 else d) f)) ∧
    (∀ c : Fin 576, (d.coreLive c.val = false → ∀ i ∈ [Instr.heartbeat c, .heartbeatTimeout c, .fetchTrap c], exec i s = .next s) ∧
      (d.coreLive c.val = true →
        exec (.heartbeat c) s = Obl.dev s (d.setCore c.val { d.core c.val with beatAt := d.now }) ∧
        (exec (.heartbeatTimeout c) s = if d.orders = false ∨ d.now < max (d.core c.val).beatAt (d.dom (c.val / 16)).at_ + 10000000 then .next s
          else Obl.dev s (((d.bump Reg.ctl 0x058 1).bump (Reg.nmc (c.val / 16)) 0x058 1).resetCore c.val)) ∧
        (let e := ((d.bump (Reg.nmc (c.val / 16)) 0x050 1).cause (Reg.nmc (c.val / 16)) 1).log (halfOfCore c.val) { type := 0x07, sev := 2, block := blockOf (Reg.nmc (c.val / 16)) }
         exec (.fetchTrap c) s = Obl.dev s ((match e.logicalOf c.val with
          | none => e
          | some k => e.opq.ops.foldl (fun (d : Dev) (o : Op) => match o.units.find? fun (x : Nat × UnitSt) => x.2.core == k && x.2.phase != UnitPhase.writing with
            | some x => d.failUnit o.id x.2.member x.1 .uncorrectable
            | none => d) e).resetCore c.val))) ∧
      exec (.coreReloadDone c) s = if (d.core c.val).loading = true then Obl.dev s (d.setCore c.val { d.core c.val with loading := false, beatAt := d.now }) else .next s) ∧
    (let e := { d with side := { d.side with kickAt := d.side.kickAt.set h d.now, restart := d.side.restart.set h (some d.now) } }
     exec (.sidebandWatchdogExpiry h) s = if d.now < d.side.kickAt.at h + 2000000000 ∨ d.dawn.islandsRun = false then .next s
      else Obl.dev s ((if h = d.strapHalf then ({ e with side := { e.side with i3c := false, dynAddr := 0 } }).endSessions fun (x : Session) => x.via == SpdmVia.sideband else e).logFirmware h Reg.sbm)) ∧
    (exec .regReadTimeout s = match d.cmp.reads with
      | [] => .next s
      | r :: l => if d.now < r.time + 50000 then .next s else Obl.dev s
        ((({ d with cmp := { d.cmp with reads := l } }.bump Reg.ctl 0x070 1).bump Reg.cmp 0x050 1).emit (.reg .companion .timeout 0xFFFFFFFF)))

/-- PERST_N low, the loss of the auxiliary rail and the loss of the main input cold-reset everything but the supplies, the inputs, the straps
and the fuses and store (the time, the draws and the outputs are the model's own, log 4). PERST_N high, the auxiliary rail, the main input,
a converter fault and a stable reference are noted; straps are taken where the rail becomes good or PERST_N rises; a crystal that works when
the rail becomes good, or later, stays working until the rail is lost; the reference starts the count. A write of 0x5741524D to GLB.RESET on
a path that holds the page schedules a warm reset, any other value is an illegal write. A scheduled warm reset, and the activation count of
a PENDING image, warm-reset: what R569 lists stays, with what other rules count from a cold reset (log 68) and a PLDM update under way, and
a warm Dawn sequence starts. The Dawn sequence starts in ROM with PERST_N high, the rail with a working crystal, the main input and the
reference good, no trip and none running. A reading of 115 °C, optical 95 °C, on powered halves turns them off, and is kept and logged.
Anything else changes nothing. (R18, R370, R564, R565, R566, R569, R590, R625, R672, R687, R689, R691.) -/
def Obligations.SuppliesAndResetsTakeEffect : Prop :=
  ∀ (s : State) (x : Straps), let d := s.dev
    let cold (w : Dawn) : Dev := { Dev.reset with now := d.now, draws := d.draws, out := d.out, straps := d.straps, gtc := ⟨0, w.refGood, 0⟩, dawn := { Dawn.reset with auxGood := w.auxGood, crystal := w.crystal, mainGood := w.mainGood, mainSeen := w.mainSeen, refGood := w.refGood, convBad := w.convBad, perstHigh := w.perstHigh } }
    let d1 := foldN 24 (fun p d => if (d.port p).state = .off then d else d.discardSeq p) d
    let ras (x : RasHalf) : RasHalf := { RasHalf.reset with log := x.log, nextSeq := x.nextSeq }
    let warm : Dev := { Dev.reset with
      now := d1.now, draws := d1.draws, out := d1.out, straps := d1.straps, gtc := d1.gtc, side := d1.side
      regs := { words := Dev.warmRegs d1.regs.words, ctrs := d1.regs.ctrs, latch := [], held := [] }
      ras := ⟨ras d1.ras.west, ras d1.ras.east⟩
      coh := { Coh.reset with hosts := Dev.deadHosts d1.coh.hosts }
      tier := { Tier.reset with rows := d1.tier.rows, pinRows := d1.tier.rows - d1.tier.rows / 2048 }
      ddr := d1.ddr.map fun (x : Nat × DdrChan) => (x.1, Dev.warmChan d1.now x.2)
      sec := { Sec.reset with
        log := d1.sec.log, nextSeq := d1.sec.nextSeq, dbgLive := d1.sec.dbgLive, dbgUsed := d1.sec.dbgUsed, reports := d1.sec.reports, tg := d1.sec.tg }
      pwr := { Pwr.reset with
        pseq := d1.pwr.pseq, offsets := d1.pwr.offsets, offsetsOk := d1.pwr.offsetsOk, points := d1.pwr.points
        doms := d1.pwr.doms.map fun (x : Nat × Domain) => (x.1, { domReset x.1 with comp := x.2.comp, fabmgr := x.2.fabmgr, at_ := d1.now }) }
      ctl := { Ctl.reset with faultAt := d1.ctl.faultAt, taken := d1.ctl.taken }
      fw := Dev.islandFw d1.fw, dawn := { d1.dawn with lastMs := 0 } }
    exec .perstNAssert s = Obl.dev s (cold { d.dawn with perstHigh := false }) ∧
    exec .auxRailLoss s = Obl.dev s (cold { d.dawn with auxGood := false, crystal := false, refGood := false }) ∧
    exec .mainInputLoss s = Obl.dev s (cold { d.dawn with mainGood := false }) ∧
    exec (.perstNRelease x) s = Obl.dev s { d with straps := if d.dawn.auxGood = true ∧ d.dawn.perstHigh = false then x else d.straps, dawn := { d.dawn with perstHigh := true } } ∧
    (∀ c : Bool, exec (.auxRailGood x c) s = Obl.dev s { d with straps := if d.dawn.auxGood = true then d.straps else x, dawn := { d.dawn with auxGood := true, crystal := c || (d.dawn.auxGood && d.dawn.crystal) } }) ∧
    exec .mainInputGood s = Obl.dev s { d with dawn := { d.dawn with mainGood := true, mainSeen := true, convBad := false } } ∧
    exec .converterFault s = Obl.dev s { d with dawn := { d.dawn with convBad := true } } ∧
    exec .referenceStable s = Obl.dev s { d with gtc := { d.gtc with running := true }, dawn := { d.dawn with refGood := true } } ∧
    (∀ (path : Path) (v : Word32), exec (.deviceResetCommand path v) s = Obl.dev s (d.accept path Reg.glb 0x11C fun d =>
      if v = 0x5741524D then { d with dawn := { d.dawn with resetAt := some d.now } } else d.illegal Reg.glb)) ∧
    exec .warmReset s = (if d.dawn.resetAt.isSome = true then Obl.dev s (warm.dawnStart true) else .next s) ∧
    exec .activationCountReached s = (if d.fw.store = .pending ∧ d.fw.act ≠ 0 ∧ d.fw.act.toNat ≤ d.gtc.count.toNat then Obl.dev s (warm.dawnStart true) else .next s) ∧
    exec .dawnSequenceStart s = (if d.dawn.perstHigh = true ∧ (d.dawn.auxGood = true ∧ d.dawn.crystal = true) ∧ d.dawn.mainGood = true ∧ d.dawn.refGood = true ∧ d.dawn.tripped = false ∧
      d.dawn.running = false ∧ d.dawn.step = .rom then Obl.dev s (d.dawnStart false) else .next s) ∧
    (∀ (n : Fin 44) r, exec (.thermalTrip n r) s = if d.dawn.powered = false ∨ 25 * r < (if n.val < 40 then 11500 else 9500) then .next s
      else Obl.dev s (({ d.halvesOff with dawn := { d.halvesOff.dawn with tripped := true } }).logPower (Dev.sensorHalf n.val) 3))

/-- A step's event outside its step changes nothing. At it: ROM keeps the ROM measurement, derives the identity key, checks the chain (a wrong
one is logged) and goes to VERIFY. VERIFY with a good image keeps its measurements and goes to POWER, or to ARRAYS where the halves are
powered; without one STORE is INVALID unless an update receives one, and it logs and enters hold, as POWER does unless both control
measurements equal the image's; then it powers the halves and goes to ARRAYS, which loads the calibration, disables the ways of faults and
goes to SELFTEST. A wave finds the cores of its clusters that no fuse marks bad and that pass; a failed one is kept and logged; the ninth
goes to DDR where a channel is untrained, else to FILL. DDR trains every channel that is not FAILED, with the stored results if they belong
to all DIMMs, takes N from the smallest, logs a mismatch and goes to FILL. FILL with every channel trained fills memory and goes to
HANDOVER, else it stops. Three failed rounds fence a core, logged. HANDOVER maps the cores and the strap half claims, or after a ridge fault
becomes ACTIVE; after 1 s without an ACTIVE complex the sequence stops. With CAL_CMD's BUSY 0, STATE_CONFLICT before SERVICE; then OPT_RECAL
of an engine with an enabled port is STATE_CONFLICT, else it waits for OPT_RECAL_DONE, which ends it OK; OPT_SAVE saves and ends OK. (R203,
R227, R485, R489, R572, R573, R576, R577, R579, R583, R584, R596.) -/
def Obligations.DawnStepsTakeEffect : Prop :=
  ∀ (s : State), let d := s.dev
    let failed (d : Dev) : Dev :=
      let e := { d with fw := { d.fw with store := if d.fw.store = StoreState.receiving then StoreState.receiving else StoreState.invalid } }
      (e.secLog 9 1 { type := 0, sev := 1, block := 0 }).enterHold
    (d.atStep .rom = false → ∀ a b, exec (.romStep a b) s = .next s) ∧ (d.atStep .verify = false → exec .imageVerify s = .next s) ∧
    (d.atStep .power = false → ∀ a b, exec (.powerStep a b) s = .next s) ∧ (d.atStep .arrays = false → ∀ a, exec (.arraysStep a) s = .next s) ∧
    (d.atStep .selftest = false → ∀ a, exec (.selftestWave a) s = .next s) ∧ (d.atStep .ddr = false → ∀ a, exec (.ddrTraining a) s = .next s) ∧
    (d.atStep .fill = false → ∀ a, exec .fillStep s = .next s ∧ exec (.repairRoundEnd a) s = .next s) ∧
    (d.atStep .handover = false → exec .handover s = .next s ∧ exec .handoverTimeout s = .next s) ∧
    (∀ rom chain, d.atStep .rom = true → let e := d.modSec fun x => { x with measure := Tbl.put 1 rom x.measure, chainOk := chain == Config.chainDigest, idScalar := identityScalar Config.uds, idPublic := publicKey (identityScalar Config.uds) }
      exec (.romStep rom chain) s = Obl.dev s ((if (chain == Config.chainDigest) = true then e else e.secLog 10 1 { type := 0, sev := 1, block := 0 }).toStep .verify)) ∧
    (d.atStep .verify = true → exec .imageVerify s = Obl.dev s (match s.imageInfo with
      | none => failed d
      | some m =>
        let e := { d with fw := { Dev.islandFw d.fw with storeSvn := m.svn, runSvn := m.svn } }.modSec fun x => { x with measure := Tbl.put 3 m.coreCode (Tbl.put 2 m.controlCode x.measure) }
        if e.dawn.powered then e.trainLink.toStep .arrays else e.toStep .power)) ∧
    (∀ w e, d.atStep .power = true → exec (.powerStep w e) s = Obl.dev s (if w = Tbl.get 0 d.sec.measure 2 ∧ e = Tbl.get 0 d.sec.measure 2 then
      (d.modDawn fun w => { w with powered := true }).trainLink.toStep .arrays else failed d)) ∧
    (∀ f, d.atStep .arrays = true → exec (.arraysStep f) s = .next { s.loadCalibration with dev :=
      (f.foldl (fun d f => if f.repairable then d else d.disableWay f.half f.array f.set f.way) s.loadCalibration.dev).toStep .selftest }) ∧
    (∀ l : List CoreFailure, d.atStep .selftest = true → let k := d.dawn.waves
      let e := ((List.finRange 576).foldl (fun d c => if c.val / 64 ≠ k ∨ Config.fuseBadCore c = true then d else match l.find? fun f => f.core == c with
        | some f => (d.modDawn fun w => { w with testBad := w.testBad ++ [c.val] }).log (halfOfCore c.val) { type := 0x14, sev := 1, block := blockOf (Reg.nmc (c.val / 16)), detail := [(40, 2, c.val), (42, 1, c.val / 16), (43, 1, k), (44, 1, f.part.val + 1)] }
        | none => d.setCore c.val { coreReset with found := true }) d).modDawn fun w => { w with waves := k + 1 }
      exec (.selftestWave l) s = Obl.dev s (if k + 1 < 9 then e else if e.untrained = true then e.toStep .ddr else e.logMismatch.toStep .fill)) ∧
    (∀ l : List TrainResult, d.atStep .ddr = true → let res (c : Nat) : Option TrainResult := l.find? fun r => r.ch.val == c
      let all := (List.range 24).all fun c => match Tbl.find s.nv.training c, res c with | some t, some r => t.1 == r.dimm.serial | _, _ => false
      let e := foldN 24 (fun c d => if d.chanFailed c then d.trainFail c 7 else d.trainChan c (if all then (Tbl.find s.nv.training c).map (·.2) else none) (res c)) d
      let rows := (List.range 24).filterMap fun c => (e.chan c).dimm.map dimmRows; let n := rows.foldl min (rows.headD 0)
      exec (.ddrTraining l) s = Obl.dev s (({ e with tier := { e.tier with rows := n, pinRows := n - n / 2048 } } : Dev).logMismatch.toStep .fill)) ∧
    (d.atStep .fill = true →
      (exec .fillStep s = Obl.dev s (if d.dawn.failedCh = true ∨ ((List.range 24).any fun c => d.fld (Dev.ddrA c + 0x100) 1 0 != 1) = true then d.stop else d.fillMemory.toStep .handover)) ∧
      (∀ l, exec (.repairRoundEnd l) s = Obl.dev s (l.foldl (fun d c => if (d.core c).found = false ∨ (d.core c).fenced = true then d else
        let n := Tbl.get 0 d.dawn.rounds c + 1; let e := d.modDawn fun w => { w with rounds := Tbl.put c n w.rounds }
        if n < 3 then e else (e.setCore c { e.core c with fenced := true }).log (halfOfCore c) { type := 0x19, sev := 2, block := blockOf (Reg.nmc (c / 16)) }) d))) ∧
    (d.atStep .handover = true → let e := { d with lmap := d.coreMap }.setFld 0x104 9 0 d.coreMap.length
      let e2 := d.coreMap.foldl (fun d x => d.setCore x.2 { d.core x.2 with beatAt := d.now }) (e.modDawn fun w => { w with mapped := true })
      exec .handover s = Obl.dev s (if e2.ctl.faultAt.isSome = true then
        if (e2.cplx e2.strapHalf).role = .standby then ((e2.modCtl fun c => { c with taken := true }).activate e2.strapHalf false).enterService else e2
        else e2.claim e2.strapHalf) ∧
      exec .handoverTimeout s = if d.now < d.dawn.stepAt + 1000000000 ∨ d.orders = true then .next s else Obl.dev s (d.stop.logFirmware d.strapHalf Reg.glb)) ∧
    (d.busy 0x18C = false → let c := d.cmdBegin 0x18C; let done (st : Status) : Dev := c.cmdEnd Reg.glb 0x18C 2 st
      (d.dawn.step ≠ .service → ∀ e, ∀ i ∈ [Instr.calNop, .optRecal e, .optSave], exec i s = Obl.dev s (done .stateConflict)) ∧
      (d.dawn.step = .service → exec .calNop s = Obl.dev s (done .ok) ∧
        (∀ e : Fin 4, exec (.optRecal e) s = Obl.dev s (if ((List.range 6).any fun i => c.fld (Dev.fabA (6 * e.val + i) + 0x100) 0 0 == 1) = true then done .stateConflict
          else { c with cal := { c.cal with recal := some (e.val, c.now) } })) ∧
        exec .optSave s = .next { s with nv := { s.nv with optical := .saved () }, dev := done .ok })) ∧
    (exec .optRecalDone s = if d.cal.recal.isSome = true then Obl.dev s ({ d with cal := { d.cal with recal := none } }.cmdEnd Reg.glb 0x18C 2 .ok) else .next s)

/-- On an ACTIVE companion link a bad flit is counted and replayed, one in sequence is taken with its acknowledgement and its packet; a loss of
lock, or 8 replays, starts a retrain. A link in TRAIN or RETRAIN becomes ACTIVE, what it held leaves, or goes DOWN and discards it; a DOWN
link trains again after 100 ms. With CMP.CMD_STS.BUSY 0: IMG_BEGIN, where no other path holds the store, erases the image region and waits,
else STATE_CONFLICT; IMG_ERASE_DONE ends it OK; IMG_WRITE over block 3839 is MALFORMED, without the store STATE_CONFLICT, else it writes the
buffer; IMG_END checks the image: PENDING and OK, or INVALID and MALFORMED; in Dawn hold the sequence starts again. IMG_DISTRIBUTE before
SERVICE, of a tiered or inactive extent, or of a tree not rooted here is STATE_CONFLICT; it fetches Modified copies, waits for them, and
then is MALFORMED for a bad image, or sends every fragment once and ends OK. A fragment that is not valid, of this root, before SERVICE or
while another path holds the store is dropped; a new TAG erases the region and starts a reception; one of it is written and noted, the last
starts the repair, all together the check. After 10 ms the missing fragments are fetched; a fetched one is written; a fetch that fails is
made once more, and a second failure makes STORE INVALID, logged. Anything else changes nothing. (R29, R587, R588, R589, R590, R633, R634,
R636, R640, R647, R653, R655.) -/
def Obligations.CompanionLinkAndStoreTakeEffect : Prop :=
  ∀ (s : State), let d := s.dev; let c := d.cmdBegin 0xD10C; let x := c.cmpData; let ls := d.fld 0xD100 2 0
    let done (st : Status) : Host.Outcome State Fault Refusal := Obl.dev s (c.cmdEnd Reg.cmp 0xD10C 1 st)
    let put (s : State) (at_ : Nat) (b : List Byte) (e : Dev) : State := { s with nv := { s.nv with image := s.nv.image.put at_ b }, dev := e }
    (∀ f : Flit, exec (.companionFlit f) s = if ls ≠ 2 then .next s else Obl.dev s (
      if f.bad = true then (d.modCmp fun c => { c with replays := c.replays + 1 }).bump Reg.cmp 0x040 1
      else if f.seq = d.cmp.rxSeq then
        let e := d.modCmp fun c => { c with rxSeq := c.rxSeq + 1, ackSeq := f.ack, replays := 0 }
        match f.coh with | none => e | some (vc, p) => e.cohPacket vc.toNat p
      else d)) ∧
    (∀ l, exec (.companionRetrain l) s = if ls = 2 ∧ (l = true ∨ d.cmp.replays ≥ 8) then Obl.dev s
      (((d.modCmp fun c => { c with retrainAt := d.now, activeAt := d.now, replays := 0 }).setFld 0xD100 2 0 3).bump Reg.cmp 0x048 1) else .next s) ∧
    (exec .companionLinkDown s = if ls = 1 ∨ ls = 3 then Obl.dev s ((d.linkOff 4).modCmp fun c => { c with trainAt := d.now }) else .next s) ∧
    (let e := (d.modCmp fun c => { c with heldOut := [], everActive := true, replays := 0, activeAt := d.now, rxSeq := if ls = 1 then 0 else c.rxSeq, ackSeq := if ls = 1 then 0 else c.ackSeq }).setFld 0xD100 2 0 2
     exec .companionLinkActive s = if ls = 1 ∨ ls = 3 then Obl.dev s (d.cmp.heldOut.foldl (fun d x => d.emit (.companion x.1 x.2)) e).releaseHeld.sendPending else .next s) ∧
    (exec .companionTrainRetry s = if ls = 4 ∧ d.cmp.trainAt + 100000000 ≤ d.now ∧ (d.dom 76).state = .on then
      Obl.dev s ((d.modCmp fun c => { c with trainAt := d.now }).setFld 0xD100 2 0 1) else .next s) ∧
    (d.busy 0xD10C = false →
      exec .cmpNop s = done .ok ∧
      (exec .imgBegin s = if d.fw.holder = some .pldm ∨ d.fw.holder = some .fabric then done .stateConflict else
        .next { s with nv := { s.nv with image := ⟨true, []⟩ }, dev := c.modFw fun f => { f with store := .receiving, holder := some .companion, erasing := true } }) ∧
      (exec .imgWrite s = if (d.reg 0xD120).toNat > 3839 then done .malformed else if d.fw.holder ≠ some .companion then done .stateConflict else
        .next (put s ((d.reg 0xD120).toNat * 4096) d.imgBuf (c.cmdEnd Reg.cmp 0xD10C 1 .ok))) ∧
      (let act : Word64 := BitVec.ofNat 64 (bits d.cmpData 127 64);
       let t : Dev := match s.imageInfo with
        | none => d.modFw fun f => { f with store := .invalid, act := 0, holder := none, rx := none, erasing := false }
        | some m =>
          let late := act ≠ 0 ∧ act.toNat < d.gtc.count.toNat
          let e := d.modFw fun f => { f with store := .pending, storeSvn := m.svn, act := if late then 0 else act, holder := none, rx := none, erasing := false }
          if late then e.logFirmware d.strapHalf Reg.glb else e
       exec .imgEnd s = if d.fw.holder ≠ some .companion then done .stateConflict else
        Obl.dev s (t.cmpCmd fun d => (some (if t.fw.store = .invalid then .malformed else .ok), d)).afterImage) ∧
      (let i := bits x 14 0; let e := c.ext i; let n := bits x 41 32; let f := c.fetchStaged i e
       exec .imgDistribute s = if c.dawn.step ≠ .service ∨ e.state ≠ .active ∨ e.tiered = true ∨ (c.tree n).valid = false ∨ (c.tree n).root ≠ c.nodeId then done .stateConflict
        else if f.stagedReady e = false then Obl.dev s (f.modFw fun w => { w with spread := some x })
        else
          let g := foldN (Dev.stagedLines e) (fun j d => d.didRead false e (Dev.stagedOff e j)) f
          match (f.staged e).bind fun l => (Config.manifest true (l.zipIdx.map fun b => (b.2, b.1))).map fun m => (l, m) with
          | none => Obl.dev s (g.cmdEnd Reg.cmp 0xD10C 1 .malformed)
          | some (l, m) => if imageOk s.nv.fuses m = false then Obl.dev s (g.cmdEnd Reg.cmp 0xD10C 1 .malformed) else let k := ceilDiv l.length 4064
            Obl.dev s ((foldN k (fun i d => d.originate n (mkPkt d (BitVec.ofNat 16 n) 0x32 0 0
              (Dev.fragPayload (bits x 63 48) i k (BitVec.ofNat 64 (g.fabAddr e.first)) (BitVec.ofNat 64 (bits x 127 64)) (sub l (i * 4064) 4064)) 1)) g).cmdEnd Reg.cmp 0xD10C 1 .ok))) ∧
    (exec .imgEraseDone s = if d.fw.erasing = true ∧ d.fw.holder = some .companion then Obl.dev s ((d.modFw fun f => { f with erasing := false }).cmdEnd Reg.cmp 0xD10C 1 .ok) else .next s) ∧
    (∀ f : Fragment, exec (.fwFrag f) s =
      if fragmentOk f = false ∨ (d.fw.holder = some .companion ∨ d.fw.holder = some .pldm) ∨ f.root = d.nodeId ∨ d.dawn.step ≠ .service then .next s
      else
        let s1 : State := if d.fw.store = .running ∨ f.tag ≠ d.fw.tag then { s with nv := { s.nv with image := ⟨true, []⟩ }, dev := d.modFw fun w =>
            { w with store := .receiving, holder := some .fabric, tag := f.tag, verified := false, rx := some { tag := f.tag, count := f.count.toNat, src := f.srcAddr, act := f.actCount, have_ := [], lastAt := d.now, repair := false, failed := [] } } } else s
        match s1.dev.fw.rx with
        | none => .next s1
        | some r =>
          if r.count ≠ f.count.toNat then .next s1
          else
            let s2 := put s1 (f.index.toNat * 4064) f.data (s1.dev.modFw fun w => { w with rx := some { r with have_ := NSet.insert f.index.toNat r.have_, lastAt := s1.dev.now } })
            .next (if f.index.toNat + 1 = r.count then { s2 with dev := s2.dev.startRepair } else s2).receptionStep) ∧
    (d.fw.rx = none → exec .fragmentTimeout s = .next s ∧ ∀ i b, exec (.fragmentFetch i b) s = .next s) ∧
    (∀ r, d.fw.rx = some r →
      (exec .fragmentTimeout s = if r.lastAt + 10000000 ≤ d.now ∧ r.repair = false then Obl.dev s
        ((Dev.missing r).foldl (fun d i => d.fetchFragment r i) (d.modFw fun f => { f with rx := some { r with repair := true } })) else .next s) ∧
      (∀ i b, exec (.fragmentFetch i b) s =
        if r.repair = false ∨ r.count ≤ i ∨ r.have_.contains i = true then .next s
        else match b with
          | some b => .next (put s (i * 4064) (b.take 4064) (d.modFw fun w => { w with rx := some { r with have_ := NSet.insert i r.have_ } })).receptionStep
          | none => if r.failed.contains i = true then Obl.dev s ((d.modFw fun w => { w with store := .invalid, holder := none, rx := none }).logFirmware d.strapHalf Reg.glb)
            else Obl.dev s ((d.modFw fun w => { w with rx := some { r with failed := i :: r.failed } }).fetchFragment r i)))

/-- While the side-band port does not answer, a command changes nothing. While it does: ENTDAA and SETDASA give a first address other than 0 and
make the port an I3C target, and else change nothing; RSTDAA takes both away. As an I3C target, ENEC and DISEC set and clear target events,
SETMRL and SETMWL set the lengths, and GETPID, GETBCR, GETDCR, GETSTATUS, GETMRL and GETMWL answer, most significant byte first (the values
of the standards and of GETSTATUS are free, log 15); as no I3C target it takes none of them. An endpoint ID and a TID from 1 to 254 are set
and read back, 0 and 255 are answered as invalid; the UUID, the MCTP version, the message types 0, 1, 5 and 6, the PLDM version, the PLDM
types 0, 2, 5 and 63 and the commands of a supported type are answered, and an unsupported type with 0x83. Nothing else changes. (R641,
R642, R643, R644, R645, R649, log 15.) -/
def Obligations.SidebandBusAndBaseTakeEffect : Prop :=
  ∀ (s : State), let d := s.dev
    let ans (c : BitVec 8) (b : List Byte) : Host.Outcome State Fault Refusal := Obl.dev s (d.emit (.answer c b))
    let side (f : Side → Side) : Host.Outcome State Fault Refusal := Obl.dev s { d with side := f d.side }
    (d.portUp = false → ∀ a e n t u, ∀ i ∈ [Instr.entdaa a, .setdasa a, .rstdaa, .enec e, .disec e, .setmrl n, .setmwl n, .getpid, .getbcr, .getdcr, .getmrl, .getmwl, .getstatus,
      .setEndpointId e, .setTid u, .getEndpointId, .getEndpointUuid, .getMctpVersionSupport, .getMessageTypeSupport, .getTid, .getPldmVersion, .getPldmTypes, .getPldmCommands t],
      exec i s = .next s) ∧
    (d.portUp = true →
      (∀ a : BitVec 7, ∀ i ∈ [Instr.entdaa a, .setdasa a], exec i s = if d.side.dynAddr = 0 ∧ a ≠ 0 then side (fun x => { x with dynAddr := a, i3c := true }) else .next s) ∧
      exec .rstdaa s = side (fun x => { x with dynAddr := 0, i3c := false }) ∧
      (d.side.i3c = false → ∀ e n, ∀ i ∈ [Instr.enec e, .disec e, .setmrl n, .setmwl n, .getpid, .getbcr, .getdcr, .getmrl, .getmwl, .getstatus], exec i s = .next s) ∧
      (d.side.i3c = true →
        (∀ e : BitVec 8, exec (.enec e) s = side (fun x => { x with events := x.events ||| e }) ∧ exec (.disec e) s = side (fun x => { x with events := x.events &&& ~~~e })) ∧
        (∀ n : BitVec 16, exec (.setmrl n) s = side (fun x => { x with mrl := n }) ∧ exec (.setmwl n) s = side (fun x => { x with mwl := n })) ∧
        exec .getpid s = ans 0x8D (leBytes 6 Dev.provisionedId).reverse ∧ exec .getbcr s = ans 0x8E (leBytes 1 Config.i3cBcr.toNat).reverse ∧
        exec .getdcr s = ans 0x8F (leBytes 1 Config.i3cDcr.toNat).reverse ∧ exec .getmrl s = ans 0x8C (leBytes 2 d.side.mrl.toNat).reverse ∧
        exec .getmwl s = ans 0x8B (leBytes 2 d.side.mwl.toNat).reverse ∧
        exec .getstatus s = Obl.dev s (d.draw.2.emit (.answer 0x90 (leBytes 2 (Config.i3cStatus d.draw.1).toNat).reverse))) ∧
      (∀ e : BitVec 8,
        exec (.setEndpointId e) s = (if e = 0 ∨ e = 255 then ans 0x01 [2] else Obl.dev s ({ d with side := { d.side with eid := e } }.emit (.answer 0x01 [0, 0, e, 0]))) ∧
        exec (.setTid e) s = (if e = 0 ∨ e = 255 then ans 0x01 [0, 2] else Obl.dev s ({ d with side := { d.side with tid := e } }.emit (.answer 0x01 [0, 0])))) ∧
      exec .getEndpointId s = ans 0x02 [0, d.side.eid, 0, 0] ∧
      exec .getEndpointUuid s = ans 0x03 (([0] : List Byte) ++ leBytes 16 Config.mctpUuid.toNat) ∧
      exec .getMctpVersionSupport s = ans 0x04 (([0] : List Byte) ++ Config.mctpVersions) ∧
      exec .getMessageTypeSupport s = ans 0x05 [0, 4, 0, 1, 5, 6] ∧
      exec .getTid s = ans 0x02 [0, 0, d.side.tid] ∧ exec .getPldmVersion s = ans 0x03 (0 :: 0 :: Config.pldmVersion) ∧
      exec .getPldmTypes s = ans 0x04 (0 :: 0 :: leBytes 8 (1 + 2 ^ 2 + 2 ^ 5 + 2 ^ 63)) ∧
      (∀ t : BitVec 6, exec (.getPldmCommands t) s = match Dev.pldmCommands t.toNat with
        | some l => ans 0x05 (0 :: 0 :: leBytes 32 (l.foldl (fun a c => a + 2 ^ c) 0))
        | none => ans 0x05 [0, 0x83]))

/-- While the side-band port does not answer, a command changes nothing. While it does: the repository has 74 records, and GET_PDR answers a
record from 0 to 74 (its bytes are free, log 15) and 0x82 above. A temperature sensor answers its reading in 0.25 °C, or 2 where the halves
are unpowered, in hold, or its domain off; the power sensors the measurement and the mean, the input voltage a free value; an unknown sensor
0x80. State sensors answer the Dawn step, the store and the alerts. Unpowered or in hold an effecter answers 4; else the one of an optical
port sets the FABMGR vote, or clears it and starts the entry, 2 for any other state, and reads it; another 0x80. MCTP_MESSAGE on the side-
band is counted, and does what its request is on its own; one of a type that its channel does not support is discarded and counted, an
unknown control command answered 5, a secured message changes nothing here; the companion's are taken while its link is ACTIVE. LOG_READ
answers a record of the error log in powered SERVICE, before of the island's copy, and STATE_CONFLICT where none has the SEQ. (R599, R641,
R644, R645, R646, R648, R649, log 15.) -/
def Obligations.MonitoringAndMessagesTakeEffect : Prop :=
  ∀ (s : State), let d := s.dev
    let ans (c : BitVec 8) (b : List Byte) : Host.Outcome State Fault Refusal := Obl.dev s (d.emit (.answer c b))
    (d.portUp = false → ∀ r i x q t b, ∀ c ∈ [Instr.getPdrRepositoryInfo, .getPdr r, .getSensorReading i, .getStateSensorReadings i, .setStateEffecterStates i x, .getStateEffecterStates i,
      .pldmLogRead q, .mctpMessage true t b], exec c s = .next s) ∧
    (d.portUp = true →
      exec .getPdrRepositoryInfo s = ans 0x50 (2 :: 0 :: 0 :: leBytes 4 74) ∧
      (∀ r : BitVec 32, exec (.getPdr r) s = if r.toNat ≤ 74 then ans 0x51 (2 :: 0 :: Config.pdr (max 1 r.toNat)) else ans 0x51 [2, 0x82]) ∧
      (∀ i : BitVec 16, let n := i.toNat - 1; let up := d.dawn.powered && d.dawn.step != .hold
        let val (e : Dev) (v : Int) (on : Bool) : Host.Outcome State Fault Refusal := Obl.dev s (e.emit (.answer 0x11 (2 :: 0 :: (if on && up then 0 :: leBytes 4 (BitVec.ofInt 32 v).toNat else [2]))))
        exec (.getSensorReading i) s =
          if 1 ≤ i.toNat ∧ i.toNat ≤ 36 then val d (d.readings.getD n 0 / 25) ((d.dom n).state == .on || (d.dom n).state == .dusk)
          else if 37 ≤ i.toNat ∧ i.toNat ≤ 44 then val d (d.readings.getD n 0 / 25) true
          else if i.toNat = 0x30 then val d (Int.ofNat (d.fld 0x2118 15 0)) true
          else if i.toNat = 0x31 then val d (Int.ofNat (d.fld 0x2114 15 0)) true
          else if i.toNat = 0x32 then val d.draw.2 (Int.ofNat (Config.inputVoltage d.draw.1)) true
          else ans 0x11 [2, 0x80]) ∧
      (∀ i : BitVec 16, exec (.getStateSensorReadings i) s =
        if i.toNat = 0x40 then ans 0x21 [2, 0, 1, BitVec.ofNat 8 (dawnCode d.dawn.step)]
        else if i.toNat = 0x41 then ans 0x21 [2, 0, 1, BitVec.ofNat 8 (storeCode d.fw.store)]
        else if i.toNat = 0x42 then ans 0x21 (2 :: 0 :: 5 :: (List.range 5).map fun i => BitVec.ofNat 8 (bits (d.reg 0x1100).toNat i i))
        else ans 0x21 [2, 0x80]) ∧
      (d.dawn.powered = false ∨ d.dawn.step = .hold → ∀ i x, exec (.setStateEffecterStates i x) s = ans 0x39 [2, 4] ∧ exec (.getStateEffecterStates i) s = ans 0x3A [2, 4]) ∧
      (d.dawn.powered = true → d.dawn.step ≠ .hold → ∀ i : BitVec 16, let n := 36 + (i.toNat - 0x100)
        (i.toNat < 0x100 ∨ 0x118 ≤ i.toNat → ∀ x, exec (.setStateEffecterStates i x) s = ans 0x39 [2, 0x80] ∧ exec (.getStateEffecterStates i) s = ans 0x3A [2, 0x80]) ∧
        (0x100 ≤ i.toNat → i.toNat < 0x118 →
          (∀ x : BitVec 8, exec (.setStateEffecterStates i x) s =
            if x = 1 then Obl.dev s ((d.modDom n fun x => { x with fabmgr := true }).emit (.answer 0x39 [2, 0]))
            else if x = 2 then Obl.dev s (((d.modDom n fun x => { x with fabmgr := false }).midnightEntry n).emit (.answer 0x39 [2, 0]))
            else ans 0x39 [2, 2]) ∧
          exec (.getStateEffecterStates i) s = ans 0x3A [2, 0, 1, if (d.dom n).fabmgr = true then 1 else 2])) ∧
      (∀ q, let l := if d.dawn.powered = true ∧ d.dawn.step = .service then (d.ras.at d.strapHalf).log ++ (d.ras.at (otherHalf d.strapHalf)).log else d.side.island
        exec (.pldmLogRead q) s = match l.find? fun e => e.seq == q with
          | some e => ans 0 (63 :: 0 :: lineBytes e.view)
          | none => ans 0 [63, Status.stateConflict.code])) ∧
    (d.linkState ≠ 2 → ∀ t b, exec (.mctpMessage false t b) s = .next s) ∧
    (∀ side : Bool, (side = true ∧ d.portUp = true) ∨ (side = false ∧ d.linkState = 2) → let e := if side then d.bump Reg.sbm 0x040 1 else d
      let bad := Obl.dev s (if side then e.bump Reg.sbm 0x048 1 else e.bump Reg.cmp 0x060 1)
      (∀ (t : BitVec 8) b, t ≠ 0 → t ≠ 1 → t ≠ 5 → t ≠ 6 → exec (.mctpMessage side t b) s = bad) ∧
      (∀ b, exec (.mctpMessage side 0 b) s = Obl.dev s (match b with
        | _ :: c :: l => match c.toNat with
          | 1 => e.mctpSetEid side ((l[1]?).getD 0) | 2 => e.mctpGetEid side | 3 => e.mctpUuid | 4 => e.mctpVersion | 5 => e.mctpTypes side
          | _ => e.emit (.answer c [5])
        | _ => e)) ∧
      (∀ b, exec (.mctpMessage side 1 b) s = if side = true then .next (({ s with dev := e } : State).pldmRequest b) else bad) ∧
      (∀ b, exec (.mctpMessage side 5 b) s = Obl.dev s (match b with | _ :: c :: l => e.spdmRequest c (l.drop 2) | _ => e)) ∧
      (∀ b, exec (.mctpMessage side 6 b) s = Obl.dev s e))

/-- While the side-band port does not answer, a command changes nothing; while type 5 is not served it answers 4, and data change nothing. Else:
the identifiers and the parameters are answered (their bytes are free, log 15). REQUEST_UPDATE while idle, with no path holding the store,
takes it and enters LEARN, and else answers 0x81; the component table leads to READY; UPDATE_COMPONENT there, with no other path holding the
store, erases the image region and downloads; data are written at the next offset, which moves by 1,024; TRANSFER_COMPLETE releases the
store with the image INVALID and enters VERIFY; VERIFY_COMPLETE with a good image enters APPLY and with a bad one answers 1 and returns to
READY; APPLY_COMPLETE enters ACTIVATE; ACTIVATE_FIRMWARE of a verified image with the store free makes it PENDING, and in Dawn hold starts
the sequence. GET_STATUS answers the phase. Cancelling a component in DOWNLOAD, VERIFY or APPLY returns to READY; cancelling the update
releases the store, if it holds it, and restores STORE. Outside its phase a command answers 0x80 when idle and 0x84 otherwise, and data
change nothing. (R489, R590, R645, R647, R649, log 15.) -/
def Obligations.PldmUpdateTakesEffect : Prop :=
  ∀ (s : State), let d := s.dev; let p := d.fw.pldm
    let ans (f : Fw → Fw) (c : BitVec 8) (b : List Byte) : Host.Outcome State Fault Refusal := Obl.dev s ({ d with fw := f d.fw }.emit (.answer c (5 :: b)))
    let wrong (c : BitVec 8) := ans id c [if p = .idle then 0x80 else 0x84]
    let cmds : List (Instr × BitVec 8) := [(.queryDeviceIdentifiers, 0x01), (.getFirmwareParameters, 0x02), (.requestUpdate, 0x10), (.passComponentTable, 0x13), (.updateComponent, 0x14),
      (.transferComplete, 0x16), (.verifyComplete, 0x17), (.applyComplete, 0x18), (.activateFirmware, 0x1A), (.getStatus, 0x1B), (.cancelUpdateComponent, 0x1C), (.cancelUpdate, 0x1D)]
    (d.portUp = false → (∀ c ∈ cmds, exec c.1 s = .next s) ∧ ∀ b, exec (.requestFirmwareData b) s = .next s) ∧
    (d.portUp = true → d.updateUp = false → (∀ c ∈ cmds, exec c.1 s = ans id c.2 [4]) ∧ ∀ b, exec (.requestFirmwareData b) s = .next s) ∧
    (d.portUp = true → d.updateUp = true →
      exec .queryDeviceIdentifiers s = ans id 0x01 (0 :: Config.pldmIdentifiers) ∧
      exec .getFirmwareParameters s = ans id 0x02 (0 :: Config.firmwareParameters d.fw.runSvn d.fw.storeSvn) ∧
      (exec .requestUpdate s = if p ≠ .idle ∨ d.fw.holder.isSome = true then ans id 0x10 [0x81] else ans (fun f => { f with
        pldm := .learn, holder := some .pldm, back := f.store, store := .receiving, offset := 0, verified := false }) 0x10 [0]) ∧
      (exec .passComponentTable s = if p = .learn then ans (fun f => { f with pldm := .ready }) 0x13 [0] else wrong 0x13) ∧
      (exec .updateComponent s = if p = .ready ∧ (d.fw.holder = none ∨ d.fw.holder = some .pldm) then .next { s with
          nv := { s.nv with image := ⟨true, []⟩ }
          dev := { d with fw := { d.fw with pldm := .download, holder := some .pldm, store := .receiving, back := .invalid, offset := 0, verified := false } }.emit (.answer 0x14 [5, 0]) }
        else wrong 0x14) ∧
      (∀ b, exec (.requestFirmwareData b) s = if p = .download then .next { s with
          nv := { s.nv with image := s.nv.image.put d.fw.offset (b.take 1024) }
          dev := { d with fw := { d.fw with offset := d.fw.offset + 1024 } } } else .next s) ∧
      (exec .transferComplete s = if p = .download then ans (fun f => { f with pldm := .verify, holder := none, store := .invalid, back := .invalid }) 0x16 [0] else wrong 0x16) ∧
      (exec .cancelUpdateComponent s = if p = .download ∨ p = .verify ∨ p = .apply then ans (fun f => { f with pldm := .ready, verified := false }) 0x1C [0] else wrong 0x1C) ∧
      (exec .verifyComplete s = if p ≠ .verify then wrong 0x17
        else if s.imageInfo.isSome = true then ans (fun f => { f with pldm := .apply, verified := true }) 0x17 [0, 0]
        else ans (fun f => { f with pldm := .ready, verified := false, store := .invalid }) 0x17 [0, 1]) ∧
      (exec .applyComplete s = if p = .apply then ans (fun f => { f with pldm := .activate }) 0x18 [0] else wrong 0x18) ∧
      (let e := { d with fw := { d.fw with pldm := .idle, store := .pending, storeSvn := (match s.imageInfo with | some m => m.svn | none => 0), act := 0 } }.emit (.answer 0x1A [5, 0, 0, 0]);
        exec .activateFirmware s = if p = .activate ∧ d.fw.verified = true ∧ d.fw.holder = none then Obl.dev s (if e.dawn.step = .hold then e.dawnStart false else e) else wrong 0x1A) ∧
      exec .getStatus s = ans id 0x1B [0, match p with | .idle => 0 | .learn => 1 | .ready => 2 | .download => 3 | .verify => 4 | .apply => 5 | .activate => 6] ∧
      (exec .cancelUpdate s = if p = .idle then wrong 0x1D else ans (fun f => { f with
        pldm := .idle, verified := false, store := if f.holder = some .pldm then f.back else f.store, holder := if f.holder = some .pldm then none else f.holder }) 0x1D [0]))

/-- A write of a register that is not aligned, or goes to no page, changes nothing; of a page that does not answer the path nothing; of a page
that the path does not hold REFUSED_WRITE, counted for the companion. Otherwise it takes effect: ERR_STS and INT_CAUSE clear the bits
written 1; ERR_MASK and ERR_SEV take bits 3:0; BLK_CTL resets the block or clears its counters; a DATA register while its block is BUSY is
an illegal write; a command register runs the command that OP names; a register without behaviour of its own takes the bits that software
may write; registers with behaviour act as their own commands do. OWNER takes HOLDER 0 to 2 from a party that may set it: firmware always;
the companion and the side-band while they hold the page; the side-band also from the companion after 10 ms without the link or once it is
dead; and the party that gave it to firmware. A block reset of a BUSY block is an illegal write; else its words return to reset but for
those that R665 keeps (live state: log 43). CLR_CNT clears its counters; ERR_INJ sets the injected errors and INJECTED. The first valid
NODE_ID and COMP_NODE are taken, and ports with EN 1 start; PORT_CFG is stored, and EN acts where the halves serve. A read of the low word
of a pair returns it and latches the high word; a write of the high word of GTC.SET takes the held low word with it. (R13, R14, R15, R16,
R17, R638, R654, R662, R663, R665, R669, R673.) -/
def Obligations.RegisterWritesTakeEffect : Prop :=
  ∀ (s : State) (path : Path) (v : Word32), let d := s.dev
    let refused (page : Nat) : Dev := let e := d.errEvent (headerPage page) 1; if path = .companion then e.bump Reg.cmp 0x058 1 else e
    let gate (page off : Nat) (x : Dev) : Dev :=
      if path = .firmware then x else if !d.writeAnswers path page off then d else if d.holdsPage path page then x else refused page
    (∀ a : BitVec 26, let page := a.toNat / 4096; let off := a.toNat % 4096
      let ok : Prop := a.toNat % 4 = 0 ∧ (path = .firmware ∨ (d.writeAnswers path page off = true ∧ d.holdsPage path page = true))
      (a.toNat % 4 ≠ 0 ∨ (blkId page = none ∧ page ≠ 0x00E) → exec (.registerWrite path a v) s = .next s) ∧
      (a.toNat % 4 = 0 → page = 0x00E → exec (.registerWrite path a v) s = Obl.dev s (gate page off (d.setReg a.toNat v))) ∧
      (∀ ty i, blkId page = some (ty, i) →
        (a.toNat % 4 = 0 → off = 0x030 → exec (.registerWrite path a v) s = exec (.ownerWrite path (BitVec.ofNat 14 page) v) s) ∧
        (a.toNat % 4 = 0 → off ≠ 0x030 → path ≠ .firmware →
          (d.writeAnswers path page off = false → exec (.registerWrite path a v) s = .next s) ∧
          (d.writeAnswers path page off = true → d.holdsPage path page = false → exec (.registerWrite path a v) s = Obl.dev s (refused page))) ∧
        (ok → off ≠ 0x030 → off < 0x100 → exec (.registerWrite path a v) s = Obl.dev s (
          if off = 0x010 then (let e := if v.getLsbD 0 then d.blkReset page else d; if v.getLsbD 1 then e.clrCnt page else e)
          else if off = 0x018 ∨ off = 0x028 then d.setReg a.toNat (d.reg a.toNat &&& ~~~v)
          else if off = 0x01C ∨ off = 0x020 then d.setReg a.toNat (v &&& 0xF)
          else if off = 0x024 then d.writeErrInj page v
          else if off = 0x02C then (d.setReg a.toNat (v &&& 0xFFFF)).blkEdge page (d.blkLive page)
          else d)) ∧
        (∀ lo hi sts, Dev.dataRegs ty = some (lo, hi, sts) → ok → 0x100 ≤ off → lo ≤ off ∧ off ≤ hi → d.busy (page * 4096 + sts) = true →
          exec (.registerWrite path a v) s = Obl.dev s (d.illegal page)) ∧
        (∀ t, s.command ty i off v = some (.next t) → ok → 0x100 ≤ off → d.dataBusy ty page off = false → exec (.registerWrite path a v) s = .next t) ∧
        (s.command ty i off v = none → ok → 0x100 ≤ off → d.dataBusy ty page off = false →
          (ty = 0x01 → off = 0x11C → exec (.registerWrite path a v) s = exec (.deviceResetCommand .firmware v) s) ∧
          (ty = 0x01 → off = 0x100 → exec (.registerWrite path a v) s = Obl.dev s (d.writeNodeId v)) ∧
          (ty = 0x11 → off = 0x104 → exec (.registerWrite path a v) s = Obl.dev s (d.writeCompNode v)) ∧
          (ty = 0x0E → off = 0x100 → exec (.registerWrite path a v) s = Obl.dev s (d.writePortCfg i v)) ∧
          (ty = 0x0E → 0x120 ≤ off → off < 0x140 → exec (.registerWrite path a v) s = Obl.dev s (d.writeVcCfg i ((off - 0x120) / 4) v)) ∧
          (ty = 0x03 → off = 0x108 → exec (.registerWrite path a v) s = Obl.dev s (d.writeSyncCfg v)) ∧
          (ty = 0x03 ∧ off = 0x120 ∨ ty = 0x05 ∧ off = 0x108 → exec (.registerWrite path a v) s = Obl.dev s (d.holdLow path a.toNat v)) ∧
          (ty = 0x03 → off = 0x124 → exec (.registerWrite path a v) s = Obl.dev s (d.writeSet (v ++ d.heldLow path 0x3120))) ∧
          (ty = 0x05 → off = 0x10C → exec (.registerWrite path a v) s = Obl.dev s (let n := d.fld 0x5104 10 0
            d.setVec n { d.vec n with addr := (v ++ (d.heldLow path 0x5108 &&& 0xFFFFFFFC) : BitVec 64) })) ∧
          (ty = 0x05 → off ≠ 0x108 → off ≠ 0x10C → exec (.registerWrite path a v) s = Obl.dev s (d.writeIrq off v)) ∧
          (ty = 0x0B → off = 0x10C → exec (.registerWrite path a v) s = Obl.dev s (d.writePlain ty page off v).cleanerStop) ∧
          (ty = 0x0C → off = 0x104 → exec (.registerWrite path a v) s = Obl.dev s ((d.writePlain ty page off v).setPanic i)) ∧
          (∀ r, regRow ty off = some r → (ty, off) ∉ [(0x01, 0x100), (0x01, 0x11C), (0x03, 0x108), (0x03, 0x120), (0x03, 0x124), (0x0B, 0x10C), (0x0C, 0x104), (0x0C, 0x10C),
            (0x0E, 0x100), (0x11, 0x104), (0x12, 0x100)] → ty ≠ 0x05 → ¬ (ty = 0x0E ∧ 0x120 ≤ off ∧ off < 0x140) →
            exec (.registerWrite path a v) s = Obl.dev s (d.setReg a.toNat ((d.reg a.toNat &&& ~~~r.rw) ||| (v &&& r.rw))))))) ∧
    exec (.registerWrite .firmware 0xB100 1) s = exec .rtRead s ∧
    (∀ page : BitVec 14, let n := page.toNat
      exec (.ownerWrite path page v) s = Obl.dev s (
        let was := d.fld (Reg.owner n) 1 0
        let h := fieldOf v 1 0
        if (blkId n).isNone ∨ n = Reg.sbm ∨ !d.writeAnswers path n 0x030 then d
        else if path = .firmware ∨ (path = .companion ∧ was = 0) ∨ (path = .sideband ∧ was = 0 ∧ d.sidebandMayTake = true) ∨ (path = .sideband ∧ was = 2) ∨
          (was = 1 ∧ (h = 0 ∨ h = 2) ∧ d.fld (Reg.owner n) 3 2 = pathCode path) then
          if h = 3 then d.illegal n else (d.setFld (Reg.owner n) 1 0 h).setFld (Reg.owner n) 3 2 (pathCode path)
        else refused n) ∧
      exec (.blkReset path page) s = Obl.dev s (gate n 0x010 (match blkId n with
        | none => d
        | some (ty, _) =>
          if d.blkBusy n then d.illegal n
          else
            let e := if ty = 0x05 then d.writeDeliver 1 else if ty = 0x03 then d.writeSyncCfg 0x0800 else d
            let alerts := e.reg 0x1100 &&& 0x6
            let mine (x : Nat) : Bool := x / 4096 == n || (ty == 0x11 && x / 4096 == 0x00E)
            let keep (x : Nat) : Word32 := if x / 4096 = n then Dev.blkKeeps ty (x % 4096) else 0
            let e := { e with regs := { e.regs with
              words := e.regs.words.filterMap fun r => if !mine r.1 then some r else if keep r.1 = 0 then none else some (r.1, r.2 &&& keep r.1)
              latch := e.regs.latch.filter fun r => !mine (r.1 / 4)
              held := e.regs.held.filter fun r => !mine (r.1 / 4) } }
            if ty = 0x12 then e.setReg 0x1100 alerts else e)) ∧
      exec (.clrCnt path page) s = Obl.dev s (gate n 0x010 { d with regs := { d.regs with ctrs := d.regs.ctrs.filter fun r => r.1 / 4096 != n } }) ∧
      exec (.errInj path page v) s = Obl.dev s (gate n 0x024 (
        if v &&& 7 = 0 then d
        else (foldN 3 (fun i e => if v.getLsbD i then e.errEvent n i else e) d).errEvent n 3))) ∧
    exec (.nodeIdWrite path v) s = Obl.dev s (gate Reg.glb 0x100 (
      if d.nodeId ≠ 0xFFFF then d
      else if fieldOf v 15 0 = 0xFFFF then d.illegal Reg.glb
      else
        let e := d.setReg 0x100 (v &&& 0xFFFF)
        if e.dawn.step ≠ .service then e
        else foldN 24 (fun p e => if e.fld (Dev.fabA p + 0x100) 0 0 = 1 ∧ (e.dom (36 + p)).state = .on then e.startReset p ⟨7, none, false⟩ else e) e)) ∧
    exec (.compNodeWrite path v) s = Obl.dev s (gate Reg.cmp 0x104 (
      if d.compNode ≠ 0xFFFF then d
      else if fieldOf v 15 0 = 0xFFFF ∨ fieldOf v 15 0 = d.nodeId.toNat then d.illegal Reg.cmp
      else d.setReg 0xD104 (v &&& 0xFFFF))) ∧
    (∀ p : PortNo, exec (.portEnableWrite path p v) s = Obl.dev s (gate (Reg.fab p.val) 0x100 (
      let at_ := Dev.fabA p.val + 0x100
      let bad : Bool := fieldOf v 2 1 = 3
      let e := d.setReg at_ (insField (v &&& 0xFF07FF) 2 1 (if bad then fieldOf (d.reg at_) 2 1 else fieldOf v 2 1))
      let e := if bad then e.illegal (Reg.fab p.val) else e
      if e.nodeId ≠ 0xFFFF ∧ e.dawn.step = .service ∧ (e.dom (36 + p.val)).state = .on then e.portEnable p.val (fieldOf v 0 0 == 1) else e))) ∧
    (∀ a : BitVec 26,
      (isPairLow a.toNat = true → d.readAnswers path (a.toNat / 4096) (a.toNat % 4096) = true → exec (.pairLowWordRead path a) s = Obl.dev s
        ({ d with regs := { d.regs with latch := Tbl.set 0 (Dev.pathKey path (a.toNat + 4)) (s.view (a.toNat + 4)) d.regs.latch } }.emit (.reg path .ok (s.view a.toNat)))) ∧
      (isPairLow a.toNat = false ∨ d.readAnswers path (a.toNat / 4096) (a.toNat % 4096) = false → exec (.pairLowWordRead path a) s = .next s) ∧
      exec (.pairHighWordWrite path a v) s = if isPairHigh a.toNat then exec (.registerWrite path a v) s else .next s)

/-- With the companion link not ACTIVE, and for a side-band port that does not answer, nothing happens. A read of the companion of 4 bytes in
SERVICE without an ACTIVE complex waits, except of the SBM page; another size is answered MALFORMED with all ones; else it is answered with
its status and value, and every answer but OK is counted. The answer to a read: MALFORMED if not aligned, NO_ACCESS of no page,
STATE_CONFLICT where the page does not answer the path, each with all ones, else OK and the value, the low word of a pair latching its high
word. A companion write of another size than 4 does nothing; of 4 bytes it is a register write on the companion's path. A side-band read in
SERVICE without an ACTIVE complex is counted and gets no answer (the output says timeout), except of the SBM page; else it is answered in
the same way. A side-band write is MALFORMED if not aligned, NO_ACCESS to no page, STATE_CONFLICT where the page does not answer, and else a
register write on its path that is answered OK. (R13, R526, R638, R639, R648, R649, R657, R659, R668, R670.) -/
def Obligations.RegisterAccessOfTheTwoPathsTakesEffect : Prop :=
  ∀ (s : State) (a v : Word32) (n : Nat), let d := s.dev; let page := a.toNat / 4096
    let answer (path : Path) : (Status × Word32) × State :=
      if a.toNat % 4 ≠ 0 then ((.malformed, 0xFFFFFFFF), s)
      else if blkId page = none ∧ page ≠ 0x00E then ((.noAccess, 0xFFFFFFFF), s)
      else if d.readAnswers path page (a.toNat % 4096) = false then ((.stateConflict, 0xFFFFFFFF), s)
      else if isPairLow a.toNat = true then ((.ok, s.view a.toNat),
        s.onDev fun d => { d with regs := { d.regs with latch := Tbl.set 0 (Dev.pathKey path (a.toNat + 4)) (s.view (a.toNat + 4)) d.regs.latch } })
      else if isPairHigh a.toNat = true then ((.ok, Tbl.get 0 d.regs.latch (Dev.pathKey path a.toNat)), s)
      else ((.ok, s.view a.toNat), s)
    exec (.companionRegRead a n) s = (
      if d.fld 0xD100 2 0 ≠ 2 then .next s
      else if d.dawn.step = .service ∧ d.orders = false ∧ page ≠ Reg.sbm ∧ n = 4 then Obl.dev s (d.modCmp fun c => { c with reads := c.reads ++ [⟨a, d.now⟩] })
      else
        let r := if n ≠ 4 then ((.malformed, (0xFFFFFFFF : Word32)), s) else answer .companion
        .next (r.2.onDev fun e => (if r.1.1 = .ok then e else e.bump Reg.cmp 0x050 1).emit (.reg .companion r.1.1 r.1.2))) ∧
    exec (.companionRegWrite a n v) s = (
      if d.fld 0xD100 2 0 ≠ 2 ∨ n ≠ 4 then .next s else .next (s.putReg .companion a.toNat v)) ∧
    (a.toNat < 2 ^ 26 → d.fld 0xD100 2 0 = 2 → exec (.companionRegWrite a 4 v) s = exec (.registerWrite .companion (a.setWidth 26) v) s) ∧
    exec (.pldmRegRead a) s = (
      if d.portUp = false then .next s
      else if d.dawn.step = .service ∧ d.orders = false ∧ page ≠ Reg.sbm then Obl.dev s ((d.bump Reg.ctl 0x070 1).emit (.reg .sideband .timeout 0xFFFFFFFF))
      else .next ((answer .sideband).2.onDev (Dev.emit (.reg .sideband (answer .sideband).1.1 (answer .sideband).1.2)))) ∧
    exec (.pldmRegWrite a v) s = (
      if d.portUp = false then .next s
      else if a.toNat % 4 ≠ 0 then Obl.dev s (d.emit (.reg .sideband .malformed 0))
      else if blkId page = none ∧ page ≠ 0x00E then Obl.dev s (d.emit (.reg .sideband .noAccess 0))
      else if d.readAnswers .sideband page (a.toNat % 4096) = false then Obl.dev s (d.emit (.reg .sideband .stateConflict 0))
      else .next ((s.putReg .sideband a.toNat v).onDev (Dev.emit (.reg .sideband .ok 0))))

/-- For every command, well-formed or not, and every state, exec answers a next state whose queue is the queue before: the specification gives
every command of the table an effect, so none ends in a fault or a refusal, and none changes the commands that wait (the model's queue, log
3; the meaning of ill-formed operands, log 64). (01_pool_node.md, log 3, log 64.) -/
def Obligations.EveryCommandCompletes : Prop :=
  ∀ (c : Instr) (s : State), ∃ t, exec c s = .next t ∧ t.pending = s.pending

/-- For every state and every command that is not one of THERM_SAVE, PSENSE_SAVE, TRAIN_SAVE, OPT_SAVE, SVN_COMMIT_DONE, OWNER_SET,
DEBUG_DISABLE, IMG_BEGIN, IMG_WRITE, FW_FRAG, a fragment fetched, the PLDM commands UpdateComponent and RequestFirmwareData, the messages
and packets that carry such a command (MCTP, fabric, MCAST) and the register writes that can carry one, the next state has the fuses and the
non-volatile store as before. (R486, R490, R569, R571, R586, R587.) -/
def Obligations.OnlySaveAndImageCommandsWriteTheStore : Prop :=
  ∀ (c : Instr) (s t : State), exec c s = .next t →
    (match c with
      | .thermSave | .psenseSave | .trainSave .. | .optSave | .svnCommitDone | .imgBegin | .imgWrite => True
      | .ownerSet .. | .debugDisable .. | .fwFrag .. | .fragmentFetch .. | .updateComponent .. | .requestFirmwareData .. => True
      | .mctpMessage .. | .fabricPacket .. | .mcast .. | .registerWrite .. | .companionRegWrite .. | .pldmRegWrite .. | .pairHighWordWrite .. => True
      | _ => t.nv = s.nv)

/-- Let f be any record of fuses that the fuses of a state have grown from: its SVN is at most the committed SVN, a debug port disabled in f is
disabled, and an owner hash set in f is the same. Whatever command stands at the front of the queue, or if none does, the fuses of the next
state have grown from f too: SVN_COMMIT never lowers the SVN (R490), OWNER_SET programs a hash once, DEBUG_DISABLE cannot be undone (R486,
R498), and no other command, reset or sequence changes a fuse. (R486, R490, R498.) -/
def Obligations.FusesOnlyGrowInEveryStep : Prop :=
  ∀ (f : Fuses) (s t : State), Fuses.Grow f s.nv.fuses → step s = .next t → Fuses.Grow f t.nv.fuses

/-- Right after reset the queue is empty (the model's choice, log 3), the fuses are as shipped (log 16) and have grown from themselves;
GLB.NODE_ID and CMP.COMP_NODE are 0xFFFF; GTC.SYNC_CFG is 0x800 and SYNC_STS 0xFF0; the global count is 0 and runs; XLT.FAULT_HOLD is 0x64,
COH.NACK_CFG 0x320A, TIER.DRV_CFG 0x280A, DDR.SCHED_CFG 0x144430 in every channel, PWR.CAP_CFG 0x15E0008; every extent entry is FREE with
GEN 0; no byte of pool memory, DATA buffer or SRAM is listed as other than 0 and the memories are canonical; every counter is 0. Log 1 says
which other values the model chose. (R55, R94, R154, R197, R232, R370, R393, R629, R654, R672, log 1, log 16.) -/
def Obligations.ResetLeavesTheStatedValues : Prop :=
  let s := State.reset
    let d := s.dev
    s.pending = [] ∧ Fuses.Grow Fuses.shipped s.nv.fuses ∧ Fuses.Grow s.nv.fuses Fuses.shipped ∧
      d.nodeId = 0xFFFF ∧ d.compNode = 0xFFFF ∧ d.reg 0x3108 = 0x800 ∧ d.reg 0x3110 = 0xFF0 ∧ d.gtc.count = 0 ∧ d.gtc.running = true ∧
      d.reg 0x8108 = 0x64 ∧ d.reg 0x9130 = 0x320A ∧ d.reg 0xA110 = 0x280A ∧ (∀ c, c < 24 → d.reg (Dev.ddrA c + 0x104) = 0x144430) ∧
      d.reg 0x2110 = 0x15E0008 ∧ (∀ e, (d.ext e).state = .free ∧ (d.ext e).gen = 0) ∧
      d.mem.cells = [] ∧ d.mem.wf = true ∧ (∀ p o, d.ctr p o = 0)

/-- For every memory in canonical form, writing a byte, a run of bytes or a line, and poisoning a line, give a memory in canonical form; a byte
reads as written inside the bytes written and as before at every other address; a line that is poisoned reads 0 in its 64 bytes and is
marked, and, with the marks listed in rising order, which every write keeps, writing the line clears the mark of that line and of no other
(the mark and the zeros are the model's form of the poison pattern, log 8). (R48, R140, R246, R249, R253, log 8.) -/
def Obligations.PoolWritesKeepTheCanonicalForm : Prop :=
  ∀ (m : Mem) (a k : Nat) (b : Byte) (l : List Byte) (x : Line),
    (m.wf = true → (m.setByte a b).wf = true ∧ (m.setBytes a l).wf = true ∧ (m.setLine k x).wf = true ∧ (m.setBad k).wf = true) ∧
    (∀ y, (m.setBytes a l).byte y = if a ≤ y ∧ y < a + l.length then l.getD (y - a) 0 else m.byte y) ∧
    (∀ y, (m.setLine k x).byte y = if k * 64 ≤ y ∧ y < k * 64 + 64 then (lineBytes x).getD (y - k * 64) 0 else m.byte y) ∧
    (∀ y, (m.setBad k).byte y = if k * 64 ≤ y ∧ y < k * 64 + 64 then 0 else m.byte y) ∧
    (∀ j, (m.setBad k).bad j = if j = k then true else m.bad j) ∧
    (m.poison.Pairwise (· < ·) → (m.setBad k).poison.Pairwise (· < ·) ∧ (m.setLine k x).poison.Pairwise (· < ·) ∧
      (∀ j, (m.setLine k x).bad j = if j = k then false else m.bad j))

/-- For every device: storing a register, a field or DATA words, counting, an output, setting an INT_CAUSE bit, an ERR_STS event, an illegal-
write bit, a log record and the start of a command leave everything but registers, counters, interrupts, outputs, control messages and the
error logs unchanged, and so does the end of a command that no control message borrows; a stored register reads back and no other changes; a
counter counts up to its limit and no other changes. (R13, R68, R255, R257, R552, R663, R664.) -/
def Obligations.NotificationsLeaveTheMachineAlone : Prop :=
  ∀ (d : Dev) (a b p q o n v hi lo i : Nat) (x : Word32) (u : Out) (h : Half) (f : LogF),
    (d.setReg a x).rest = d.rest ∧ (d.setFld a hi lo v).rest = d.rest ∧ (d.setData a n v).rest = d.rest ∧ (d.bump p o n).rest = d.rest ∧
    (d.emit u).rest = d.rest ∧ (d.cause p i).rest = d.rest ∧ (d.errEvent p i).rest = d.rest ∧ (d.illegal p).rest = d.rest ∧
    (d.log h f).rest = d.rest ∧ (d.cmdBegin a).rest = d.rest ∧
    (∀ st, Tbl.find d.sec.borrow a = none → (d.cmdEnd p a i st).rest = d.rest) ∧
    (d.setReg a x).reg b = (if b = a then x else d.reg b) ∧
    (∀ p', (d.bump p o n).ctr p' q = if p' * 4096 + q = p * 4096 + o then satAdd (d.ctr p o) n else d.ctr p' q)

/-- For every device and extent entry with FROZEN 1, the permissions that the device applies have HOST_WRITE, HOST_ATOMIC and ENGINE_WRITE 0,
whatever their stored value, and outside a confidential partition that has not accepted the extent HOST_READ, ENGINE_READ and FROZEN as
stored. So a host request that would store, merge, update or take ownership in a frozen extent, and an engine access that would write, never
pass the checks of the home. (R53.) -/
def Obligations.FrozenExtentsGrantNoWrite : Prop :=
  ∀ (d : Dev) (e : Ext), bits e.perm.toNat 5 5 = 1 →
    bits (d.perm e) 1 1 = 0 ∧ bits (d.perm e) 2 2 = 0 ∧ bits (d.perm e) 4 4 = 0 ∧
    ((d.conf e.part && !e.accepted) = false → bits (d.perm e) 0 0 = bits e.perm.toNat 0 0 ∧ bits (d.perm e) 3 3 = bits e.perm.toNat 3 3 ∧ bits (d.perm e) 5 5 = 1) ∧
    (∀ (h : ReqHdr) (kind : ReqKind) (i : Nat), d.extAt h.offset.toNat = some (i, e) → kindWrites kind = true ∨ kind = .loadOwn →
      ∃ st, d.hostChecks h kind = .error st) ∧
    (∀ (part : PartId) (off i : Nat) (kind : EngKind), d.extAt off = some (i, e) → engWrites kind = true →
      ∃ st, d.engChecks part off kind = .error st)

/-- Merging two accumulators gives V_a + V_b and each of P, M and Q added, saturating at 2^40 - 1. Merging is commutative and associative. The
accumulator of a list of terms that is split in two is the merge of the accumulators of its parts, and the accumulators of two lists of the
same terms in any order, and of any grouping of them, have the same V and counts that are 0 in the same places. (R352.) -/
def Obligations.AccumulatorsMergeInAnyOrder : Prop :=
  (∀ a b : Acc, (a.merge b).v = a.v + b.v ∧ (a.merge b).p = min (a.p + b.p) (2 ^ 40 - 1) ∧ (a.merge b).m = min (a.m + b.m) (2 ^ 40 - 1) ∧
      (a.merge b).q = min (a.q + b.q) (2 ^ 40 - 1)) ∧
    (∀ a b : Acc, a.merge b = b.merge a) ∧ (∀ a b c : Acc, (a.merge b).merge c = a.merge (b.merge c)) ∧
    (∀ k l : List XV, Acc.ofTerms (k ++ l) = (Acc.ofTerms k).merge (Acc.ofTerms l)) ∧
    (∀ k l : List XV, k.Perm l → Acc.ofTerms k = Acc.ofTerms l) ∧
    (∀ (g h : List (List XV)), g.flatten.Perm h.flatten → let x := (g.map Acc.ofTerms).foldl Acc.merge Acc.zero
      let y := (h.map Acc.ofTerms).foldl Acc.merge Acc.zero
      x.v = y.v ∧ (x.p = 0 ↔ y.p = 0) ∧ (x.m = 0 ↔ y.m = 0) ∧ (x.q = 0 ↔ y.q = 0))
end

