-- ==== Sys2Proof/Laws/Code.lean ====
section
/-! SUPPORT. What the word code does: a fresh word has no syndrome, a refold keeps the syndrome (so an error is found wherever the word goes), and an
error undoes itself. -/

namespace Sys2Proof.Machine

/-- A word that was encoded for a holder has syndrome 0 there (R235, R238). -/
@[simp] theorem syndrome_encodeWord (x : Word64) (f : Fold) : (encodeWord x f).syndrome f = 0 := by
  simp [encodeWord, CodeWord.syndrome]

/-- A refold leaves the data as it is (R239). -/
@[simp] theorem refold_data (x : CodeWord) (src dst : Fold) : (x.refold src dst).data = x.data := rfl

/-- A refold keeps the syndrome: the reader at the destination finds what the reader at the source would have found (R238, R239). -/
@[simp] theorem refold_syndrome (x : CodeWord) (src dst : Fold) : (x.refold src dst).syndrome dst = x.syndrome src := by
  simp only [CodeWord.syndrome, CodeWord.refold, wordCheck]
  generalize addrFold src.addr src.tag = a
  generalize addrFold dst.addr dst.tag = b
  ext i
  simp only [BitVec.getElem_xor]
  cases a[i] <;> cases b[i] <;> simp

/-- The same error twice leaves the word as it was. -/
@[simp] theorem flip_flip (x : CodeWord) (e : WordFlip) : (x.flip e).flip e = x := by
  cases x; simp [CodeWord.flip]

end Sys2Proof.Machine
end

