-- ==== Sys2Proof/Laws/Home.lean ====
section
/-! SUPPORT. What the home does with a host request that it admits on a stable line, said once: the request is dispatched, and a request that no
holder stands in the way of is served. -/

namespace Sys2Proof.Machine

/-- A line that no dead host holds in M is looked up without effect. -/
theorem Dev.deadLookup_none (d : Dev) (line : Nat)
    (h : (match d.dirEnt line with | some ent => ent.modified && ent.sharers.any d.isDead | none => false) = false) : d.deadLookup line = d := by
  unfold Dev.deadLookup
  split
  · next ent _ _ he _ =>
    rw [he] at h
    simp only at h
    rw [h]
    simp
  · rfl

/-- A request that passes the checks of R60 and whose line is not reserved for it is admitted. -/
theorem Dev.hostRequest_checked (d : Dev) (h : ReqHdr) (kind : ReqKind) (i : Nat) (e : Ext)
    (hv : h.via = .companion → d.compNode ≠ 0xFFFF) (hg : h.offset.toNat < gutterBase) (hd : d.isDead (d.sentBy h).src = false)
    (hu : d.trackerRoom (d.lineHalf (h.offset.toNat / 64)) = true)
    (hr : d.reserved (d.sentBy h).src h.tag (BitVec.ofNat 42 (h.offset.toNat / 64)) = false)
    (hc : d.hostChecks (d.sentBy h) kind = .ok (i, e)) (hbad : badAop kind = false) :
    d.hostRequest h kind = d.admitReq i e
      { hdr := d.sentBy h, eng := none, kind := kind, ext := BitVec.ofNat 15 i, gen := e.gen, arrived := d.now } := by
  have ho : (d.sentBy h).offset = h.offset := by unfold Dev.sentBy; split <;> rfl
  have htag : (d.sentBy h).tag = h.tag := by unfold Dev.sentBy; split <;> rfl
  have hn : ¬ (h.via = .companion ∧ d.compNode = 0xFFFF) := fun x => hv x.1 x.2
  unfold Dev.hostRequest
  rw [if_neg hn]
  simp only [hd, hbad, hg, if_true, if_false, Bool.false_eq_true]
  unfold Dev.homeRequest
  rw [ho, htag]
  simp only [hu, hr, hc, Bool.not_true, Bool.false_eq_true, false_and, if_false]

/-- Whether a request is a STORE of a host that holds its line in M. -/
def Dev.ownerStores (d : Dev) (line : Nat) (r : HomeReq) : Bool :=
  (match r.kind with | .store _ => true | _ => false) &&
    (match d.dirEnt line with | some ent => ent.modified && ent.sharers.contains r.hdr.src | none => false)

/-- What a host's request that is formed meets, but for a STORE of the owner on a line in transition: a block that is not resident, a line in
transition, a reserved line, or its start. -/
theorem Dev.admitReq_host (i : Nat) (e : Ext) (r : HomeReq) (d d1 : Dev) (he : r.eng = none)
    (h1 : (d.lookTag i e r.hdr.offset.toNat).deadLookup (r.hdr.offset.toNat / 64) = d1)
    (ha : match r.kind with
      | .atomic aop wide o => r.hdr.offset.toNat % (if wide then 8 else 4) = 0 ∧ o.length = atomicLen aop wide
      | .writePartial _ m => m ≠ 0
      | _ => True)
    (hs : d1.ownerStores (r.hdr.offset.toNat / 64) r = false ∨ d1.tx? (r.hdr.offset.toNat / 64) = none) :
    d.admitReq i e r = if d1.resident e r.hdr.offset.toNat = false then Dev.admitReq.missing i e r d1
      else match d1.tx? (r.hdr.offset.toNat / 64) with
        | some t => d1.turnAway r (d1.lineHint t) (homeHalf e r.hdr.offset.toNat)
        | none => if d1.heldFor r.hdr (BitVec.ofNat 42 (r.hdr.offset.toNat / 64)) = true then
            d1.turnAway r d1.baseHint (homeHalf e r.hdr.offset.toNat) else Dev.admitReq.admitted i e r d1 := by
  obtain ⟨hdr, eng, kind, x, gen, at_⟩ := r
  simp only at he h1 ha hs
  subst he
  unfold Dev.admitReq
  simp only [h1]
  cases kind with
  | store v =>
    simp only [Bool.not_true, Bool.false_eq_true, if_false, Option.isSome_none]
    cases ht : d1.tx? (hdr.offset.toNat / 64) with
    | none => cases d1.resident e hdr.offset.toNat <;> rfl
    | some t =>
      rw [ht] at hs
      have hs := hs.resolve_right (by simp)
      cases hent : d1.dirEnt (hdr.offset.toNat / 64) with
      | none => simp only []; cases d1.resident e hdr.offset.toNat <;> rfl
      | some ent =>
        simp only [Dev.ownerStores, hent, Bool.true_and] at hs
        simp only [hs]
        cases d1.resident e hdr.offset.toNat <;> rfl
  | atomic aop wide o =>
    simp only [ha.1, ha.2, beq_self_eq_true, Bool.and_self, Bool.not_true, Bool.false_eq_true, if_false, Option.isSome_none]
    cases ht : d1.tx? (hdr.offset.toNat / 64) <;> cases d1.resident e hdr.offset.toNat <;> rfl
  | writePartial x m =>
    have hm : (m == 0) = false := by simpa using ha
    simp only [hm, Bool.not_true, Bool.false_eq_true, if_false, Option.isSome_none]
    cases ht : d1.tx? (hdr.offset.toNat / 64) <;> cases d1.resident e hdr.offset.toNat <;> rfl
  | _ =>
    simp only [Bool.not_true, Bool.false_eq_true, if_false, Option.isSome_none]
    cases ht : d1.tx? (hdr.offset.toNat / 64) <;> cases d1.resident e hdr.offset.toNat <;> rfl

/-- A STORE of the owner on a line in transition gives its data to the transaction. -/
theorem Dev.admitReq_owner (i : Nat) (e : Ext) (r : HomeReq) (d d1 : Dev) (t : LineTx) (v : Line) (hk : r.kind = .store v)
    (h1 : (d.lookTag i e r.hdr.offset.toNat).deadLookup (r.hdr.offset.toNat / 64) = d1)
    (hs : d1.ownerStores (r.hdr.offset.toNat / 64) r = true) (ht : d1.tx? (r.hdr.offset.toNat / 64) = some t) :
    d.admitReq i e r = d1.storeTransient (r.hdr.offset.toNat / 64) t r v e := by
  obtain ⟨hdr, eng, kind, x, gen, at_⟩ := r
  simp only at hk h1 hs ht
  subst hk
  unfold Dev.admitReq
  simp only [h1, ht, Bool.not_true, Bool.false_eq_true, if_false]
  cases hent : d1.dirEnt (hdr.offset.toNat / 64) with
  | none => simp [Dev.ownerStores, hent] at hs
  | some ent =>
    simp only [Dev.ownerStores, hent, Bool.true_and] at hs
    simp only [hs]

/-- A host's read or LOAD_OWN of the line that it holds in M itself completes STATE_CONFLICT. -/
theorem Dev.dispatch_ownRead (i : Nat) (e : Ext) (r : HomeReq) (d : Dev) (ent : DirEnt) (hk : r.kind = .loadOwn ∨ r.kind = .loadShared false)
    (hd : d.dirEnt (r.hdr.offset.toNat / 64) = some ent) (hm : ent.modified = true) (hs : ent.sharers.head? = some r.hdr.src) :
    d.dispatch i e r = d.complete r .stateConflict [] := by
  obtain ⟨hdr, eng, kind, x, gen, at_⟩ := r
  simp only at hk hd hs
  unfold Dev.dispatch
  dsimp only
  rw [hd]
  dsimp only
  rw [if_pos hm, hs]
  rcases hk with rfl | rfl <;> exact if_pos rfl

/-- A request admitted at once: the node and the offset are served here, the checks of R60 pass, the line is stable and unreserved and
its block resident; an ATOMIC is well formed and finds no stored answer but room for its own. -/
theorem Dev.hostRequest_admitted (d : Dev) (h : ReqHdr) (kind : ReqKind) (i : Nat) (e : Ext)
    (hv : h.via = .companion → d.compNode ≠ 0xFFFF) (hg : h.offset.toNat < gutterBase) (hd : d.isDead (d.sentBy h).src = false)
    (hu : d.trackerRoom (d.lineHalf (h.offset.toNat / 64)) = true) (hc : d.hostChecks (d.sentBy h) kind = .ok (i, e))
    (hl : (d.lookTag i e h.offset.toNat).deadLookup (h.offset.toNat / 64) = d.lookTag i e h.offset.toNat)
    (ht : (d.lookTag i e h.offset.toNat).tx? (h.offset.toNat / 64) = none)
    (hr : d.firstResv (BitVec.ofNat 42 (h.offset.toNat / 64)) = none)
    (hr' : (d.lookTag i e h.offset.toNat).firstResv (BitVec.ofNat 42 (h.offset.toNat / 64)) = none)
    (hres : (d.lookTag i e h.offset.toNat).resident e h.offset.toNat = true)
    (hk : match kind with
      | .writePartial _ m => m ≠ 0
      | .atomic aop wide o => aop.toNat < 10 ∧ h.offset.toNat % (if wide then 8 else 4) = 0 ∧ o.length = atomicLen aop wide ∧
          (h.riss = true → ((d.lookTag i e h.offset.toNat).coh.replies.find? fun x => x.half == homeHalf e h.offset.toNat &&
            x.src == (d.sentBy h).src && x.tag == h.tag && x.offset == h.offset) = none) ∧
          (h.pv = true → ((d.lookTag i e h.offset.toNat).coh.replies.filter fun x => x.half == homeHalf e h.offset.toNat).length < 16384)
      | _ => True) :
    d.hostRequest h kind = (d.lookTag i e h.offset.toNat).dispatch i e
      { hdr := d.sentBy h, eng := none, kind := kind, ext := BitVec.ofNat 15 i, gen := e.gen, arrived := d.now } := by
  have ho : (d.sentBy h).offset = h.offset := by unfold Dev.sentBy; split <;> rfl
  have htag : (d.sentBy h).tag = h.tag := by unfold Dev.sentBy; split <;> rfl
  have hriss : (d.sentBy h).riss = h.riss := by unfold Dev.sentBy; split <;> rfl
  have hpv : (d.sentBy h).pv = h.pv := by unfold Dev.sentBy; split <;> rfl
  have hn : ¬ (h.via = .companion ∧ d.compNode = 0xFFFF) := fun x => hv x.1 x.2
  have hres0 : ∀ n t, d.reserved n t (BitVec.ofNat 42 (h.offset.toNat / 64)) = false := by
    intro n t
    unfold Dev.reserved
    rw [List.any_eq_false]
    intro r hr0
    have := List.find?_eq_none.mp hr r hr0
    simp at this ⊢
    intro _ _ h3
    exact this h3
  have hheld : ∀ x, (d.lookTag i e h.offset.toNat).heldFor x (BitVec.ofNat 42 (h.offset.toNat / 64)) = false := by
    intro x; unfold Dev.heldFor; rw [hr']
  have hbad : badAop kind = false := by
    cases kind <;> first | rfl | (simp only [badAop, decide_eq_false_iff_not, not_le]; exact hk.1)
  unfold Dev.hostRequest
  rw [if_neg hn]
  simp only [hd, hbad, hg, if_true, if_false, Bool.false_eq_true]
  unfold Dev.homeRequest
  rw [ho, htag]
  simp only [hu, hres0, hc, Bool.not_true, Bool.false_eq_true, false_and, if_false]
  unfold Dev.admitReq
  simp only [ho, hl, ht, hres, hheld, Bool.not_true, Bool.false_eq_true, if_false, Option.isSome_none]
  cases kind with
  | atomic aop wide o =>
    obtain ⟨-, k2, k3, k4, k5⟩ := hk
    simp only [k2, k3, beq_self_eq_true, Bool.and_true, Bool.not_true, Bool.false_eq_true, if_false]
    unfold Dev.admitReq.admitted
    simp only [ho, htag, hriss, hpv]
    by_cases hb : h.riss = true
    · simp only [hb, Bool.true_and, if_true, k4 hb]
      rw [if_neg (by rintro ⟨_, a, b⟩; exact absurd (k5 a) (by omega))]
    · simp only [Bool.not_eq_true] at hb
      simp only [hb, Bool.true_and, Bool.false_eq_true, if_false]
      rw [if_neg (by rintro ⟨_, a, b⟩; exact absurd (k5 a) (by omega))]
  | writePartial x m =>
    have hm : (m == 0) = false := by simpa using hk
    simp only [hm, Bool.not_true, Bool.false_eq_true, if_false]
    unfold Dev.admitReq.admitted
    simp only [Bool.false_and, Bool.false_eq_true, if_false, false_and]
  | store x =>
    simp only [Bool.not_true, Bool.false_eq_true, if_false]
    unfold Dev.admitReq.admitted
    simp only [Bool.false_and, Bool.false_eq_true, if_false, false_and]
  | _ =>
    simp only [Bool.not_true, Bool.false_eq_true, if_false]
    unfold Dev.admitReq.admitted
    simp only [Bool.false_and, Bool.false_eq_true, if_false, false_and]

/-- A request other than a STORE that its sender does not hold in M goes on. -/
theorem Dev.dispatch_begin (d : Dev) (i : Nat) (e : Ext) (r : HomeReq) (hk : ∀ x, r.kind ≠ .store x)
    (hs : ∀ ent, d.dirEnt (r.hdr.offset.toNat / 64) = some ent → ent.modified = true → ent.sharers.head? ≠ some r.hdr.src ∨
      (r.kind ≠ .loadOwn ∧ r.kind ≠ .loadShared false)) :
    d.dispatch i e r = Dev.dispatch.beginReq i e r (r.hdr.offset.toNat / 64) (homeHalf e (r.hdr.offset.toNat / 64 * 64)) d := by
  obtain ⟨hdr, eng, k, x, g, a⟩ := r
  cases hent : d.dirEnt (hdr.offset.toNat / 64) with
  | none =>
    unfold Dev.dispatch
    dsimp only
    rw [hent]
    cases k with
    | store y => exact absurd rfl (hk y)
    | loadShared b => cases b <;> rfl
    | _ => rfl
  | some ent =>
    have := hs ent hent
    unfold Dev.dispatch
    dsimp only
    rw [hent]
    dsimp only
    cases hm : ent.modified with
    | false =>
      rw [if_neg Bool.false_ne_true]
      cases k with
      | store y => exact absurd rfl (hk y)
      | loadShared b => cases b <;> rfl
      | _ => rfl
    | true =>
      rw [if_pos rfl]
      cases ho : ent.sharers.head? with
      | none =>
        cases k with
        | store y => exact absurd rfl (hk y)
        | loadShared b => cases b <;> rfl
        | _ => rfl
      | some o =>
        rw [ho] at this
        cases k with
        | store y => exact absurd rfl (hk y)
        | loadShared b =>
          cases b with
          | true => rfl
          | false =>
            have h1 : ¬ o = hdr.src := by
              rcases this hm with h1 | h1
              · intro h2; exact h1 (by rw [h2])
              · exact absurd rfl h1.2
            dsimp only; rw [if_neg h1]
        | loadOwn =>
          have h1 : ¬ o = hdr.src := by
            rcases this hm with h1 | h1
            · intro h2; exact h1 (by rw [h2])
            · exact absurd rfl h1.1
          dsimp only; rw [if_neg h1]
        | _ => rfl

/-- A request that no holder stands in the way of, with a directory entry to be had, is served at once. -/
theorem Dev.beginReq_serve (d : Dev) (i : Nat) (e : Ext) (r : HomeReq) (l : Nat) (half : Half)
    (hn : d.neededSnoops i e l r.hdr r.eng.isSome r.kind = []) (ho : r.kind = .loadOwn → d.snoopRoom half = true)
    (hs : d.fullSet l = none ∨ d.needsEntry l r.kind = false) : Dev.dispatch.beginReq i e r l half d = d.serve l r e := by
  unfold Dev.dispatch.beginReq
  have ht : ¬ (((!(([] : List Snoop).isEmpty) || r.kind == ReqKind.loadOwn) = true) ∧ (!d.snoopRoom half) = true) := by
    rintro ⟨a, b⟩
    simp at a
    simp [ho a] at b
  simp only [hn, ht, if_false]
  simp only [List.isEmpty_nil, Bool.not_true, Bool.false_eq_true, if_false]
  rcases hs with hs | hs
  · simp [hs]
  · simp [hs]

/-- A request whose line others hold in a conflicting state starts the line's snoops. -/
theorem Dev.beginReq_snoops (d : Dev) (i : Nat) (e : Ext) (r : HomeReq) (l : Nat) (half : Half)
    (hn : d.neededSnoops i e l r.hdr r.eng.isSome r.kind ≠ []) (ho : d.snoopRoom half = true) :
    Dev.dispatch.beginReq i e r l half d = (d.beginTx l .demand (some r) (d.neededSnoops i e l r.hdr r.eng.isSome r.kind)).advance l := by
  unfold Dev.dispatch.beginReq
  have : (d.neededSnoops i e l r.hdr r.eng.isSome r.kind).isEmpty = false := by simpa using hn
  simp [ho, this]

end Sys2Proof.Machine
end

