-- ==== Sys2Proof/Laws/Mem.lean ====
section
/-! SUPPORT. Sparse tables and pool memory: a read after a write, and the canonical form, which every operation on the memory keeps. -/

namespace Sys2Proof.Machine

/-! ### Tables -/

theorem Tbl.find_put {α : Type} (i : Nat) (x : α) (t : Tbl α) (j : Nat) :
    Tbl.find (Tbl.put i x t) j = if j = i then some x else Tbl.find t j := by
  induction t with
  | nil => by_cases h : i = j <;> simp [Tbl.put, Tbl.find, h, eq_comm]
  | cons p t ih =>
    obtain ⟨k, v⟩ := p
    unfold Tbl.put
    split
    · simp only [Tbl.find, ih]
      repeat' split
      all_goals first | rfl | omega
    · split
      · simp only [Tbl.find]
        repeat' split
        all_goals first | rfl | omega
      · simp only [Tbl.find]
        repeat' split
        all_goals first | rfl | omega

theorem Tbl.find_drop {α : Type} (i : Nat) (t : Tbl α) (j : Nat) :
    Tbl.find (Tbl.drop i t) j = if j = i then none else Tbl.find t j := by
  induction t with
  | nil => simp [Tbl.drop, Tbl.find]
  | cons p t ih =>
    obtain ⟨k, v⟩ := p
    unfold Tbl.drop
    split
    · simp only [Tbl.find, ih]
      repeat' split
      all_goals first | rfl | omega
    · simp only [Tbl.find, ih]
      repeat' split
      all_goals first | rfl | omega

theorem Tbl.get_eq_find {α : Type} (d : α) (t : Tbl α) (j : Nat) : Tbl.get d t j = (Tbl.find t j).getD d := by
  induction t with
  | nil => rfl
  | cons p t ih =>
    obtain ⟨k, v⟩ := p
    unfold Tbl.get Tbl.find
    split
    · rfl
    · exact ih

/-- The value at a key after a table is set there is the new one, and every other key keeps its value. -/
theorem Tbl.get_set {α : Type} [DecidableEq α] (d : α) (i : Nat) (x : α) (t : Tbl α) (j : Nat) :
    Tbl.get d (Tbl.set d i x t) j = if j = i then x else Tbl.get d t j := by
  unfold Tbl.set
  split
  · next h =>
    rw [Tbl.get_eq_find, Tbl.find_drop, Tbl.get_eq_find, h]
    split <;> rfl
  · rw [Tbl.get_eq_find, Tbl.find_put, Tbl.get_eq_find]
    split <;> rfl

theorem Tbl.risingFrom_mono {α : Type} {a b : Nat} (h : a ≤ b) (t : Tbl α) (ht : Tbl.risingFrom (some b) t = true) :
    Tbl.risingFrom (some a) t = true := by
  cases t with
  | nil => rfl
  | cons p t =>
    obtain ⟨k, v⟩ := p
    simp only [Tbl.risingFrom, Bool.and_eq_true, decide_eq_true_eq] at ht ⊢
    exact ⟨by omega, ht.2⟩

theorem Tbl.risingFrom_none {α : Type} (b : Nat) (t : Tbl α) (ht : Tbl.risingFrom (some b) t = true) :
    Tbl.risingFrom none t = true := by
  cases t with
  | nil => rfl
  | cons p t =>
    obtain ⟨k, v⟩ := p
    simp only [Tbl.risingFrom, Bool.and_eq_true, decide_eq_true_eq] at ht ⊢
    exact ht.2

theorem Tbl.rising_put_from {α : Type} (b i : Nat) (x : α) (hb : b < i) (t : Tbl α) (ht : Tbl.risingFrom (some b) t = true) :
    Tbl.risingFrom (some b) (Tbl.put i x t) = true := by
  induction t generalizing b with
  | nil => simp [Tbl.put, Tbl.risingFrom, hb]
  | cons p t ih =>
    obtain ⟨k, v⟩ := p
    simp only [Tbl.risingFrom, Bool.and_eq_true, decide_eq_true_eq] at ht
    rcases Nat.lt_trichotomy k i with h | h | h
    · simp only [Tbl.put, h, if_true, Tbl.risingFrom, Bool.and_eq_true, decide_eq_true_eq]
      exact ⟨ht.1, ih k h ht.2⟩
    · subst h
      simp only [Tbl.put, Nat.lt_irrefl, if_false, if_true, Tbl.risingFrom, Bool.and_eq_true, decide_eq_true_eq]
      exact ht
    · have h1 : ¬ k < i := by omega
      have h2 : ¬ k = i := by omega
      simp only [Tbl.put, h1, h2, if_false, Tbl.risingFrom, Bool.and_eq_true, decide_eq_true_eq]
      exact ⟨hb, h, ht.2⟩

/-- Keys still rise after an entry is put. -/
theorem Tbl.rising_put {α : Type} (i : Nat) (x : α) (t : Tbl α) (ht : Tbl.risingFrom none t = true) :
    Tbl.risingFrom none (Tbl.put i x t) = true := by
  cases t with
  | nil => rfl
  | cons p t =>
    obtain ⟨k, v⟩ := p
    have hk : Tbl.risingFrom (some k) t = true := by simpa [Tbl.risingFrom] using ht
    rcases Nat.lt_trichotomy k i with h | h | h
    · simp only [Tbl.put, h, if_true, Tbl.risingFrom]
      exact Tbl.rising_put_from k i x h t hk
    · subst h
      simpa only [Tbl.put, Nat.lt_irrefl, if_false, if_true, Tbl.risingFrom] using hk
    · have h1 : ¬ k < i := by omega
      have h2 : ¬ k = i := by omega
      simp only [Tbl.put, h1, h2, if_false, Tbl.risingFrom, Bool.and_eq_true, decide_eq_true_eq]
      exact ⟨h, hk⟩

theorem Tbl.rising_drop_from {α : Type} (b i : Nat) (t : Tbl α) (ht : Tbl.risingFrom (some b) t = true) :
    Tbl.risingFrom (some b) (Tbl.drop i t) = true := by
  induction t generalizing b with
  | nil => rfl
  | cons p t ih =>
    obtain ⟨k, v⟩ := p
    simp only [Tbl.risingFrom, Bool.and_eq_true, decide_eq_true_eq] at ht
    unfold Tbl.drop
    split
    · exact Tbl.risingFrom_mono (by omega) _ (ih k ht.2)
    · simp only [Tbl.risingFrom, Bool.and_eq_true, decide_eq_true_eq]
      exact ⟨ht.1, ih k ht.2⟩

/-- Keys still rise after an entry is dropped. -/
theorem Tbl.rising_drop {α : Type} (i : Nat) (t : Tbl α) (ht : Tbl.risingFrom none t = true) :
    Tbl.risingFrom none (Tbl.drop i t) = true := by
  cases t with
  | nil => rfl
  | cons p t =>
    obtain ⟨k, v⟩ := p
    have hk : Tbl.risingFrom (some k) t = true := by simpa [Tbl.risingFrom] using ht
    unfold Tbl.drop
    split
    · exact Tbl.risingFrom_none k _ (Tbl.rising_drop_from k i t hk)
    · simpa only [Tbl.risingFrom] using Tbl.rising_drop_from k i t hk

/-- Keys still rise after a table is set. -/
theorem Tbl.rising_set {α : Type} [DecidableEq α] (d : α) (i : Nat) (x : α) (t : Tbl α) (ht : Tbl.risingFrom none t = true) :
    Tbl.risingFrom none (Tbl.set d i x t) = true := by
  unfold Tbl.set
  split
  · exact Tbl.rising_drop i t ht
  · exact Tbl.rising_put i x t ht

theorem Tbl.all_put {α : Type} (p : Nat × α → Bool) (i : Nat) (x : α) (hx : p (i, x) = true) (t : Tbl α) (ht : t.all p = true) :
    (Tbl.put i x t).all p = true := by
  induction t with
  | nil => simp [Tbl.put, hx]
  | cons q t ih =>
    obtain ⟨k, v⟩ := q
    simp only [List.all_cons, Bool.and_eq_true] at ht
    unfold Tbl.put
    split
    · simp [ht.1, ih ht.2]
    · split
      · simp [hx, ht.2]
      · simp [hx, ht.1, ht.2]

theorem Tbl.all_drop {α : Type} (p : Nat × α → Bool) (i : Nat) (t : Tbl α) (ht : t.all p = true) : (Tbl.drop i t).all p = true := by
  induction t with
  | nil => rfl
  | cons q t ih =>
    obtain ⟨k, v⟩ := q
    simp only [List.all_cons, Bool.and_eq_true] at ht
    unfold Tbl.drop
    split
    · exact ih ht.2
    · simp [ht.1, ih ht.2]

/-! ### Memory -/

/-- A byte after a byte is written. -/
theorem Mem.byte_setByte (m : Mem) (a : Nat) (b : Byte) (x : Nat) :
    (m.setByte a b).byte x = if x = a then b else m.byte x :=
  Tbl.get_set 0 a b m.cells x

/-- Writing a byte keeps the canonical form. -/
theorem Mem.wf_setByte (m : Mem) (h : m.wf = true) (a : Nat) (b : Byte) : (m.setByte a b).wf = true := by
  unfold Mem.wf at h ⊢
  rw [Bool.and_eq_true] at h ⊢
  refine ⟨Tbl.rising_set 0 a b m.cells h.1, ?_⟩
  unfold Mem.setByte Tbl.set
  split
  · exact Tbl.all_drop _ a m.cells h.2
  · next hb => exact Tbl.all_put (fun c : Nat × Byte => decide (c.2 ≠ 0)) a b (by simpa using hb) m.cells h.2

/-- Writing bytes keeps the canonical form. -/
theorem Mem.wf_setBytes (l : List Byte) (m : Mem) (h : m.wf = true) (a : Nat) : (m.setBytes a l).wf = true := by
  induction l generalizing m a with
  | nil => exact h
  | cons b t ih => exact ih (m.setByte a b) (Mem.wf_setByte m h a b) (a + 1)

/-- Writing a line keeps the canonical form. -/
theorem Mem.wf_setLine (m : Mem) (h : m.wf = true) (k : Nat) (x : Line) : (m.setLine k x).wf = true :=
  by simpa only [Mem.wf, Mem.setLine] using Mem.wf_setBytes (lineBytes x) m h (k * 64)

/-- Writing the poison pattern keeps the canonical form. -/
theorem Mem.wf_setBad (m : Mem) (h : m.wf = true) (k : Nat) : (m.setBad k).wf = true :=
  by simpa only [Mem.wf, Mem.setBad] using Mem.wf_setBytes (List.replicate 64 0) m h (k * 64)

/-- The bytes after bytes are written: those written, and every other as before. -/
theorem Mem.byte_setBytes (l : List Byte) (m : Mem) (a x : Nat) :
    (m.setBytes a l).byte x = if a ≤ x ∧ x < a + l.length then l.getD (x - a) 0 else m.byte x := by
  induction l generalizing m a with
  | nil =>
    have h0 : ¬ (a ≤ x ∧ x < a + ([] : List Byte).length) := by simp only [List.length_nil]; omega
    rw [if_neg h0]; rfl
  | cons b t ih =>
    simp only [Mem.setBytes, List.length_cons]
    rw [ih (m.setByte a b), Mem.byte_setByte m]
    rcases Nat.lt_trichotomy x a with hx | hx | hx
    · have h1 : ¬ (a + 1 ≤ x ∧ x < a + 1 + t.length) := by omega
      have h2 : ¬ (a ≤ x ∧ x < a + (t.length + 1)) := by omega
      have h3 : ¬ x = a := by omega
      rw [if_neg h1, if_neg h2, if_neg h3]
    · subst hx
      simp
    · have h3 : ¬ x = a := by omega
      by_cases h1 : a + 1 ≤ x ∧ x < a + 1 + t.length
      · have h2 : a ≤ x ∧ x < a + (t.length + 1) := by omega
        obtain ⟨n, rfl⟩ : ∃ n, x = a + 1 + n := ⟨x - (a + 1), by omega⟩
        have e1 : a + 1 + n - (a + 1) = n := by omega
        have e2 : a + 1 + n - a = n + 1 := by omega
        simp only [if_pos h1, if_pos h2, e1, e2, List.getD_cons_succ]
      · have h2 : ¬ (a ≤ x ∧ x < a + (t.length + 1)) := by omega
        rw [if_neg h1, if_neg h2, if_neg h3]

theorem Tbl.rising_filter_from {α : Type} (p : Nat × α → Bool) (b : Nat) (t : Tbl α) (ht : Tbl.risingFrom (some b) t = true) :
    Tbl.risingFrom (some b) (t.filter p) = true := by
  induction t generalizing b with
  | nil => rfl
  | cons q t ih =>
    obtain ⟨k, v⟩ := q
    simp only [Tbl.risingFrom, Bool.and_eq_true, decide_eq_true_eq] at ht
    rw [List.filter_cons]
    split
    · simp only [Tbl.risingFrom, Bool.and_eq_true, decide_eq_true_eq]
      exact ⟨ht.1, ih k ht.2⟩
    · exact Tbl.risingFrom_mono (by omega) _ (ih k ht.2)

theorem Tbl.rising_filter {α : Type} (p : Nat × α → Bool) (t : Tbl α) (ht : Tbl.risingFrom none t = true) :
    Tbl.risingFrom none (t.filter p) = true := by
  cases t with
  | nil => rfl
  | cons q t =>
    obtain ⟨k, v⟩ := q
    have hk : Tbl.risingFrom (some k) t = true := by simpa [Tbl.risingFrom] using ht
    rw [List.filter_cons]
    split
    · simpa only [Tbl.risingFrom] using Tbl.rising_filter_from p k t hk
    · exact Tbl.risingFrom_none k _ (Tbl.rising_filter_from p k t hk)

/-- Clearing part of the memory keeps the canonical form. -/
theorem Mem.wf_clear (m : Mem) (h : m.wf = true) (p : Nat → Bool) : (m.clear p).wf = true := by
  unfold Mem.wf at h ⊢
  rw [Bool.and_eq_true] at h ⊢
  refine ⟨Tbl.rising_filter _ m.cells h.1, ?_⟩
  simp only [Mem.clear, List.all_filter]
  rw [List.all_eq_true] at h ⊢
  intro c hc
  have hc' := h.2 c hc
  cases hp : p c.1 <;> simp_all

end Sys2Proof.Machine
end

