-- ==== Sys2Proof/Laws/State.lean ====
section
/-! SUPPORT. What each update of one field does to every field: one lemma for each, so that no proof unfolds a record update. -/

namespace Sys2Proof.Machine

@[simp] theorem State.onDev_dev (s : State) (f : Dev → Dev) : (s.onDev f).dev = f s.dev := rfl
@[simp] theorem State.onDev_nv (s : State) (f : Dev → Dev) : (s.onDev f).nv = s.nv := rfl
@[simp] theorem State.onDev_pending (s : State) (f : Dev → Dev) : (s.onDev f).pending = s.pending := rfl

@[simp] theorem Dev.setReg_now (a : Nat) (v : Word32) (d : Dev) : (d.setReg a v).now = d.now := rfl
@[simp] theorem Dev.setReg_draws (a : Nat) (v : Word32) (d : Dev) : (d.setReg a v).draws = d.draws := rfl
@[simp] theorem Dev.setReg_out (a : Nat) (v : Word32) (d : Dev) : (d.setReg a v).out = d.out := rfl
@[simp] theorem Dev.setReg_straps (a : Nat) (v : Word32) (d : Dev) : (d.setReg a v).straps = d.straps := rfl
@[simp] theorem Dev.setReg_mem (a : Nat) (v : Word32) (d : Dev) : (d.setReg a v).mem = d.mem := rfl
@[simp] theorem Dev.setReg_irq (a : Nat) (v : Word32) (d : Dev) : (d.setReg a v).irq = d.irq := rfl
@[simp] theorem Dev.setReg_ras (a : Nat) (v : Word32) (d : Dev) : (d.setReg a v).ras = d.ras := rfl
@[simp] theorem Dev.setReg_coh (a : Nat) (v : Word32) (d : Dev) : (d.setReg a v).coh = d.coh := rfl
@[simp] theorem Dev.setReg_tier (a : Nat) (v : Word32) (d : Dev) : (d.setReg a v).tier = d.tier := rfl
@[simp] theorem Dev.setReg_ddr (a : Nat) (v : Word32) (d : Dev) : (d.setReg a v).ddr = d.ddr := rfl
@[simp] theorem Dev.setReg_fab (a : Nat) (v : Word32) (d : Dev) : (d.setReg a v).fab = d.fab := rfl
@[simp] theorem Dev.setReg_parts (a : Nat) (v : Word32) (d : Dev) : (d.setReg a v).parts = d.parts := rfl
@[simp] theorem Dev.setReg_sec (a : Nat) (v : Word32) (d : Dev) : (d.setReg a v).sec = d.sec := rfl
@[simp] theorem Dev.setReg_gtc (a : Nat) (v : Word32) (d : Dev) : (d.setReg a v).gtc = d.gtc := rfl
@[simp] theorem Dev.setReg_sync (a : Nat) (v : Word32) (d : Dev) : (d.setReg a v).sync = d.sync := rfl
@[simp] theorem Dev.setReg_cmp (a : Nat) (v : Word32) (d : Dev) : (d.setReg a v).cmp = d.cmp := rfl
@[simp] theorem Dev.setReg_side (a : Nat) (v : Word32) (d : Dev) : (d.setReg a v).side = d.side := rfl
@[simp] theorem Dev.setReg_xlt (a : Nat) (v : Word32) (d : Dev) : (d.setReg a v).xlt = d.xlt := rfl
@[simp] theorem Dev.setReg_opq (a : Nat) (v : Word32) (d : Dev) : (d.setReg a v).opq = d.opq := rfl
@[simp] theorem Dev.setReg_micro (a : Nat) (v : Word32) (d : Dev) : (d.setReg a v).micro = d.micro := rfl
@[simp] theorem Dev.setReg_pwr (a : Nat) (v : Word32) (d : Dev) : (d.setReg a v).pwr = d.pwr := rfl
@[simp] theorem Dev.setReg_ctl (a : Nat) (v : Word32) (d : Dev) : (d.setReg a v).ctl = d.ctl := rfl
@[simp] theorem Dev.setReg_dawn (a : Nat) (v : Word32) (d : Dev) : (d.setReg a v).dawn = d.dawn := rfl
@[simp] theorem Dev.setReg_fw (a : Nat) (v : Word32) (d : Dev) : (d.setReg a v).fw = d.fw := rfl
@[simp] theorem Dev.setReg_cal (a : Nat) (v : Word32) (d : Dev) : (d.setReg a v).cal = d.cal := rfl
@[simp] theorem Dev.setReg_cores (a : Nat) (v : Word32) (d : Dev) : (d.setReg a v).cores = d.cores := rfl
@[simp] theorem Dev.setReg_lmap (a : Nat) (v : Word32) (d : Dev) : (d.setReg a v).lmap = d.lmap := rfl

@[simp] theorem Dev.setFld_now (a hi lo v : Nat) (d : Dev) : (d.setFld a hi lo v).now = d.now := rfl
@[simp] theorem Dev.setFld_draws (a hi lo v : Nat) (d : Dev) : (d.setFld a hi lo v).draws = d.draws := rfl
@[simp] theorem Dev.setFld_out (a hi lo v : Nat) (d : Dev) : (d.setFld a hi lo v).out = d.out := rfl
@[simp] theorem Dev.setFld_straps (a hi lo v : Nat) (d : Dev) : (d.setFld a hi lo v).straps = d.straps := rfl
@[simp] theorem Dev.setFld_mem (a hi lo v : Nat) (d : Dev) : (d.setFld a hi lo v).mem = d.mem := rfl
@[simp] theorem Dev.setFld_irq (a hi lo v : Nat) (d : Dev) : (d.setFld a hi lo v).irq = d.irq := rfl
@[simp] theorem Dev.setFld_ras (a hi lo v : Nat) (d : Dev) : (d.setFld a hi lo v).ras = d.ras := rfl
@[simp] theorem Dev.setFld_coh (a hi lo v : Nat) (d : Dev) : (d.setFld a hi lo v).coh = d.coh := rfl
@[simp] theorem Dev.setFld_tier (a hi lo v : Nat) (d : Dev) : (d.setFld a hi lo v).tier = d.tier := rfl
@[simp] theorem Dev.setFld_ddr (a hi lo v : Nat) (d : Dev) : (d.setFld a hi lo v).ddr = d.ddr := rfl
@[simp] theorem Dev.setFld_fab (a hi lo v : Nat) (d : Dev) : (d.setFld a hi lo v).fab = d.fab := rfl
@[simp] theorem Dev.setFld_parts (a hi lo v : Nat) (d : Dev) : (d.setFld a hi lo v).parts = d.parts := rfl
@[simp] theorem Dev.setFld_sec (a hi lo v : Nat) (d : Dev) : (d.setFld a hi lo v).sec = d.sec := rfl
@[simp] theorem Dev.setFld_gtc (a hi lo v : Nat) (d : Dev) : (d.setFld a hi lo v).gtc = d.gtc := rfl
@[simp] theorem Dev.setFld_sync (a hi lo v : Nat) (d : Dev) : (d.setFld a hi lo v).sync = d.sync := rfl
@[simp] theorem Dev.setFld_cmp (a hi lo v : Nat) (d : Dev) : (d.setFld a hi lo v).cmp = d.cmp := rfl
@[simp] theorem Dev.setFld_side (a hi lo v : Nat) (d : Dev) : (d.setFld a hi lo v).side = d.side := rfl
@[simp] theorem Dev.setFld_xlt (a hi lo v : Nat) (d : Dev) : (d.setFld a hi lo v).xlt = d.xlt := rfl
@[simp] theorem Dev.setFld_opq (a hi lo v : Nat) (d : Dev) : (d.setFld a hi lo v).opq = d.opq := rfl
@[simp] theorem Dev.setFld_micro (a hi lo v : Nat) (d : Dev) : (d.setFld a hi lo v).micro = d.micro := rfl
@[simp] theorem Dev.setFld_pwr (a hi lo v : Nat) (d : Dev) : (d.setFld a hi lo v).pwr = d.pwr := rfl
@[simp] theorem Dev.setFld_ctl (a hi lo v : Nat) (d : Dev) : (d.setFld a hi lo v).ctl = d.ctl := rfl
@[simp] theorem Dev.setFld_dawn (a hi lo v : Nat) (d : Dev) : (d.setFld a hi lo v).dawn = d.dawn := rfl
@[simp] theorem Dev.setFld_fw (a hi lo v : Nat) (d : Dev) : (d.setFld a hi lo v).fw = d.fw := rfl
@[simp] theorem Dev.setFld_cal (a hi lo v : Nat) (d : Dev) : (d.setFld a hi lo v).cal = d.cal := rfl
@[simp] theorem Dev.setFld_cores (a hi lo v : Nat) (d : Dev) : (d.setFld a hi lo v).cores = d.cores := rfl
@[simp] theorem Dev.setFld_lmap (a hi lo v : Nat) (d : Dev) : (d.setFld a hi lo v).lmap = d.lmap := rfl

@[simp] theorem Dev.bump_now (page off n : Nat) (d : Dev) : (d.bump page off n).now = d.now := rfl
@[simp] theorem Dev.bump_draws (page off n : Nat) (d : Dev) : (d.bump page off n).draws = d.draws := rfl
@[simp] theorem Dev.bump_out (page off n : Nat) (d : Dev) : (d.bump page off n).out = d.out := rfl
@[simp] theorem Dev.bump_straps (page off n : Nat) (d : Dev) : (d.bump page off n).straps = d.straps := rfl
@[simp] theorem Dev.bump_mem (page off n : Nat) (d : Dev) : (d.bump page off n).mem = d.mem := rfl
@[simp] theorem Dev.bump_irq (page off n : Nat) (d : Dev) : (d.bump page off n).irq = d.irq := rfl
@[simp] theorem Dev.bump_ras (page off n : Nat) (d : Dev) : (d.bump page off n).ras = d.ras := rfl
@[simp] theorem Dev.bump_coh (page off n : Nat) (d : Dev) : (d.bump page off n).coh = d.coh := rfl
@[simp] theorem Dev.bump_tier (page off n : Nat) (d : Dev) : (d.bump page off n).tier = d.tier := rfl
@[simp] theorem Dev.bump_ddr (page off n : Nat) (d : Dev) : (d.bump page off n).ddr = d.ddr := rfl
@[simp] theorem Dev.bump_fab (page off n : Nat) (d : Dev) : (d.bump page off n).fab = d.fab := rfl
@[simp] theorem Dev.bump_parts (page off n : Nat) (d : Dev) : (d.bump page off n).parts = d.parts := rfl
@[simp] theorem Dev.bump_sec (page off n : Nat) (d : Dev) : (d.bump page off n).sec = d.sec := rfl
@[simp] theorem Dev.bump_gtc (page off n : Nat) (d : Dev) : (d.bump page off n).gtc = d.gtc := rfl
@[simp] theorem Dev.bump_sync (page off n : Nat) (d : Dev) : (d.bump page off n).sync = d.sync := rfl
@[simp] theorem Dev.bump_cmp (page off n : Nat) (d : Dev) : (d.bump page off n).cmp = d.cmp := rfl
@[simp] theorem Dev.bump_side (page off n : Nat) (d : Dev) : (d.bump page off n).side = d.side := rfl
@[simp] theorem Dev.bump_xlt (page off n : Nat) (d : Dev) : (d.bump page off n).xlt = d.xlt := rfl
@[simp] theorem Dev.bump_opq (page off n : Nat) (d : Dev) : (d.bump page off n).opq = d.opq := rfl
@[simp] theorem Dev.bump_micro (page off n : Nat) (d : Dev) : (d.bump page off n).micro = d.micro := rfl
@[simp] theorem Dev.bump_pwr (page off n : Nat) (d : Dev) : (d.bump page off n).pwr = d.pwr := rfl
@[simp] theorem Dev.bump_ctl (page off n : Nat) (d : Dev) : (d.bump page off n).ctl = d.ctl := rfl
@[simp] theorem Dev.bump_dawn (page off n : Nat) (d : Dev) : (d.bump page off n).dawn = d.dawn := rfl
@[simp] theorem Dev.bump_fw (page off n : Nat) (d : Dev) : (d.bump page off n).fw = d.fw := rfl
@[simp] theorem Dev.bump_cal (page off n : Nat) (d : Dev) : (d.bump page off n).cal = d.cal := rfl
@[simp] theorem Dev.bump_cores (page off n : Nat) (d : Dev) : (d.bump page off n).cores = d.cores := rfl
@[simp] theorem Dev.bump_lmap (page off n : Nat) (d : Dev) : (d.bump page off n).lmap = d.lmap := rfl

@[simp] theorem Dev.cmdBegin_now (sts : Nat) (d : Dev) : (d.cmdBegin sts).now = d.now := rfl
@[simp] theorem Dev.cmdBegin_draws (sts : Nat) (d : Dev) : (d.cmdBegin sts).draws = d.draws := rfl
@[simp] theorem Dev.cmdBegin_out (sts : Nat) (d : Dev) : (d.cmdBegin sts).out = d.out := rfl
@[simp] theorem Dev.cmdBegin_straps (sts : Nat) (d : Dev) : (d.cmdBegin sts).straps = d.straps := rfl
@[simp] theorem Dev.cmdBegin_mem (sts : Nat) (d : Dev) : (d.cmdBegin sts).mem = d.mem := rfl
@[simp] theorem Dev.cmdBegin_irq (sts : Nat) (d : Dev) : (d.cmdBegin sts).irq = d.irq := rfl
@[simp] theorem Dev.cmdBegin_ras (sts : Nat) (d : Dev) : (d.cmdBegin sts).ras = d.ras := rfl
@[simp] theorem Dev.cmdBegin_coh (sts : Nat) (d : Dev) : (d.cmdBegin sts).coh = d.coh := rfl
@[simp] theorem Dev.cmdBegin_tier (sts : Nat) (d : Dev) : (d.cmdBegin sts).tier = d.tier := rfl
@[simp] theorem Dev.cmdBegin_ddr (sts : Nat) (d : Dev) : (d.cmdBegin sts).ddr = d.ddr := rfl
@[simp] theorem Dev.cmdBegin_fab (sts : Nat) (d : Dev) : (d.cmdBegin sts).fab = d.fab := rfl
@[simp] theorem Dev.cmdBegin_parts (sts : Nat) (d : Dev) : (d.cmdBegin sts).parts = d.parts := rfl
@[simp] theorem Dev.cmdBegin_sec (sts : Nat) (d : Dev) : (d.cmdBegin sts).sec = d.sec := rfl
@[simp] theorem Dev.cmdBegin_gtc (sts : Nat) (d : Dev) : (d.cmdBegin sts).gtc = d.gtc := rfl
@[simp] theorem Dev.cmdBegin_sync (sts : Nat) (d : Dev) : (d.cmdBegin sts).sync = d.sync := rfl
@[simp] theorem Dev.cmdBegin_cmp (sts : Nat) (d : Dev) : (d.cmdBegin sts).cmp = d.cmp := rfl
@[simp] theorem Dev.cmdBegin_side (sts : Nat) (d : Dev) : (d.cmdBegin sts).side = d.side := rfl
@[simp] theorem Dev.cmdBegin_xlt (sts : Nat) (d : Dev) : (d.cmdBegin sts).xlt = d.xlt := rfl
@[simp] theorem Dev.cmdBegin_opq (sts : Nat) (d : Dev) : (d.cmdBegin sts).opq = d.opq := rfl
@[simp] theorem Dev.cmdBegin_micro (sts : Nat) (d : Dev) : (d.cmdBegin sts).micro = d.micro := rfl
@[simp] theorem Dev.cmdBegin_pwr (sts : Nat) (d : Dev) : (d.cmdBegin sts).pwr = d.pwr := rfl
@[simp] theorem Dev.cmdBegin_ctl (sts : Nat) (d : Dev) : (d.cmdBegin sts).ctl = d.ctl := rfl
@[simp] theorem Dev.cmdBegin_dawn (sts : Nat) (d : Dev) : (d.cmdBegin sts).dawn = d.dawn := rfl
@[simp] theorem Dev.cmdBegin_fw (sts : Nat) (d : Dev) : (d.cmdBegin sts).fw = d.fw := rfl
@[simp] theorem Dev.cmdBegin_cal (sts : Nat) (d : Dev) : (d.cmdBegin sts).cal = d.cal := rfl
@[simp] theorem Dev.cmdBegin_cores (sts : Nat) (d : Dev) : (d.cmdBegin sts).cores = d.cores := rfl
@[simp] theorem Dev.cmdBegin_lmap (sts : Nat) (d : Dev) : (d.cmdBegin sts).lmap = d.lmap := rfl

@[simp] theorem Dev.alert_now (b : Nat) (d : Dev) : (d.alert b).now = d.now := rfl
@[simp] theorem Dev.alert_draws (b : Nat) (d : Dev) : (d.alert b).draws = d.draws := rfl
@[simp] theorem Dev.alert_out (b : Nat) (d : Dev) : (d.alert b).out = d.out := rfl
@[simp] theorem Dev.alert_straps (b : Nat) (d : Dev) : (d.alert b).straps = d.straps := rfl
@[simp] theorem Dev.alert_mem (b : Nat) (d : Dev) : (d.alert b).mem = d.mem := rfl
@[simp] theorem Dev.alert_irq (b : Nat) (d : Dev) : (d.alert b).irq = d.irq := rfl
@[simp] theorem Dev.alert_ras (b : Nat) (d : Dev) : (d.alert b).ras = d.ras := rfl
@[simp] theorem Dev.alert_coh (b : Nat) (d : Dev) : (d.alert b).coh = d.coh := rfl
@[simp] theorem Dev.alert_tier (b : Nat) (d : Dev) : (d.alert b).tier = d.tier := rfl
@[simp] theorem Dev.alert_ddr (b : Nat) (d : Dev) : (d.alert b).ddr = d.ddr := rfl
@[simp] theorem Dev.alert_fab (b : Nat) (d : Dev) : (d.alert b).fab = d.fab := rfl
@[simp] theorem Dev.alert_parts (b : Nat) (d : Dev) : (d.alert b).parts = d.parts := rfl
@[simp] theorem Dev.alert_sec (b : Nat) (d : Dev) : (d.alert b).sec = d.sec := rfl
@[simp] theorem Dev.alert_gtc (b : Nat) (d : Dev) : (d.alert b).gtc = d.gtc := rfl
@[simp] theorem Dev.alert_sync (b : Nat) (d : Dev) : (d.alert b).sync = d.sync := rfl
@[simp] theorem Dev.alert_cmp (b : Nat) (d : Dev) : (d.alert b).cmp = d.cmp := rfl
@[simp] theorem Dev.alert_side (b : Nat) (d : Dev) : (d.alert b).side = d.side := rfl
@[simp] theorem Dev.alert_xlt (b : Nat) (d : Dev) : (d.alert b).xlt = d.xlt := rfl
@[simp] theorem Dev.alert_opq (b : Nat) (d : Dev) : (d.alert b).opq = d.opq := rfl
@[simp] theorem Dev.alert_micro (b : Nat) (d : Dev) : (d.alert b).micro = d.micro := rfl
@[simp] theorem Dev.alert_pwr (b : Nat) (d : Dev) : (d.alert b).pwr = d.pwr := rfl
@[simp] theorem Dev.alert_ctl (b : Nat) (d : Dev) : (d.alert b).ctl = d.ctl := rfl
@[simp] theorem Dev.alert_dawn (b : Nat) (d : Dev) : (d.alert b).dawn = d.dawn := rfl
@[simp] theorem Dev.alert_fw (b : Nat) (d : Dev) : (d.alert b).fw = d.fw := rfl
@[simp] theorem Dev.alert_cal (b : Nat) (d : Dev) : (d.alert b).cal = d.cal := rfl
@[simp] theorem Dev.alert_cores (b : Nat) (d : Dev) : (d.alert b).cores = d.cores := rfl
@[simp] theorem Dev.alert_lmap (b : Nat) (d : Dev) : (d.alert b).lmap = d.lmap := rfl

@[simp] theorem Dev.unalert_now (b : Nat) (d : Dev) : (d.unalert b).now = d.now := rfl
@[simp] theorem Dev.unalert_draws (b : Nat) (d : Dev) : (d.unalert b).draws = d.draws := rfl
@[simp] theorem Dev.unalert_out (b : Nat) (d : Dev) : (d.unalert b).out = d.out := rfl
@[simp] theorem Dev.unalert_straps (b : Nat) (d : Dev) : (d.unalert b).straps = d.straps := rfl
@[simp] theorem Dev.unalert_mem (b : Nat) (d : Dev) : (d.unalert b).mem = d.mem := rfl
@[simp] theorem Dev.unalert_irq (b : Nat) (d : Dev) : (d.unalert b).irq = d.irq := rfl
@[simp] theorem Dev.unalert_ras (b : Nat) (d : Dev) : (d.unalert b).ras = d.ras := rfl
@[simp] theorem Dev.unalert_coh (b : Nat) (d : Dev) : (d.unalert b).coh = d.coh := rfl
@[simp] theorem Dev.unalert_tier (b : Nat) (d : Dev) : (d.unalert b).tier = d.tier := rfl
@[simp] theorem Dev.unalert_ddr (b : Nat) (d : Dev) : (d.unalert b).ddr = d.ddr := rfl
@[simp] theorem Dev.unalert_fab (b : Nat) (d : Dev) : (d.unalert b).fab = d.fab := rfl
@[simp] theorem Dev.unalert_parts (b : Nat) (d : Dev) : (d.unalert b).parts = d.parts := rfl
@[simp] theorem Dev.unalert_sec (b : Nat) (d : Dev) : (d.unalert b).sec = d.sec := rfl
@[simp] theorem Dev.unalert_gtc (b : Nat) (d : Dev) : (d.unalert b).gtc = d.gtc := rfl
@[simp] theorem Dev.unalert_sync (b : Nat) (d : Dev) : (d.unalert b).sync = d.sync := rfl
@[simp] theorem Dev.unalert_cmp (b : Nat) (d : Dev) : (d.unalert b).cmp = d.cmp := rfl
@[simp] theorem Dev.unalert_side (b : Nat) (d : Dev) : (d.unalert b).side = d.side := rfl
@[simp] theorem Dev.unalert_xlt (b : Nat) (d : Dev) : (d.unalert b).xlt = d.xlt := rfl
@[simp] theorem Dev.unalert_opq (b : Nat) (d : Dev) : (d.unalert b).opq = d.opq := rfl
@[simp] theorem Dev.unalert_micro (b : Nat) (d : Dev) : (d.unalert b).micro = d.micro := rfl
@[simp] theorem Dev.unalert_pwr (b : Nat) (d : Dev) : (d.unalert b).pwr = d.pwr := rfl
@[simp] theorem Dev.unalert_ctl (b : Nat) (d : Dev) : (d.unalert b).ctl = d.ctl := rfl
@[simp] theorem Dev.unalert_dawn (b : Nat) (d : Dev) : (d.unalert b).dawn = d.dawn := rfl
@[simp] theorem Dev.unalert_fw (b : Nat) (d : Dev) : (d.unalert b).fw = d.fw := rfl
@[simp] theorem Dev.unalert_cal (b : Nat) (d : Dev) : (d.unalert b).cal = d.cal := rfl
@[simp] theorem Dev.unalert_cores (b : Nat) (d : Dev) : (d.unalert b).cores = d.cores := rfl
@[simp] theorem Dev.unalert_lmap (b : Nat) (d : Dev) : (d.unalert b).lmap = d.lmap := rfl

@[simp] theorem Dev.nextCsn_now (d : Dev) : (d.nextCsn).now = d.now := rfl
@[simp] theorem Dev.nextCsn_draws (d : Dev) : (d.nextCsn).draws = d.draws := rfl
@[simp] theorem Dev.nextCsn_out (d : Dev) : (d.nextCsn).out = d.out := rfl
@[simp] theorem Dev.nextCsn_straps (d : Dev) : (d.nextCsn).straps = d.straps := rfl
@[simp] theorem Dev.nextCsn_mem (d : Dev) : (d.nextCsn).mem = d.mem := rfl
@[simp] theorem Dev.nextCsn_irq (d : Dev) : (d.nextCsn).irq = d.irq := rfl
@[simp] theorem Dev.nextCsn_ras (d : Dev) : (d.nextCsn).ras = d.ras := rfl
@[simp] theorem Dev.nextCsn_coh (d : Dev) : (d.nextCsn).coh = d.coh := rfl
@[simp] theorem Dev.nextCsn_tier (d : Dev) : (d.nextCsn).tier = d.tier := rfl
@[simp] theorem Dev.nextCsn_ddr (d : Dev) : (d.nextCsn).ddr = d.ddr := rfl
@[simp] theorem Dev.nextCsn_fab (d : Dev) : (d.nextCsn).fab = d.fab := rfl
@[simp] theorem Dev.nextCsn_parts (d : Dev) : (d.nextCsn).parts = d.parts := rfl
@[simp] theorem Dev.nextCsn_sec (d : Dev) : (d.nextCsn).sec = d.sec := rfl
@[simp] theorem Dev.nextCsn_gtc (d : Dev) : (d.nextCsn).gtc = d.gtc := rfl
@[simp] theorem Dev.nextCsn_sync (d : Dev) : (d.nextCsn).sync = d.sync := rfl
@[simp] theorem Dev.nextCsn_cmp (d : Dev) : (d.nextCsn).cmp = d.cmp := rfl
@[simp] theorem Dev.nextCsn_side (d : Dev) : (d.nextCsn).side = d.side := rfl
@[simp] theorem Dev.nextCsn_xlt (d : Dev) : (d.nextCsn).xlt = d.xlt := rfl
@[simp] theorem Dev.nextCsn_opq (d : Dev) : (d.nextCsn).opq = d.opq := rfl
@[simp] theorem Dev.nextCsn_micro (d : Dev) : (d.nextCsn).micro = d.micro := rfl
@[simp] theorem Dev.nextCsn_pwr (d : Dev) : (d.nextCsn).pwr = d.pwr := rfl
@[simp] theorem Dev.nextCsn_ctl (d : Dev) : (d.nextCsn).ctl = d.ctl := rfl
@[simp] theorem Dev.nextCsn_dawn (d : Dev) : (d.nextCsn).dawn = d.dawn := rfl
@[simp] theorem Dev.nextCsn_fw (d : Dev) : (d.nextCsn).fw = d.fw := rfl
@[simp] theorem Dev.nextCsn_cal (d : Dev) : (d.nextCsn).cal = d.cal := rfl
@[simp] theorem Dev.nextCsn_cores (d : Dev) : (d.nextCsn).cores = d.cores := rfl
@[simp] theorem Dev.nextCsn_lmap (d : Dev) : (d.nextCsn).lmap = d.lmap := rfl

@[simp] theorem Dev.emit_now (o : Out) (d : Dev) : (d.emit o).now = d.now := rfl
@[simp] theorem Dev.emit_draws (o : Out) (d : Dev) : (d.emit o).draws = d.draws := rfl
@[simp] theorem Dev.emit_out (o : Out) (d : Dev) : (d.emit o).out = d.out ++ [o] := rfl
@[simp] theorem Dev.emit_straps (o : Out) (d : Dev) : (d.emit o).straps = d.straps := rfl
@[simp] theorem Dev.emit_regs (o : Out) (d : Dev) : (d.emit o).regs = d.regs := rfl
@[simp] theorem Dev.emit_mem (o : Out) (d : Dev) : (d.emit o).mem = d.mem := rfl
@[simp] theorem Dev.emit_irq (o : Out) (d : Dev) : (d.emit o).irq = d.irq := rfl
@[simp] theorem Dev.emit_ras (o : Out) (d : Dev) : (d.emit o).ras = d.ras := rfl
@[simp] theorem Dev.emit_coh (o : Out) (d : Dev) : (d.emit o).coh = d.coh := rfl
@[simp] theorem Dev.emit_tier (o : Out) (d : Dev) : (d.emit o).tier = d.tier := rfl
@[simp] theorem Dev.emit_ddr (o : Out) (d : Dev) : (d.emit o).ddr = d.ddr := rfl
@[simp] theorem Dev.emit_fab (o : Out) (d : Dev) : (d.emit o).fab = d.fab := rfl
@[simp] theorem Dev.emit_parts (o : Out) (d : Dev) : (d.emit o).parts = d.parts := rfl
@[simp] theorem Dev.emit_sec (o : Out) (d : Dev) : (d.emit o).sec = d.sec := rfl
@[simp] theorem Dev.emit_gtc (o : Out) (d : Dev) : (d.emit o).gtc = d.gtc := rfl
@[simp] theorem Dev.emit_sync (o : Out) (d : Dev) : (d.emit o).sync = d.sync := rfl
@[simp] theorem Dev.emit_cmp (o : Out) (d : Dev) : (d.emit o).cmp = d.cmp := rfl
@[simp] theorem Dev.emit_side (o : Out) (d : Dev) : (d.emit o).side = d.side := rfl
@[simp] theorem Dev.emit_xlt (o : Out) (d : Dev) : (d.emit o).xlt = d.xlt := rfl
@[simp] theorem Dev.emit_opq (o : Out) (d : Dev) : (d.emit o).opq = d.opq := rfl
@[simp] theorem Dev.emit_micro (o : Out) (d : Dev) : (d.emit o).micro = d.micro := rfl
@[simp] theorem Dev.emit_pwr (o : Out) (d : Dev) : (d.emit o).pwr = d.pwr := rfl
@[simp] theorem Dev.emit_ctl (o : Out) (d : Dev) : (d.emit o).ctl = d.ctl := rfl
@[simp] theorem Dev.emit_dawn (o : Out) (d : Dev) : (d.emit o).dawn = d.dawn := rfl
@[simp] theorem Dev.emit_fw (o : Out) (d : Dev) : (d.emit o).fw = d.fw := rfl
@[simp] theorem Dev.emit_cal (o : Out) (d : Dev) : (d.emit o).cal = d.cal := rfl
@[simp] theorem Dev.emit_cores (o : Out) (d : Dev) : (d.emit o).cores = d.cores := rfl
@[simp] theorem Dev.emit_lmap (o : Out) (d : Dev) : (d.emit o).lmap = d.lmap := rfl

@[simp] theorem Dev.setVec_now (v : Nat) (x : MsgVector) (d : Dev) : (d.setVec v x).now = d.now := rfl
@[simp] theorem Dev.setVec_draws (v : Nat) (x : MsgVector) (d : Dev) : (d.setVec v x).draws = d.draws := rfl
@[simp] theorem Dev.setVec_out (v : Nat) (x : MsgVector) (d : Dev) : (d.setVec v x).out = d.out := rfl
@[simp] theorem Dev.setVec_straps (v : Nat) (x : MsgVector) (d : Dev) : (d.setVec v x).straps = d.straps := rfl
@[simp] theorem Dev.setVec_regs (v : Nat) (x : MsgVector) (d : Dev) : (d.setVec v x).regs = d.regs := rfl
@[simp] theorem Dev.setVec_mem (v : Nat) (x : MsgVector) (d : Dev) : (d.setVec v x).mem = d.mem := rfl
@[simp] theorem Dev.setVec_ras (v : Nat) (x : MsgVector) (d : Dev) : (d.setVec v x).ras = d.ras := rfl
@[simp] theorem Dev.setVec_coh (v : Nat) (x : MsgVector) (d : Dev) : (d.setVec v x).coh = d.coh := rfl
@[simp] theorem Dev.setVec_tier (v : Nat) (x : MsgVector) (d : Dev) : (d.setVec v x).tier = d.tier := rfl
@[simp] theorem Dev.setVec_ddr (v : Nat) (x : MsgVector) (d : Dev) : (d.setVec v x).ddr = d.ddr := rfl
@[simp] theorem Dev.setVec_fab (v : Nat) (x : MsgVector) (d : Dev) : (d.setVec v x).fab = d.fab := rfl
@[simp] theorem Dev.setVec_parts (v : Nat) (x : MsgVector) (d : Dev) : (d.setVec v x).parts = d.parts := rfl
@[simp] theorem Dev.setVec_sec (v : Nat) (x : MsgVector) (d : Dev) : (d.setVec v x).sec = d.sec := rfl
@[simp] theorem Dev.setVec_gtc (v : Nat) (x : MsgVector) (d : Dev) : (d.setVec v x).gtc = d.gtc := rfl
@[simp] theorem Dev.setVec_sync (v : Nat) (x : MsgVector) (d : Dev) : (d.setVec v x).sync = d.sync := rfl
@[simp] theorem Dev.setVec_cmp (v : Nat) (x : MsgVector) (d : Dev) : (d.setVec v x).cmp = d.cmp := rfl
@[simp] theorem Dev.setVec_side (v : Nat) (x : MsgVector) (d : Dev) : (d.setVec v x).side = d.side := rfl
@[simp] theorem Dev.setVec_xlt (v : Nat) (x : MsgVector) (d : Dev) : (d.setVec v x).xlt = d.xlt := rfl
@[simp] theorem Dev.setVec_opq (v : Nat) (x : MsgVector) (d : Dev) : (d.setVec v x).opq = d.opq := rfl
@[simp] theorem Dev.setVec_micro (v : Nat) (x : MsgVector) (d : Dev) : (d.setVec v x).micro = d.micro := rfl
@[simp] theorem Dev.setVec_pwr (v : Nat) (x : MsgVector) (d : Dev) : (d.setVec v x).pwr = d.pwr := rfl
@[simp] theorem Dev.setVec_ctl (v : Nat) (x : MsgVector) (d : Dev) : (d.setVec v x).ctl = d.ctl := rfl
@[simp] theorem Dev.setVec_dawn (v : Nat) (x : MsgVector) (d : Dev) : (d.setVec v x).dawn = d.dawn := rfl
@[simp] theorem Dev.setVec_fw (v : Nat) (x : MsgVector) (d : Dev) : (d.setVec v x).fw = d.fw := rfl
@[simp] theorem Dev.setVec_cal (v : Nat) (x : MsgVector) (d : Dev) : (d.setVec v x).cal = d.cal := rfl
@[simp] theorem Dev.setVec_cores (v : Nat) (x : MsgVector) (d : Dev) : (d.setVec v x).cores = d.cores := rfl
@[simp] theorem Dev.setVec_lmap (v : Nat) (x : MsgVector) (d : Dev) : (d.setVec v x).lmap = d.lmap := rfl

@[simp] theorem Dev.passCsn_now (e : Nat) (d : Dev) : (d.passCsn e).now = d.now := rfl
@[simp] theorem Dev.passCsn_draws (e : Nat) (d : Dev) : (d.passCsn e).draws = d.draws := rfl
@[simp] theorem Dev.passCsn_out (e : Nat) (d : Dev) : (d.passCsn e).out = d.out := rfl
@[simp] theorem Dev.passCsn_straps (e : Nat) (d : Dev) : (d.passCsn e).straps = d.straps := rfl
@[simp] theorem Dev.passCsn_regs (e : Nat) (d : Dev) : (d.passCsn e).regs = d.regs := rfl
@[simp] theorem Dev.passCsn_mem (e : Nat) (d : Dev) : (d.passCsn e).mem = d.mem := rfl
@[simp] theorem Dev.passCsn_irq (e : Nat) (d : Dev) : (d.passCsn e).irq = d.irq := rfl
@[simp] theorem Dev.passCsn_ras (e : Nat) (d : Dev) : (d.passCsn e).ras = d.ras := rfl
@[simp] theorem Dev.passCsn_coh (e : Nat) (d : Dev) : (d.passCsn e).coh = d.coh := rfl
@[simp] theorem Dev.passCsn_tier (e : Nat) (d : Dev) : (d.passCsn e).tier = d.tier := rfl
@[simp] theorem Dev.passCsn_ddr (e : Nat) (d : Dev) : (d.passCsn e).ddr = d.ddr := rfl
@[simp] theorem Dev.passCsn_fab (e : Nat) (d : Dev) : (d.passCsn e).fab = d.fab := rfl
@[simp] theorem Dev.passCsn_parts (e : Nat) (d : Dev) : (d.passCsn e).parts = d.parts := rfl
@[simp] theorem Dev.passCsn_sec (e : Nat) (d : Dev) : (d.passCsn e).sec = d.sec := rfl
@[simp] theorem Dev.passCsn_gtc (e : Nat) (d : Dev) : (d.passCsn e).gtc = d.gtc := rfl
@[simp] theorem Dev.passCsn_sync (e : Nat) (d : Dev) : (d.passCsn e).sync = d.sync := rfl
@[simp] theorem Dev.passCsn_cmp (e : Nat) (d : Dev) : (d.passCsn e).cmp = d.cmp := rfl
@[simp] theorem Dev.passCsn_side (e : Nat) (d : Dev) : (d.passCsn e).side = d.side := rfl
@[simp] theorem Dev.passCsn_xlt (e : Nat) (d : Dev) : (d.passCsn e).xlt = d.xlt := rfl
@[simp] theorem Dev.passCsn_opq (e : Nat) (d : Dev) : (d.passCsn e).opq = d.opq := rfl
@[simp] theorem Dev.passCsn_micro (e : Nat) (d : Dev) : (d.passCsn e).micro = d.micro := rfl
@[simp] theorem Dev.passCsn_pwr (e : Nat) (d : Dev) : (d.passCsn e).pwr = d.pwr := rfl
@[simp] theorem Dev.passCsn_dawn (e : Nat) (d : Dev) : (d.passCsn e).dawn = d.dawn := rfl
@[simp] theorem Dev.passCsn_fw (e : Nat) (d : Dev) : (d.passCsn e).fw = d.fw := rfl
@[simp] theorem Dev.passCsn_cal (e : Nat) (d : Dev) : (d.passCsn e).cal = d.cal := rfl
@[simp] theorem Dev.passCsn_cores (e : Nat) (d : Dev) : (d.passCsn e).cores = d.cores := rfl
@[simp] theorem Dev.passCsn_lmap (e : Nat) (d : Dev) : (d.passCsn e).lmap = d.lmap := rfl

@[simp] theorem Dev.holdCtl_now (m : CtlMsg) (d : Dev) : (d.holdCtl m).now = d.now := rfl
@[simp] theorem Dev.holdCtl_draws (m : CtlMsg) (d : Dev) : (d.holdCtl m).draws = d.draws := rfl
@[simp] theorem Dev.holdCtl_out (m : CtlMsg) (d : Dev) : (d.holdCtl m).out = d.out := rfl
@[simp] theorem Dev.holdCtl_straps (m : CtlMsg) (d : Dev) : (d.holdCtl m).straps = d.straps := rfl
@[simp] theorem Dev.holdCtl_regs (m : CtlMsg) (d : Dev) : (d.holdCtl m).regs = d.regs := rfl
@[simp] theorem Dev.holdCtl_mem (m : CtlMsg) (d : Dev) : (d.holdCtl m).mem = d.mem := rfl
@[simp] theorem Dev.holdCtl_irq (m : CtlMsg) (d : Dev) : (d.holdCtl m).irq = d.irq := rfl
@[simp] theorem Dev.holdCtl_ras (m : CtlMsg) (d : Dev) : (d.holdCtl m).ras = d.ras := rfl
@[simp] theorem Dev.holdCtl_coh (m : CtlMsg) (d : Dev) : (d.holdCtl m).coh = d.coh := rfl
@[simp] theorem Dev.holdCtl_tier (m : CtlMsg) (d : Dev) : (d.holdCtl m).tier = d.tier := rfl
@[simp] theorem Dev.holdCtl_ddr (m : CtlMsg) (d : Dev) : (d.holdCtl m).ddr = d.ddr := rfl
@[simp] theorem Dev.holdCtl_fab (m : CtlMsg) (d : Dev) : (d.holdCtl m).fab = d.fab := rfl
@[simp] theorem Dev.holdCtl_parts (m : CtlMsg) (d : Dev) : (d.holdCtl m).parts = d.parts := rfl
@[simp] theorem Dev.holdCtl_sec (m : CtlMsg) (d : Dev) : (d.holdCtl m).sec = d.sec := rfl
@[simp] theorem Dev.holdCtl_gtc (m : CtlMsg) (d : Dev) : (d.holdCtl m).gtc = d.gtc := rfl
@[simp] theorem Dev.holdCtl_sync (m : CtlMsg) (d : Dev) : (d.holdCtl m).sync = d.sync := rfl
@[simp] theorem Dev.holdCtl_cmp (m : CtlMsg) (d : Dev) : (d.holdCtl m).cmp = d.cmp := rfl
@[simp] theorem Dev.holdCtl_side (m : CtlMsg) (d : Dev) : (d.holdCtl m).side = d.side := rfl
@[simp] theorem Dev.holdCtl_xlt (m : CtlMsg) (d : Dev) : (d.holdCtl m).xlt = d.xlt := rfl
@[simp] theorem Dev.holdCtl_opq (m : CtlMsg) (d : Dev) : (d.holdCtl m).opq = d.opq := rfl
@[simp] theorem Dev.holdCtl_micro (m : CtlMsg) (d : Dev) : (d.holdCtl m).micro = d.micro := rfl
@[simp] theorem Dev.holdCtl_pwr (m : CtlMsg) (d : Dev) : (d.holdCtl m).pwr = d.pwr := rfl
@[simp] theorem Dev.holdCtl_dawn (m : CtlMsg) (d : Dev) : (d.holdCtl m).dawn = d.dawn := rfl
@[simp] theorem Dev.holdCtl_fw (m : CtlMsg) (d : Dev) : (d.holdCtl m).fw = d.fw := rfl
@[simp] theorem Dev.holdCtl_cal (m : CtlMsg) (d : Dev) : (d.holdCtl m).cal = d.cal := rfl
@[simp] theorem Dev.holdCtl_cores (m : CtlMsg) (d : Dev) : (d.holdCtl m).cores = d.cores := rfl
@[simp] theorem Dev.holdCtl_lmap (m : CtlMsg) (d : Dev) : (d.holdCtl m).lmap = d.lmap := rfl

@[simp] theorem Dev.modCoh_now (f : Coh → Coh) (d : Dev) : (d.modCoh f).now = d.now := rfl
@[simp] theorem Dev.modCoh_draws (f : Coh → Coh) (d : Dev) : (d.modCoh f).draws = d.draws := rfl
@[simp] theorem Dev.modCoh_out (f : Coh → Coh) (d : Dev) : (d.modCoh f).out = d.out := rfl
@[simp] theorem Dev.modCoh_straps (f : Coh → Coh) (d : Dev) : (d.modCoh f).straps = d.straps := rfl
@[simp] theorem Dev.modCoh_regs (f : Coh → Coh) (d : Dev) : (d.modCoh f).regs = d.regs := rfl
@[simp] theorem Dev.modCoh_mem (f : Coh → Coh) (d : Dev) : (d.modCoh f).mem = d.mem := rfl
@[simp] theorem Dev.modCoh_irq (f : Coh → Coh) (d : Dev) : (d.modCoh f).irq = d.irq := rfl
@[simp] theorem Dev.modCoh_ras (f : Coh → Coh) (d : Dev) : (d.modCoh f).ras = d.ras := rfl
@[simp] theorem Dev.modCoh_coh (f : Coh → Coh) (d : Dev) : (d.modCoh f).coh = f d.coh := rfl
@[simp] theorem Dev.modCoh_tier (f : Coh → Coh) (d : Dev) : (d.modCoh f).tier = d.tier := rfl
@[simp] theorem Dev.modCoh_ddr (f : Coh → Coh) (d : Dev) : (d.modCoh f).ddr = d.ddr := rfl
@[simp] theorem Dev.modCoh_fab (f : Coh → Coh) (d : Dev) : (d.modCoh f).fab = d.fab := rfl
@[simp] theorem Dev.modCoh_parts (f : Coh → Coh) (d : Dev) : (d.modCoh f).parts = d.parts := rfl
@[simp] theorem Dev.modCoh_sec (f : Coh → Coh) (d : Dev) : (d.modCoh f).sec = d.sec := rfl
@[simp] theorem Dev.modCoh_gtc (f : Coh → Coh) (d : Dev) : (d.modCoh f).gtc = d.gtc := rfl
@[simp] theorem Dev.modCoh_sync (f : Coh → Coh) (d : Dev) : (d.modCoh f).sync = d.sync := rfl
@[simp] theorem Dev.modCoh_cmp (f : Coh → Coh) (d : Dev) : (d.modCoh f).cmp = d.cmp := rfl
@[simp] theorem Dev.modCoh_side (f : Coh → Coh) (d : Dev) : (d.modCoh f).side = d.side := rfl
@[simp] theorem Dev.modCoh_xlt (f : Coh → Coh) (d : Dev) : (d.modCoh f).xlt = d.xlt := rfl
@[simp] theorem Dev.modCoh_opq (f : Coh → Coh) (d : Dev) : (d.modCoh f).opq = d.opq := rfl
@[simp] theorem Dev.modCoh_micro (f : Coh → Coh) (d : Dev) : (d.modCoh f).micro = d.micro := rfl
@[simp] theorem Dev.modCoh_pwr (f : Coh → Coh) (d : Dev) : (d.modCoh f).pwr = d.pwr := rfl
@[simp] theorem Dev.modCoh_ctl (f : Coh → Coh) (d : Dev) : (d.modCoh f).ctl = d.ctl := rfl
@[simp] theorem Dev.modCoh_dawn (f : Coh → Coh) (d : Dev) : (d.modCoh f).dawn = d.dawn := rfl
@[simp] theorem Dev.modCoh_fw (f : Coh → Coh) (d : Dev) : (d.modCoh f).fw = d.fw := rfl
@[simp] theorem Dev.modCoh_cal (f : Coh → Coh) (d : Dev) : (d.modCoh f).cal = d.cal := rfl
@[simp] theorem Dev.modCoh_cores (f : Coh → Coh) (d : Dev) : (d.modCoh f).cores = d.cores := rfl
@[simp] theorem Dev.modCoh_lmap (f : Coh → Coh) (d : Dev) : (d.modCoh f).lmap = d.lmap := rfl

@[simp] theorem Dev.setExt_now (i : Nat) (e : Ext) (d : Dev) : (d.setExt i e).now = d.now := rfl
@[simp] theorem Dev.setExt_draws (i : Nat) (e : Ext) (d : Dev) : (d.setExt i e).draws = d.draws := rfl
@[simp] theorem Dev.setExt_out (i : Nat) (e : Ext) (d : Dev) : (d.setExt i e).out = d.out := rfl
@[simp] theorem Dev.setExt_straps (i : Nat) (e : Ext) (d : Dev) : (d.setExt i e).straps = d.straps := rfl
@[simp] theorem Dev.setExt_regs (i : Nat) (e : Ext) (d : Dev) : (d.setExt i e).regs = d.regs := rfl
@[simp] theorem Dev.setExt_mem (i : Nat) (e : Ext) (d : Dev) : (d.setExt i e).mem = d.mem := rfl
@[simp] theorem Dev.setExt_irq (i : Nat) (e : Ext) (d : Dev) : (d.setExt i e).irq = d.irq := rfl
@[simp] theorem Dev.setExt_ras (i : Nat) (e : Ext) (d : Dev) : (d.setExt i e).ras = d.ras := rfl
@[simp] theorem Dev.setExt_tier (i : Nat) (e : Ext) (d : Dev) : (d.setExt i e).tier = d.tier := rfl
@[simp] theorem Dev.setExt_ddr (i : Nat) (e : Ext) (d : Dev) : (d.setExt i e).ddr = d.ddr := rfl
@[simp] theorem Dev.setExt_fab (i : Nat) (e : Ext) (d : Dev) : (d.setExt i e).fab = d.fab := rfl
@[simp] theorem Dev.setExt_parts (i : Nat) (e : Ext) (d : Dev) : (d.setExt i e).parts = d.parts := rfl
@[simp] theorem Dev.setExt_sec (i : Nat) (e : Ext) (d : Dev) : (d.setExt i e).sec = d.sec := rfl
@[simp] theorem Dev.setExt_gtc (i : Nat) (e : Ext) (d : Dev) : (d.setExt i e).gtc = d.gtc := rfl
@[simp] theorem Dev.setExt_sync (i : Nat) (e : Ext) (d : Dev) : (d.setExt i e).sync = d.sync := rfl
@[simp] theorem Dev.setExt_cmp (i : Nat) (e : Ext) (d : Dev) : (d.setExt i e).cmp = d.cmp := rfl
@[simp] theorem Dev.setExt_side (i : Nat) (e : Ext) (d : Dev) : (d.setExt i e).side = d.side := rfl
@[simp] theorem Dev.setExt_xlt (i : Nat) (e : Ext) (d : Dev) : (d.setExt i e).xlt = d.xlt := rfl
@[simp] theorem Dev.setExt_opq (i : Nat) (e : Ext) (d : Dev) : (d.setExt i e).opq = d.opq := rfl
@[simp] theorem Dev.setExt_micro (i : Nat) (e : Ext) (d : Dev) : (d.setExt i e).micro = d.micro := rfl
@[simp] theorem Dev.setExt_pwr (i : Nat) (e : Ext) (d : Dev) : (d.setExt i e).pwr = d.pwr := rfl
@[simp] theorem Dev.setExt_ctl (i : Nat) (e : Ext) (d : Dev) : (d.setExt i e).ctl = d.ctl := rfl
@[simp] theorem Dev.setExt_dawn (i : Nat) (e : Ext) (d : Dev) : (d.setExt i e).dawn = d.dawn := rfl
@[simp] theorem Dev.setExt_fw (i : Nat) (e : Ext) (d : Dev) : (d.setExt i e).fw = d.fw := rfl
@[simp] theorem Dev.setExt_cal (i : Nat) (e : Ext) (d : Dev) : (d.setExt i e).cal = d.cal := rfl
@[simp] theorem Dev.setExt_cores (i : Nat) (e : Ext) (d : Dev) : (d.setExt i e).cores = d.cores := rfl
@[simp] theorem Dev.setExt_lmap (i : Nat) (e : Ext) (d : Dev) : (d.setExt i e).lmap = d.lmap := rfl

@[simp] theorem Dev.setDir_now (l : Nat) (e : DirEnt) (d : Dev) : (d.setDir l e).now = d.now := rfl
@[simp] theorem Dev.setDir_draws (l : Nat) (e : DirEnt) (d : Dev) : (d.setDir l e).draws = d.draws := rfl
@[simp] theorem Dev.setDir_out (l : Nat) (e : DirEnt) (d : Dev) : (d.setDir l e).out = d.out := rfl
@[simp] theorem Dev.setDir_straps (l : Nat) (e : DirEnt) (d : Dev) : (d.setDir l e).straps = d.straps := rfl
@[simp] theorem Dev.setDir_regs (l : Nat) (e : DirEnt) (d : Dev) : (d.setDir l e).regs = d.regs := rfl
@[simp] theorem Dev.setDir_mem (l : Nat) (e : DirEnt) (d : Dev) : (d.setDir l e).mem = d.mem := rfl
@[simp] theorem Dev.setDir_irq (l : Nat) (e : DirEnt) (d : Dev) : (d.setDir l e).irq = d.irq := rfl
@[simp] theorem Dev.setDir_ras (l : Nat) (e : DirEnt) (d : Dev) : (d.setDir l e).ras = d.ras := rfl
@[simp] theorem Dev.setDir_tier (l : Nat) (e : DirEnt) (d : Dev) : (d.setDir l e).tier = d.tier := rfl
@[simp] theorem Dev.setDir_ddr (l : Nat) (e : DirEnt) (d : Dev) : (d.setDir l e).ddr = d.ddr := rfl
@[simp] theorem Dev.setDir_fab (l : Nat) (e : DirEnt) (d : Dev) : (d.setDir l e).fab = d.fab := rfl
@[simp] theorem Dev.setDir_parts (l : Nat) (e : DirEnt) (d : Dev) : (d.setDir l e).parts = d.parts := rfl
@[simp] theorem Dev.setDir_sec (l : Nat) (e : DirEnt) (d : Dev) : (d.setDir l e).sec = d.sec := rfl
@[simp] theorem Dev.setDir_gtc (l : Nat) (e : DirEnt) (d : Dev) : (d.setDir l e).gtc = d.gtc := rfl
@[simp] theorem Dev.setDir_sync (l : Nat) (e : DirEnt) (d : Dev) : (d.setDir l e).sync = d.sync := rfl
@[simp] theorem Dev.setDir_cmp (l : Nat) (e : DirEnt) (d : Dev) : (d.setDir l e).cmp = d.cmp := rfl
@[simp] theorem Dev.setDir_side (l : Nat) (e : DirEnt) (d : Dev) : (d.setDir l e).side = d.side := rfl
@[simp] theorem Dev.setDir_xlt (l : Nat) (e : DirEnt) (d : Dev) : (d.setDir l e).xlt = d.xlt := rfl
@[simp] theorem Dev.setDir_opq (l : Nat) (e : DirEnt) (d : Dev) : (d.setDir l e).opq = d.opq := rfl
@[simp] theorem Dev.setDir_micro (l : Nat) (e : DirEnt) (d : Dev) : (d.setDir l e).micro = d.micro := rfl
@[simp] theorem Dev.setDir_pwr (l : Nat) (e : DirEnt) (d : Dev) : (d.setDir l e).pwr = d.pwr := rfl
@[simp] theorem Dev.setDir_ctl (l : Nat) (e : DirEnt) (d : Dev) : (d.setDir l e).ctl = d.ctl := rfl
@[simp] theorem Dev.setDir_dawn (l : Nat) (e : DirEnt) (d : Dev) : (d.setDir l e).dawn = d.dawn := rfl
@[simp] theorem Dev.setDir_fw (l : Nat) (e : DirEnt) (d : Dev) : (d.setDir l e).fw = d.fw := rfl
@[simp] theorem Dev.setDir_cal (l : Nat) (e : DirEnt) (d : Dev) : (d.setDir l e).cal = d.cal := rfl
@[simp] theorem Dev.setDir_cores (l : Nat) (e : DirEnt) (d : Dev) : (d.setDir l e).cores = d.cores := rfl
@[simp] theorem Dev.setDir_lmap (l : Nat) (e : DirEnt) (d : Dev) : (d.setDir l e).lmap = d.lmap := rfl

@[simp] theorem Dev.setTx_now (l : Nat) (t : LineTx) (d : Dev) : (d.setTx l t).now = d.now := rfl
@[simp] theorem Dev.setTx_draws (l : Nat) (t : LineTx) (d : Dev) : (d.setTx l t).draws = d.draws := rfl
@[simp] theorem Dev.setTx_out (l : Nat) (t : LineTx) (d : Dev) : (d.setTx l t).out = d.out := rfl
@[simp] theorem Dev.setTx_straps (l : Nat) (t : LineTx) (d : Dev) : (d.setTx l t).straps = d.straps := rfl
@[simp] theorem Dev.setTx_regs (l : Nat) (t : LineTx) (d : Dev) : (d.setTx l t).regs = d.regs := rfl
@[simp] theorem Dev.setTx_mem (l : Nat) (t : LineTx) (d : Dev) : (d.setTx l t).mem = d.mem := rfl
@[simp] theorem Dev.setTx_irq (l : Nat) (t : LineTx) (d : Dev) : (d.setTx l t).irq = d.irq := rfl
@[simp] theorem Dev.setTx_ras (l : Nat) (t : LineTx) (d : Dev) : (d.setTx l t).ras = d.ras := rfl
@[simp] theorem Dev.setTx_tier (l : Nat) (t : LineTx) (d : Dev) : (d.setTx l t).tier = d.tier := rfl
@[simp] theorem Dev.setTx_ddr (l : Nat) (t : LineTx) (d : Dev) : (d.setTx l t).ddr = d.ddr := rfl
@[simp] theorem Dev.setTx_fab (l : Nat) (t : LineTx) (d : Dev) : (d.setTx l t).fab = d.fab := rfl
@[simp] theorem Dev.setTx_parts (l : Nat) (t : LineTx) (d : Dev) : (d.setTx l t).parts = d.parts := rfl
@[simp] theorem Dev.setTx_sec (l : Nat) (t : LineTx) (d : Dev) : (d.setTx l t).sec = d.sec := rfl
@[simp] theorem Dev.setTx_gtc (l : Nat) (t : LineTx) (d : Dev) : (d.setTx l t).gtc = d.gtc := rfl
@[simp] theorem Dev.setTx_sync (l : Nat) (t : LineTx) (d : Dev) : (d.setTx l t).sync = d.sync := rfl
@[simp] theorem Dev.setTx_cmp (l : Nat) (t : LineTx) (d : Dev) : (d.setTx l t).cmp = d.cmp := rfl
@[simp] theorem Dev.setTx_side (l : Nat) (t : LineTx) (d : Dev) : (d.setTx l t).side = d.side := rfl
@[simp] theorem Dev.setTx_xlt (l : Nat) (t : LineTx) (d : Dev) : (d.setTx l t).xlt = d.xlt := rfl
@[simp] theorem Dev.setTx_opq (l : Nat) (t : LineTx) (d : Dev) : (d.setTx l t).opq = d.opq := rfl
@[simp] theorem Dev.setTx_micro (l : Nat) (t : LineTx) (d : Dev) : (d.setTx l t).micro = d.micro := rfl
@[simp] theorem Dev.setTx_pwr (l : Nat) (t : LineTx) (d : Dev) : (d.setTx l t).pwr = d.pwr := rfl
@[simp] theorem Dev.setTx_ctl (l : Nat) (t : LineTx) (d : Dev) : (d.setTx l t).ctl = d.ctl := rfl
@[simp] theorem Dev.setTx_dawn (l : Nat) (t : LineTx) (d : Dev) : (d.setTx l t).dawn = d.dawn := rfl
@[simp] theorem Dev.setTx_fw (l : Nat) (t : LineTx) (d : Dev) : (d.setTx l t).fw = d.fw := rfl
@[simp] theorem Dev.setTx_cal (l : Nat) (t : LineTx) (d : Dev) : (d.setTx l t).cal = d.cal := rfl
@[simp] theorem Dev.setTx_cores (l : Nat) (t : LineTx) (d : Dev) : (d.setTx l t).cores = d.cores := rfl
@[simp] theorem Dev.setTx_lmap (l : Nat) (t : LineTx) (d : Dev) : (d.setTx l t).lmap = d.lmap := rfl

@[simp] theorem Dev.setHost_now (n : NodeId) (x : HostRec) (d : Dev) : (d.setHost n x).now = d.now := rfl
@[simp] theorem Dev.setHost_draws (n : NodeId) (x : HostRec) (d : Dev) : (d.setHost n x).draws = d.draws := rfl
@[simp] theorem Dev.setHost_out (n : NodeId) (x : HostRec) (d : Dev) : (d.setHost n x).out = d.out := rfl
@[simp] theorem Dev.setHost_straps (n : NodeId) (x : HostRec) (d : Dev) : (d.setHost n x).straps = d.straps := rfl
@[simp] theorem Dev.setHost_regs (n : NodeId) (x : HostRec) (d : Dev) : (d.setHost n x).regs = d.regs := rfl
@[simp] theorem Dev.setHost_mem (n : NodeId) (x : HostRec) (d : Dev) : (d.setHost n x).mem = d.mem := rfl
@[simp] theorem Dev.setHost_irq (n : NodeId) (x : HostRec) (d : Dev) : (d.setHost n x).irq = d.irq := rfl
@[simp] theorem Dev.setHost_ras (n : NodeId) (x : HostRec) (d : Dev) : (d.setHost n x).ras = d.ras := rfl
@[simp] theorem Dev.setHost_tier (n : NodeId) (x : HostRec) (d : Dev) : (d.setHost n x).tier = d.tier := rfl
@[simp] theorem Dev.setHost_ddr (n : NodeId) (x : HostRec) (d : Dev) : (d.setHost n x).ddr = d.ddr := rfl
@[simp] theorem Dev.setHost_fab (n : NodeId) (x : HostRec) (d : Dev) : (d.setHost n x).fab = d.fab := rfl
@[simp] theorem Dev.setHost_parts (n : NodeId) (x : HostRec) (d : Dev) : (d.setHost n x).parts = d.parts := rfl
@[simp] theorem Dev.setHost_sec (n : NodeId) (x : HostRec) (d : Dev) : (d.setHost n x).sec = d.sec := rfl
@[simp] theorem Dev.setHost_gtc (n : NodeId) (x : HostRec) (d : Dev) : (d.setHost n x).gtc = d.gtc := rfl
@[simp] theorem Dev.setHost_sync (n : NodeId) (x : HostRec) (d : Dev) : (d.setHost n x).sync = d.sync := rfl
@[simp] theorem Dev.setHost_cmp (n : NodeId) (x : HostRec) (d : Dev) : (d.setHost n x).cmp = d.cmp := rfl
@[simp] theorem Dev.setHost_side (n : NodeId) (x : HostRec) (d : Dev) : (d.setHost n x).side = d.side := rfl
@[simp] theorem Dev.setHost_xlt (n : NodeId) (x : HostRec) (d : Dev) : (d.setHost n x).xlt = d.xlt := rfl
@[simp] theorem Dev.setHost_opq (n : NodeId) (x : HostRec) (d : Dev) : (d.setHost n x).opq = d.opq := rfl
@[simp] theorem Dev.setHost_micro (n : NodeId) (x : HostRec) (d : Dev) : (d.setHost n x).micro = d.micro := rfl
@[simp] theorem Dev.setHost_pwr (n : NodeId) (x : HostRec) (d : Dev) : (d.setHost n x).pwr = d.pwr := rfl
@[simp] theorem Dev.setHost_ctl (n : NodeId) (x : HostRec) (d : Dev) : (d.setHost n x).ctl = d.ctl := rfl
@[simp] theorem Dev.setHost_dawn (n : NodeId) (x : HostRec) (d : Dev) : (d.setHost n x).dawn = d.dawn := rfl
@[simp] theorem Dev.setHost_fw (n : NodeId) (x : HostRec) (d : Dev) : (d.setHost n x).fw = d.fw := rfl
@[simp] theorem Dev.setHost_cal (n : NodeId) (x : HostRec) (d : Dev) : (d.setHost n x).cal = d.cal := rfl
@[simp] theorem Dev.setHost_cores (n : NodeId) (x : HostRec) (d : Dev) : (d.setHost n x).cores = d.cores := rfl
@[simp] theorem Dev.setHost_lmap (n : NodeId) (x : HostRec) (d : Dev) : (d.setHost n x).lmap = d.lmap := rfl

@[simp] theorem Dev.modTier_now (f : Tier → Tier) (d : Dev) : (d.modTier f).now = d.now := rfl
@[simp] theorem Dev.modTier_draws (f : Tier → Tier) (d : Dev) : (d.modTier f).draws = d.draws := rfl
@[simp] theorem Dev.modTier_out (f : Tier → Tier) (d : Dev) : (d.modTier f).out = d.out := rfl
@[simp] theorem Dev.modTier_straps (f : Tier → Tier) (d : Dev) : (d.modTier f).straps = d.straps := rfl
@[simp] theorem Dev.modTier_regs (f : Tier → Tier) (d : Dev) : (d.modTier f).regs = d.regs := rfl
@[simp] theorem Dev.modTier_mem (f : Tier → Tier) (d : Dev) : (d.modTier f).mem = d.mem := rfl
@[simp] theorem Dev.modTier_irq (f : Tier → Tier) (d : Dev) : (d.modTier f).irq = d.irq := rfl
@[simp] theorem Dev.modTier_ras (f : Tier → Tier) (d : Dev) : (d.modTier f).ras = d.ras := rfl
@[simp] theorem Dev.modTier_coh (f : Tier → Tier) (d : Dev) : (d.modTier f).coh = d.coh := rfl
@[simp] theorem Dev.modTier_tier (f : Tier → Tier) (d : Dev) : (d.modTier f).tier = f d.tier := rfl
@[simp] theorem Dev.modTier_ddr (f : Tier → Tier) (d : Dev) : (d.modTier f).ddr = d.ddr := rfl
@[simp] theorem Dev.modTier_fab (f : Tier → Tier) (d : Dev) : (d.modTier f).fab = d.fab := rfl
@[simp] theorem Dev.modTier_parts (f : Tier → Tier) (d : Dev) : (d.modTier f).parts = d.parts := rfl
@[simp] theorem Dev.modTier_sec (f : Tier → Tier) (d : Dev) : (d.modTier f).sec = d.sec := rfl
@[simp] theorem Dev.modTier_gtc (f : Tier → Tier) (d : Dev) : (d.modTier f).gtc = d.gtc := rfl
@[simp] theorem Dev.modTier_sync (f : Tier → Tier) (d : Dev) : (d.modTier f).sync = d.sync := rfl
@[simp] theorem Dev.modTier_cmp (f : Tier → Tier) (d : Dev) : (d.modTier f).cmp = d.cmp := rfl
@[simp] theorem Dev.modTier_side (f : Tier → Tier) (d : Dev) : (d.modTier f).side = d.side := rfl
@[simp] theorem Dev.modTier_xlt (f : Tier → Tier) (d : Dev) : (d.modTier f).xlt = d.xlt := rfl
@[simp] theorem Dev.modTier_opq (f : Tier → Tier) (d : Dev) : (d.modTier f).opq = d.opq := rfl
@[simp] theorem Dev.modTier_micro (f : Tier → Tier) (d : Dev) : (d.modTier f).micro = d.micro := rfl
@[simp] theorem Dev.modTier_pwr (f : Tier → Tier) (d : Dev) : (d.modTier f).pwr = d.pwr := rfl
@[simp] theorem Dev.modTier_ctl (f : Tier → Tier) (d : Dev) : (d.modTier f).ctl = d.ctl := rfl
@[simp] theorem Dev.modTier_dawn (f : Tier → Tier) (d : Dev) : (d.modTier f).dawn = d.dawn := rfl
@[simp] theorem Dev.modTier_fw (f : Tier → Tier) (d : Dev) : (d.modTier f).fw = d.fw := rfl
@[simp] theorem Dev.modTier_cal (f : Tier → Tier) (d : Dev) : (d.modTier f).cal = d.cal := rfl
@[simp] theorem Dev.modTier_cores (f : Tier → Tier) (d : Dev) : (d.modTier f).cores = d.cores := rfl
@[simp] theorem Dev.modTier_lmap (f : Tier → Tier) (d : Dev) : (d.modTier f).lmap = d.lmap := rfl

@[simp] theorem Dev.modPart_now (p : PartId) (f : Part → Part) (d : Dev) : (d.modPart p f).now = d.now := rfl
@[simp] theorem Dev.modPart_draws (p : PartId) (f : Part → Part) (d : Dev) : (d.modPart p f).draws = d.draws := rfl
@[simp] theorem Dev.modPart_out (p : PartId) (f : Part → Part) (d : Dev) : (d.modPart p f).out = d.out := rfl
@[simp] theorem Dev.modPart_straps (p : PartId) (f : Part → Part) (d : Dev) : (d.modPart p f).straps = d.straps := rfl
@[simp] theorem Dev.modPart_regs (p : PartId) (f : Part → Part) (d : Dev) : (d.modPart p f).regs = d.regs := rfl
@[simp] theorem Dev.modPart_mem (p : PartId) (f : Part → Part) (d : Dev) : (d.modPart p f).mem = d.mem := rfl
@[simp] theorem Dev.modPart_irq (p : PartId) (f : Part → Part) (d : Dev) : (d.modPart p f).irq = d.irq := rfl
@[simp] theorem Dev.modPart_ras (p : PartId) (f : Part → Part) (d : Dev) : (d.modPart p f).ras = d.ras := rfl
@[simp] theorem Dev.modPart_coh (p : PartId) (f : Part → Part) (d : Dev) : (d.modPart p f).coh = d.coh := rfl
@[simp] theorem Dev.modPart_tier (p : PartId) (f : Part → Part) (d : Dev) : (d.modPart p f).tier = d.tier := rfl
@[simp] theorem Dev.modPart_ddr (p : PartId) (f : Part → Part) (d : Dev) : (d.modPart p f).ddr = d.ddr := rfl
@[simp] theorem Dev.modPart_fab (p : PartId) (f : Part → Part) (d : Dev) : (d.modPart p f).fab = d.fab := rfl
@[simp] theorem Dev.modPart_sec (p : PartId) (f : Part → Part) (d : Dev) : (d.modPart p f).sec = d.sec := rfl
@[simp] theorem Dev.modPart_gtc (p : PartId) (f : Part → Part) (d : Dev) : (d.modPart p f).gtc = d.gtc := rfl
@[simp] theorem Dev.modPart_sync (p : PartId) (f : Part → Part) (d : Dev) : (d.modPart p f).sync = d.sync := rfl
@[simp] theorem Dev.modPart_cmp (p : PartId) (f : Part → Part) (d : Dev) : (d.modPart p f).cmp = d.cmp := rfl
@[simp] theorem Dev.modPart_side (p : PartId) (f : Part → Part) (d : Dev) : (d.modPart p f).side = d.side := rfl
@[simp] theorem Dev.modPart_xlt (p : PartId) (f : Part → Part) (d : Dev) : (d.modPart p f).xlt = d.xlt := rfl
@[simp] theorem Dev.modPart_opq (p : PartId) (f : Part → Part) (d : Dev) : (d.modPart p f).opq = d.opq := rfl
@[simp] theorem Dev.modPart_micro (p : PartId) (f : Part → Part) (d : Dev) : (d.modPart p f).micro = d.micro := rfl
@[simp] theorem Dev.modPart_pwr (p : PartId) (f : Part → Part) (d : Dev) : (d.modPart p f).pwr = d.pwr := rfl
@[simp] theorem Dev.modPart_ctl (p : PartId) (f : Part → Part) (d : Dev) : (d.modPart p f).ctl = d.ctl := rfl
@[simp] theorem Dev.modPart_dawn (p : PartId) (f : Part → Part) (d : Dev) : (d.modPart p f).dawn = d.dawn := rfl
@[simp] theorem Dev.modPart_fw (p : PartId) (f : Part → Part) (d : Dev) : (d.modPart p f).fw = d.fw := rfl
@[simp] theorem Dev.modPart_cal (p : PartId) (f : Part → Part) (d : Dev) : (d.modPart p f).cal = d.cal := rfl
@[simp] theorem Dev.modPart_cores (p : PartId) (f : Part → Part) (d : Dev) : (d.modPart p f).cores = d.cores := rfl
@[simp] theorem Dev.modPart_lmap (p : PartId) (f : Part → Part) (d : Dev) : (d.modPart p f).lmap = d.lmap := rfl

@[simp] theorem Dev.setChan_now (c : Nat) (x : DdrChan) (d : Dev) : (d.setChan c x).now = d.now := rfl
@[simp] theorem Dev.setChan_draws (c : Nat) (x : DdrChan) (d : Dev) : (d.setChan c x).draws = d.draws := rfl
@[simp] theorem Dev.setChan_out (c : Nat) (x : DdrChan) (d : Dev) : (d.setChan c x).out = d.out := rfl
@[simp] theorem Dev.setChan_straps (c : Nat) (x : DdrChan) (d : Dev) : (d.setChan c x).straps = d.straps := rfl
@[simp] theorem Dev.setChan_regs (c : Nat) (x : DdrChan) (d : Dev) : (d.setChan c x).regs = d.regs := rfl
@[simp] theorem Dev.setChan_mem (c : Nat) (x : DdrChan) (d : Dev) : (d.setChan c x).mem = d.mem := rfl
@[simp] theorem Dev.setChan_irq (c : Nat) (x : DdrChan) (d : Dev) : (d.setChan c x).irq = d.irq := rfl
@[simp] theorem Dev.setChan_ras (c : Nat) (x : DdrChan) (d : Dev) : (d.setChan c x).ras = d.ras := rfl
@[simp] theorem Dev.setChan_coh (c : Nat) (x : DdrChan) (d : Dev) : (d.setChan c x).coh = d.coh := rfl
@[simp] theorem Dev.setChan_tier (c : Nat) (x : DdrChan) (d : Dev) : (d.setChan c x).tier = d.tier := rfl
@[simp] theorem Dev.setChan_fab (c : Nat) (x : DdrChan) (d : Dev) : (d.setChan c x).fab = d.fab := rfl
@[simp] theorem Dev.setChan_parts (c : Nat) (x : DdrChan) (d : Dev) : (d.setChan c x).parts = d.parts := rfl
@[simp] theorem Dev.setChan_sec (c : Nat) (x : DdrChan) (d : Dev) : (d.setChan c x).sec = d.sec := rfl
@[simp] theorem Dev.setChan_gtc (c : Nat) (x : DdrChan) (d : Dev) : (d.setChan c x).gtc = d.gtc := rfl
@[simp] theorem Dev.setChan_sync (c : Nat) (x : DdrChan) (d : Dev) : (d.setChan c x).sync = d.sync := rfl
@[simp] theorem Dev.setChan_cmp (c : Nat) (x : DdrChan) (d : Dev) : (d.setChan c x).cmp = d.cmp := rfl
@[simp] theorem Dev.setChan_side (c : Nat) (x : DdrChan) (d : Dev) : (d.setChan c x).side = d.side := rfl
@[simp] theorem Dev.setChan_xlt (c : Nat) (x : DdrChan) (d : Dev) : (d.setChan c x).xlt = d.xlt := rfl
@[simp] theorem Dev.setChan_opq (c : Nat) (x : DdrChan) (d : Dev) : (d.setChan c x).opq = d.opq := rfl
@[simp] theorem Dev.setChan_micro (c : Nat) (x : DdrChan) (d : Dev) : (d.setChan c x).micro = d.micro := rfl
@[simp] theorem Dev.setChan_pwr (c : Nat) (x : DdrChan) (d : Dev) : (d.setChan c x).pwr = d.pwr := rfl
@[simp] theorem Dev.setChan_ctl (c : Nat) (x : DdrChan) (d : Dev) : (d.setChan c x).ctl = d.ctl := rfl
@[simp] theorem Dev.setChan_dawn (c : Nat) (x : DdrChan) (d : Dev) : (d.setChan c x).dawn = d.dawn := rfl
@[simp] theorem Dev.setChan_fw (c : Nat) (x : DdrChan) (d : Dev) : (d.setChan c x).fw = d.fw := rfl
@[simp] theorem Dev.setChan_cal (c : Nat) (x : DdrChan) (d : Dev) : (d.setChan c x).cal = d.cal := rfl
@[simp] theorem Dev.setChan_cores (c : Nat) (x : DdrChan) (d : Dev) : (d.setChan c x).cores = d.cores := rfl
@[simp] theorem Dev.setChan_lmap (c : Nat) (x : DdrChan) (d : Dev) : (d.setChan c x).lmap = d.lmap := rfl

@[simp] theorem Dev.setPort_now (p : Nat) (x : Port) (d : Dev) : (d.setPort p x).now = d.now := rfl
@[simp] theorem Dev.setPort_draws (p : Nat) (x : Port) (d : Dev) : (d.setPort p x).draws = d.draws := rfl
@[simp] theorem Dev.setPort_out (p : Nat) (x : Port) (d : Dev) : (d.setPort p x).out = d.out := rfl
@[simp] theorem Dev.setPort_straps (p : Nat) (x : Port) (d : Dev) : (d.setPort p x).straps = d.straps := rfl
@[simp] theorem Dev.setPort_regs (p : Nat) (x : Port) (d : Dev) : (d.setPort p x).regs = d.regs := rfl
@[simp] theorem Dev.setPort_mem (p : Nat) (x : Port) (d : Dev) : (d.setPort p x).mem = d.mem := rfl
@[simp] theorem Dev.setPort_irq (p : Nat) (x : Port) (d : Dev) : (d.setPort p x).irq = d.irq := rfl
@[simp] theorem Dev.setPort_ras (p : Nat) (x : Port) (d : Dev) : (d.setPort p x).ras = d.ras := rfl
@[simp] theorem Dev.setPort_coh (p : Nat) (x : Port) (d : Dev) : (d.setPort p x).coh = d.coh := rfl
@[simp] theorem Dev.setPort_tier (p : Nat) (x : Port) (d : Dev) : (d.setPort p x).tier = d.tier := rfl
@[simp] theorem Dev.setPort_ddr (p : Nat) (x : Port) (d : Dev) : (d.setPort p x).ddr = d.ddr := rfl
@[simp] theorem Dev.setPort_parts (p : Nat) (x : Port) (d : Dev) : (d.setPort p x).parts = d.parts := rfl
@[simp] theorem Dev.setPort_sec (p : Nat) (x : Port) (d : Dev) : (d.setPort p x).sec = d.sec := rfl
@[simp] theorem Dev.setPort_gtc (p : Nat) (x : Port) (d : Dev) : (d.setPort p x).gtc = d.gtc := rfl
@[simp] theorem Dev.setPort_sync (p : Nat) (x : Port) (d : Dev) : (d.setPort p x).sync = d.sync := rfl
@[simp] theorem Dev.setPort_cmp (p : Nat) (x : Port) (d : Dev) : (d.setPort p x).cmp = d.cmp := rfl
@[simp] theorem Dev.setPort_side (p : Nat) (x : Port) (d : Dev) : (d.setPort p x).side = d.side := rfl
@[simp] theorem Dev.setPort_xlt (p : Nat) (x : Port) (d : Dev) : (d.setPort p x).xlt = d.xlt := rfl
@[simp] theorem Dev.setPort_opq (p : Nat) (x : Port) (d : Dev) : (d.setPort p x).opq = d.opq := rfl
@[simp] theorem Dev.setPort_micro (p : Nat) (x : Port) (d : Dev) : (d.setPort p x).micro = d.micro := rfl
@[simp] theorem Dev.setPort_pwr (p : Nat) (x : Port) (d : Dev) : (d.setPort p x).pwr = d.pwr := rfl
@[simp] theorem Dev.setPort_ctl (p : Nat) (x : Port) (d : Dev) : (d.setPort p x).ctl = d.ctl := rfl
@[simp] theorem Dev.setPort_dawn (p : Nat) (x : Port) (d : Dev) : (d.setPort p x).dawn = d.dawn := rfl
@[simp] theorem Dev.setPort_fw (p : Nat) (x : Port) (d : Dev) : (d.setPort p x).fw = d.fw := rfl
@[simp] theorem Dev.setPort_cal (p : Nat) (x : Port) (d : Dev) : (d.setPort p x).cal = d.cal := rfl
@[simp] theorem Dev.setPort_cores (p : Nat) (x : Port) (d : Dev) : (d.setPort p x).cores = d.cores := rfl
@[simp] theorem Dev.setPort_lmap (p : Nat) (x : Port) (d : Dev) : (d.setPort p x).lmap = d.lmap := rfl

@[simp] theorem Dev.modPort_now (p : Nat) (f : Port → Port) (d : Dev) : (d.modPort p f).now = d.now := rfl
@[simp] theorem Dev.modPort_draws (p : Nat) (f : Port → Port) (d : Dev) : (d.modPort p f).draws = d.draws := rfl
@[simp] theorem Dev.modPort_out (p : Nat) (f : Port → Port) (d : Dev) : (d.modPort p f).out = d.out := rfl
@[simp] theorem Dev.modPort_straps (p : Nat) (f : Port → Port) (d : Dev) : (d.modPort p f).straps = d.straps := rfl
@[simp] theorem Dev.modPort_regs (p : Nat) (f : Port → Port) (d : Dev) : (d.modPort p f).regs = d.regs := rfl
@[simp] theorem Dev.modPort_mem (p : Nat) (f : Port → Port) (d : Dev) : (d.modPort p f).mem = d.mem := rfl
@[simp] theorem Dev.modPort_irq (p : Nat) (f : Port → Port) (d : Dev) : (d.modPort p f).irq = d.irq := rfl
@[simp] theorem Dev.modPort_ras (p : Nat) (f : Port → Port) (d : Dev) : (d.modPort p f).ras = d.ras := rfl
@[simp] theorem Dev.modPort_coh (p : Nat) (f : Port → Port) (d : Dev) : (d.modPort p f).coh = d.coh := rfl
@[simp] theorem Dev.modPort_tier (p : Nat) (f : Port → Port) (d : Dev) : (d.modPort p f).tier = d.tier := rfl
@[simp] theorem Dev.modPort_ddr (p : Nat) (f : Port → Port) (d : Dev) : (d.modPort p f).ddr = d.ddr := rfl
@[simp] theorem Dev.modPort_parts (p : Nat) (f : Port → Port) (d : Dev) : (d.modPort p f).parts = d.parts := rfl
@[simp] theorem Dev.modPort_sec (p : Nat) (f : Port → Port) (d : Dev) : (d.modPort p f).sec = d.sec := rfl
@[simp] theorem Dev.modPort_gtc (p : Nat) (f : Port → Port) (d : Dev) : (d.modPort p f).gtc = d.gtc := rfl
@[simp] theorem Dev.modPort_sync (p : Nat) (f : Port → Port) (d : Dev) : (d.modPort p f).sync = d.sync := rfl
@[simp] theorem Dev.modPort_cmp (p : Nat) (f : Port → Port) (d : Dev) : (d.modPort p f).cmp = d.cmp := rfl
@[simp] theorem Dev.modPort_side (p : Nat) (f : Port → Port) (d : Dev) : (d.modPort p f).side = d.side := rfl
@[simp] theorem Dev.modPort_xlt (p : Nat) (f : Port → Port) (d : Dev) : (d.modPort p f).xlt = d.xlt := rfl
@[simp] theorem Dev.modPort_opq (p : Nat) (f : Port → Port) (d : Dev) : (d.modPort p f).opq = d.opq := rfl
@[simp] theorem Dev.modPort_micro (p : Nat) (f : Port → Port) (d : Dev) : (d.modPort p f).micro = d.micro := rfl
@[simp] theorem Dev.modPort_pwr (p : Nat) (f : Port → Port) (d : Dev) : (d.modPort p f).pwr = d.pwr := rfl
@[simp] theorem Dev.modPort_ctl (p : Nat) (f : Port → Port) (d : Dev) : (d.modPort p f).ctl = d.ctl := rfl
@[simp] theorem Dev.modPort_dawn (p : Nat) (f : Port → Port) (d : Dev) : (d.modPort p f).dawn = d.dawn := rfl
@[simp] theorem Dev.modPort_fw (p : Nat) (f : Port → Port) (d : Dev) : (d.modPort p f).fw = d.fw := rfl
@[simp] theorem Dev.modPort_cal (p : Nat) (f : Port → Port) (d : Dev) : (d.modPort p f).cal = d.cal := rfl
@[simp] theorem Dev.modPort_cores (p : Nat) (f : Port → Port) (d : Dev) : (d.modPort p f).cores = d.cores := rfl
@[simp] theorem Dev.modPort_lmap (p : Nat) (f : Port → Port) (d : Dev) : (d.modPort p f).lmap = d.lmap := rfl

@[simp] theorem Dev.modVc_now (p v : Nat) (f : VcState → VcState) (d : Dev) : (d.modVc p v f).now = d.now := rfl
@[simp] theorem Dev.modVc_draws (p v : Nat) (f : VcState → VcState) (d : Dev) : (d.modVc p v f).draws = d.draws := rfl
@[simp] theorem Dev.modVc_out (p v : Nat) (f : VcState → VcState) (d : Dev) : (d.modVc p v f).out = d.out := rfl
@[simp] theorem Dev.modVc_straps (p v : Nat) (f : VcState → VcState) (d : Dev) : (d.modVc p v f).straps = d.straps := rfl
@[simp] theorem Dev.modVc_regs (p v : Nat) (f : VcState → VcState) (d : Dev) : (d.modVc p v f).regs = d.regs := rfl
@[simp] theorem Dev.modVc_mem (p v : Nat) (f : VcState → VcState) (d : Dev) : (d.modVc p v f).mem = d.mem := rfl
@[simp] theorem Dev.modVc_irq (p v : Nat) (f : VcState → VcState) (d : Dev) : (d.modVc p v f).irq = d.irq := rfl
@[simp] theorem Dev.modVc_ras (p v : Nat) (f : VcState → VcState) (d : Dev) : (d.modVc p v f).ras = d.ras := rfl
@[simp] theorem Dev.modVc_coh (p v : Nat) (f : VcState → VcState) (d : Dev) : (d.modVc p v f).coh = d.coh := rfl
@[simp] theorem Dev.modVc_tier (p v : Nat) (f : VcState → VcState) (d : Dev) : (d.modVc p v f).tier = d.tier := rfl
@[simp] theorem Dev.modVc_ddr (p v : Nat) (f : VcState → VcState) (d : Dev) : (d.modVc p v f).ddr = d.ddr := rfl
@[simp] theorem Dev.modVc_parts (p v : Nat) (f : VcState → VcState) (d : Dev) : (d.modVc p v f).parts = d.parts := rfl
@[simp] theorem Dev.modVc_sec (p v : Nat) (f : VcState → VcState) (d : Dev) : (d.modVc p v f).sec = d.sec := rfl
@[simp] theorem Dev.modVc_gtc (p v : Nat) (f : VcState → VcState) (d : Dev) : (d.modVc p v f).gtc = d.gtc := rfl
@[simp] theorem Dev.modVc_sync (p v : Nat) (f : VcState → VcState) (d : Dev) : (d.modVc p v f).sync = d.sync := rfl
@[simp] theorem Dev.modVc_cmp (p v : Nat) (f : VcState → VcState) (d : Dev) : (d.modVc p v f).cmp = d.cmp := rfl
@[simp] theorem Dev.modVc_side (p v : Nat) (f : VcState → VcState) (d : Dev) : (d.modVc p v f).side = d.side := rfl
@[simp] theorem Dev.modVc_xlt (p v : Nat) (f : VcState → VcState) (d : Dev) : (d.modVc p v f).xlt = d.xlt := rfl
@[simp] theorem Dev.modVc_opq (p v : Nat) (f : VcState → VcState) (d : Dev) : (d.modVc p v f).opq = d.opq := rfl
@[simp] theorem Dev.modVc_micro (p v : Nat) (f : VcState → VcState) (d : Dev) : (d.modVc p v f).micro = d.micro := rfl
@[simp] theorem Dev.modVc_pwr (p v : Nat) (f : VcState → VcState) (d : Dev) : (d.modVc p v f).pwr = d.pwr := rfl
@[simp] theorem Dev.modVc_ctl (p v : Nat) (f : VcState → VcState) (d : Dev) : (d.modVc p v f).ctl = d.ctl := rfl
@[simp] theorem Dev.modVc_dawn (p v : Nat) (f : VcState → VcState) (d : Dev) : (d.modVc p v f).dawn = d.dawn := rfl
@[simp] theorem Dev.modVc_fw (p v : Nat) (f : VcState → VcState) (d : Dev) : (d.modVc p v f).fw = d.fw := rfl
@[simp] theorem Dev.modVc_cal (p v : Nat) (f : VcState → VcState) (d : Dev) : (d.modVc p v f).cal = d.cal := rfl
@[simp] theorem Dev.modVc_cores (p v : Nat) (f : VcState → VcState) (d : Dev) : (d.modVc p v f).cores = d.cores := rfl
@[simp] theorem Dev.modVc_lmap (p v : Nat) (f : VcState → VcState) (d : Dev) : (d.modVc p v f).lmap = d.lmap := rfl

@[simp] theorem Dev.setCkt_now (l : Nat) (c : Circuit) (d : Dev) : (d.setCkt l c).now = d.now := rfl
@[simp] theorem Dev.setCkt_draws (l : Nat) (c : Circuit) (d : Dev) : (d.setCkt l c).draws = d.draws := rfl
@[simp] theorem Dev.setCkt_out (l : Nat) (c : Circuit) (d : Dev) : (d.setCkt l c).out = d.out := rfl
@[simp] theorem Dev.setCkt_straps (l : Nat) (c : Circuit) (d : Dev) : (d.setCkt l c).straps = d.straps := rfl
@[simp] theorem Dev.setCkt_regs (l : Nat) (c : Circuit) (d : Dev) : (d.setCkt l c).regs = d.regs := rfl
@[simp] theorem Dev.setCkt_mem (l : Nat) (c : Circuit) (d : Dev) : (d.setCkt l c).mem = d.mem := rfl
@[simp] theorem Dev.setCkt_irq (l : Nat) (c : Circuit) (d : Dev) : (d.setCkt l c).irq = d.irq := rfl
@[simp] theorem Dev.setCkt_ras (l : Nat) (c : Circuit) (d : Dev) : (d.setCkt l c).ras = d.ras := rfl
@[simp] theorem Dev.setCkt_coh (l : Nat) (c : Circuit) (d : Dev) : (d.setCkt l c).coh = d.coh := rfl
@[simp] theorem Dev.setCkt_tier (l : Nat) (c : Circuit) (d : Dev) : (d.setCkt l c).tier = d.tier := rfl
@[simp] theorem Dev.setCkt_ddr (l : Nat) (c : Circuit) (d : Dev) : (d.setCkt l c).ddr = d.ddr := rfl
@[simp] theorem Dev.setCkt_parts (l : Nat) (c : Circuit) (d : Dev) : (d.setCkt l c).parts = d.parts := rfl
@[simp] theorem Dev.setCkt_sec (l : Nat) (c : Circuit) (d : Dev) : (d.setCkt l c).sec = d.sec := rfl
@[simp] theorem Dev.setCkt_gtc (l : Nat) (c : Circuit) (d : Dev) : (d.setCkt l c).gtc = d.gtc := rfl
@[simp] theorem Dev.setCkt_sync (l : Nat) (c : Circuit) (d : Dev) : (d.setCkt l c).sync = d.sync := rfl
@[simp] theorem Dev.setCkt_cmp (l : Nat) (c : Circuit) (d : Dev) : (d.setCkt l c).cmp = d.cmp := rfl
@[simp] theorem Dev.setCkt_side (l : Nat) (c : Circuit) (d : Dev) : (d.setCkt l c).side = d.side := rfl
@[simp] theorem Dev.setCkt_xlt (l : Nat) (c : Circuit) (d : Dev) : (d.setCkt l c).xlt = d.xlt := rfl
@[simp] theorem Dev.setCkt_opq (l : Nat) (c : Circuit) (d : Dev) : (d.setCkt l c).opq = d.opq := rfl
@[simp] theorem Dev.setCkt_micro (l : Nat) (c : Circuit) (d : Dev) : (d.setCkt l c).micro = d.micro := rfl
@[simp] theorem Dev.setCkt_pwr (l : Nat) (c : Circuit) (d : Dev) : (d.setCkt l c).pwr = d.pwr := rfl
@[simp] theorem Dev.setCkt_ctl (l : Nat) (c : Circuit) (d : Dev) : (d.setCkt l c).ctl = d.ctl := rfl
@[simp] theorem Dev.setCkt_dawn (l : Nat) (c : Circuit) (d : Dev) : (d.setCkt l c).dawn = d.dawn := rfl
@[simp] theorem Dev.setCkt_fw (l : Nat) (c : Circuit) (d : Dev) : (d.setCkt l c).fw = d.fw := rfl
@[simp] theorem Dev.setCkt_cal (l : Nat) (c : Circuit) (d : Dev) : (d.setCkt l c).cal = d.cal := rfl
@[simp] theorem Dev.setCkt_cores (l : Nat) (c : Circuit) (d : Dev) : (d.setCkt l c).cores = d.cores := rfl
@[simp] theorem Dev.setCkt_lmap (l : Nat) (c : Circuit) (d : Dev) : (d.setCkt l c).lmap = d.lmap := rfl

@[simp] theorem Dev.setMeter_now (p c : Nat) (m : Meter) (d : Dev) : (d.setMeter p c m).now = d.now := rfl
@[simp] theorem Dev.setMeter_draws (p c : Nat) (m : Meter) (d : Dev) : (d.setMeter p c m).draws = d.draws := rfl
@[simp] theorem Dev.setMeter_out (p c : Nat) (m : Meter) (d : Dev) : (d.setMeter p c m).out = d.out := rfl
@[simp] theorem Dev.setMeter_straps (p c : Nat) (m : Meter) (d : Dev) : (d.setMeter p c m).straps = d.straps := rfl
@[simp] theorem Dev.setMeter_regs (p c : Nat) (m : Meter) (d : Dev) : (d.setMeter p c m).regs = d.regs := rfl
@[simp] theorem Dev.setMeter_mem (p c : Nat) (m : Meter) (d : Dev) : (d.setMeter p c m).mem = d.mem := rfl
@[simp] theorem Dev.setMeter_irq (p c : Nat) (m : Meter) (d : Dev) : (d.setMeter p c m).irq = d.irq := rfl
@[simp] theorem Dev.setMeter_ras (p c : Nat) (m : Meter) (d : Dev) : (d.setMeter p c m).ras = d.ras := rfl
@[simp] theorem Dev.setMeter_coh (p c : Nat) (m : Meter) (d : Dev) : (d.setMeter p c m).coh = d.coh := rfl
@[simp] theorem Dev.setMeter_tier (p c : Nat) (m : Meter) (d : Dev) : (d.setMeter p c m).tier = d.tier := rfl
@[simp] theorem Dev.setMeter_ddr (p c : Nat) (m : Meter) (d : Dev) : (d.setMeter p c m).ddr = d.ddr := rfl
@[simp] theorem Dev.setMeter_parts (p c : Nat) (m : Meter) (d : Dev) : (d.setMeter p c m).parts = d.parts := rfl
@[simp] theorem Dev.setMeter_sec (p c : Nat) (m : Meter) (d : Dev) : (d.setMeter p c m).sec = d.sec := rfl
@[simp] theorem Dev.setMeter_gtc (p c : Nat) (m : Meter) (d : Dev) : (d.setMeter p c m).gtc = d.gtc := rfl
@[simp] theorem Dev.setMeter_sync (p c : Nat) (m : Meter) (d : Dev) : (d.setMeter p c m).sync = d.sync := rfl
@[simp] theorem Dev.setMeter_cmp (p c : Nat) (m : Meter) (d : Dev) : (d.setMeter p c m).cmp = d.cmp := rfl
@[simp] theorem Dev.setMeter_side (p c : Nat) (m : Meter) (d : Dev) : (d.setMeter p c m).side = d.side := rfl
@[simp] theorem Dev.setMeter_xlt (p c : Nat) (m : Meter) (d : Dev) : (d.setMeter p c m).xlt = d.xlt := rfl
@[simp] theorem Dev.setMeter_opq (p c : Nat) (m : Meter) (d : Dev) : (d.setMeter p c m).opq = d.opq := rfl
@[simp] theorem Dev.setMeter_micro (p c : Nat) (m : Meter) (d : Dev) : (d.setMeter p c m).micro = d.micro := rfl
@[simp] theorem Dev.setMeter_pwr (p c : Nat) (m : Meter) (d : Dev) : (d.setMeter p c m).pwr = d.pwr := rfl
@[simp] theorem Dev.setMeter_ctl (p c : Nat) (m : Meter) (d : Dev) : (d.setMeter p c m).ctl = d.ctl := rfl
@[simp] theorem Dev.setMeter_dawn (p c : Nat) (m : Meter) (d : Dev) : (d.setMeter p c m).dawn = d.dawn := rfl
@[simp] theorem Dev.setMeter_fw (p c : Nat) (m : Meter) (d : Dev) : (d.setMeter p c m).fw = d.fw := rfl
@[simp] theorem Dev.setMeter_cal (p c : Nat) (m : Meter) (d : Dev) : (d.setMeter p c m).cal = d.cal := rfl
@[simp] theorem Dev.setMeter_cores (p c : Nat) (m : Meter) (d : Dev) : (d.setMeter p c m).cores = d.cores := rfl
@[simp] theorem Dev.setMeter_lmap (p c : Nat) (m : Meter) (d : Dev) : (d.setMeter p c m).lmap = d.lmap := rfl

@[simp] theorem Dev.setTree_now (n : Nat) (t : Tree) (d : Dev) : (d.setTree n t).now = d.now := rfl
@[simp] theorem Dev.setTree_draws (n : Nat) (t : Tree) (d : Dev) : (d.setTree n t).draws = d.draws := rfl
@[simp] theorem Dev.setTree_out (n : Nat) (t : Tree) (d : Dev) : (d.setTree n t).out = d.out := rfl
@[simp] theorem Dev.setTree_straps (n : Nat) (t : Tree) (d : Dev) : (d.setTree n t).straps = d.straps := rfl
@[simp] theorem Dev.setTree_regs (n : Nat) (t : Tree) (d : Dev) : (d.setTree n t).regs = d.regs := rfl
@[simp] theorem Dev.setTree_mem (n : Nat) (t : Tree) (d : Dev) : (d.setTree n t).mem = d.mem := rfl
@[simp] theorem Dev.setTree_irq (n : Nat) (t : Tree) (d : Dev) : (d.setTree n t).irq = d.irq := rfl
@[simp] theorem Dev.setTree_ras (n : Nat) (t : Tree) (d : Dev) : (d.setTree n t).ras = d.ras := rfl
@[simp] theorem Dev.setTree_coh (n : Nat) (t : Tree) (d : Dev) : (d.setTree n t).coh = d.coh := rfl
@[simp] theorem Dev.setTree_tier (n : Nat) (t : Tree) (d : Dev) : (d.setTree n t).tier = d.tier := rfl
@[simp] theorem Dev.setTree_ddr (n : Nat) (t : Tree) (d : Dev) : (d.setTree n t).ddr = d.ddr := rfl
@[simp] theorem Dev.setTree_parts (n : Nat) (t : Tree) (d : Dev) : (d.setTree n t).parts = d.parts := rfl
@[simp] theorem Dev.setTree_sec (n : Nat) (t : Tree) (d : Dev) : (d.setTree n t).sec = d.sec := rfl
@[simp] theorem Dev.setTree_gtc (n : Nat) (t : Tree) (d : Dev) : (d.setTree n t).gtc = d.gtc := rfl
@[simp] theorem Dev.setTree_sync (n : Nat) (t : Tree) (d : Dev) : (d.setTree n t).sync = d.sync := rfl
@[simp] theorem Dev.setTree_cmp (n : Nat) (t : Tree) (d : Dev) : (d.setTree n t).cmp = d.cmp := rfl
@[simp] theorem Dev.setTree_side (n : Nat) (t : Tree) (d : Dev) : (d.setTree n t).side = d.side := rfl
@[simp] theorem Dev.setTree_xlt (n : Nat) (t : Tree) (d : Dev) : (d.setTree n t).xlt = d.xlt := rfl
@[simp] theorem Dev.setTree_opq (n : Nat) (t : Tree) (d : Dev) : (d.setTree n t).opq = d.opq := rfl
@[simp] theorem Dev.setTree_micro (n : Nat) (t : Tree) (d : Dev) : (d.setTree n t).micro = d.micro := rfl
@[simp] theorem Dev.setTree_pwr (n : Nat) (t : Tree) (d : Dev) : (d.setTree n t).pwr = d.pwr := rfl
@[simp] theorem Dev.setTree_ctl (n : Nat) (t : Tree) (d : Dev) : (d.setTree n t).ctl = d.ctl := rfl
@[simp] theorem Dev.setTree_dawn (n : Nat) (t : Tree) (d : Dev) : (d.setTree n t).dawn = d.dawn := rfl
@[simp] theorem Dev.setTree_fw (n : Nat) (t : Tree) (d : Dev) : (d.setTree n t).fw = d.fw := rfl
@[simp] theorem Dev.setTree_cal (n : Nat) (t : Tree) (d : Dev) : (d.setTree n t).cal = d.cal := rfl
@[simp] theorem Dev.setTree_cores (n : Nat) (t : Tree) (d : Dev) : (d.setTree n t).cores = d.cores := rfl
@[simp] theorem Dev.setTree_lmap (n : Nat) (t : Tree) (d : Dev) : (d.setTree n t).lmap = d.lmap := rfl

@[simp] theorem Dev.modAcc_now (i : Nat) (f : EngAcc → EngAcc) (d : Dev) : (d.modAcc i f).now = d.now := rfl
@[simp] theorem Dev.modAcc_draws (i : Nat) (f : EngAcc → EngAcc) (d : Dev) : (d.modAcc i f).draws = d.draws := rfl
@[simp] theorem Dev.modAcc_out (i : Nat) (f : EngAcc → EngAcc) (d : Dev) : (d.modAcc i f).out = d.out := rfl
@[simp] theorem Dev.modAcc_straps (i : Nat) (f : EngAcc → EngAcc) (d : Dev) : (d.modAcc i f).straps = d.straps := rfl
@[simp] theorem Dev.modAcc_regs (i : Nat) (f : EngAcc → EngAcc) (d : Dev) : (d.modAcc i f).regs = d.regs := rfl
@[simp] theorem Dev.modAcc_mem (i : Nat) (f : EngAcc → EngAcc) (d : Dev) : (d.modAcc i f).mem = d.mem := rfl
@[simp] theorem Dev.modAcc_irq (i : Nat) (f : EngAcc → EngAcc) (d : Dev) : (d.modAcc i f).irq = d.irq := rfl
@[simp] theorem Dev.modAcc_ras (i : Nat) (f : EngAcc → EngAcc) (d : Dev) : (d.modAcc i f).ras = d.ras := rfl
@[simp] theorem Dev.modAcc_coh (i : Nat) (f : EngAcc → EngAcc) (d : Dev) : (d.modAcc i f).coh = d.coh := rfl
@[simp] theorem Dev.modAcc_tier (i : Nat) (f : EngAcc → EngAcc) (d : Dev) : (d.modAcc i f).tier = d.tier := rfl
@[simp] theorem Dev.modAcc_ddr (i : Nat) (f : EngAcc → EngAcc) (d : Dev) : (d.modAcc i f).ddr = d.ddr := rfl
@[simp] theorem Dev.modAcc_fab (i : Nat) (f : EngAcc → EngAcc) (d : Dev) : (d.modAcc i f).fab = d.fab := rfl
@[simp] theorem Dev.modAcc_parts (i : Nat) (f : EngAcc → EngAcc) (d : Dev) : (d.modAcc i f).parts = d.parts := rfl
@[simp] theorem Dev.modAcc_sec (i : Nat) (f : EngAcc → EngAcc) (d : Dev) : (d.modAcc i f).sec = d.sec := rfl
@[simp] theorem Dev.modAcc_gtc (i : Nat) (f : EngAcc → EngAcc) (d : Dev) : (d.modAcc i f).gtc = d.gtc := rfl
@[simp] theorem Dev.modAcc_sync (i : Nat) (f : EngAcc → EngAcc) (d : Dev) : (d.modAcc i f).sync = d.sync := rfl
@[simp] theorem Dev.modAcc_cmp (i : Nat) (f : EngAcc → EngAcc) (d : Dev) : (d.modAcc i f).cmp = d.cmp := rfl
@[simp] theorem Dev.modAcc_side (i : Nat) (f : EngAcc → EngAcc) (d : Dev) : (d.modAcc i f).side = d.side := rfl
@[simp] theorem Dev.modAcc_opq (i : Nat) (f : EngAcc → EngAcc) (d : Dev) : (d.modAcc i f).opq = d.opq := rfl
@[simp] theorem Dev.modAcc_micro (i : Nat) (f : EngAcc → EngAcc) (d : Dev) : (d.modAcc i f).micro = d.micro := rfl
@[simp] theorem Dev.modAcc_pwr (i : Nat) (f : EngAcc → EngAcc) (d : Dev) : (d.modAcc i f).pwr = d.pwr := rfl
@[simp] theorem Dev.modAcc_ctl (i : Nat) (f : EngAcc → EngAcc) (d : Dev) : (d.modAcc i f).ctl = d.ctl := rfl
@[simp] theorem Dev.modAcc_dawn (i : Nat) (f : EngAcc → EngAcc) (d : Dev) : (d.modAcc i f).dawn = d.dawn := rfl
@[simp] theorem Dev.modAcc_fw (i : Nat) (f : EngAcc → EngAcc) (d : Dev) : (d.modAcc i f).fw = d.fw := rfl
@[simp] theorem Dev.modAcc_cal (i : Nat) (f : EngAcc → EngAcc) (d : Dev) : (d.modAcc i f).cal = d.cal := rfl
@[simp] theorem Dev.modAcc_cores (i : Nat) (f : EngAcc → EngAcc) (d : Dev) : (d.modAcc i f).cores = d.cores := rfl
@[simp] theorem Dev.modAcc_lmap (i : Nat) (f : EngAcc → EngAcc) (d : Dev) : (d.modAcc i f).lmap = d.lmap := rfl

@[simp] theorem Dev.modXlt_now (f : Xlt → Xlt) (d : Dev) : (d.modXlt f).now = d.now := rfl
@[simp] theorem Dev.modXlt_draws (f : Xlt → Xlt) (d : Dev) : (d.modXlt f).draws = d.draws := rfl
@[simp] theorem Dev.modXlt_out (f : Xlt → Xlt) (d : Dev) : (d.modXlt f).out = d.out := rfl
@[simp] theorem Dev.modXlt_straps (f : Xlt → Xlt) (d : Dev) : (d.modXlt f).straps = d.straps := rfl
@[simp] theorem Dev.modXlt_regs (f : Xlt → Xlt) (d : Dev) : (d.modXlt f).regs = d.regs := rfl
@[simp] theorem Dev.modXlt_mem (f : Xlt → Xlt) (d : Dev) : (d.modXlt f).mem = d.mem := rfl
@[simp] theorem Dev.modXlt_irq (f : Xlt → Xlt) (d : Dev) : (d.modXlt f).irq = d.irq := rfl
@[simp] theorem Dev.modXlt_ras (f : Xlt → Xlt) (d : Dev) : (d.modXlt f).ras = d.ras := rfl
@[simp] theorem Dev.modXlt_coh (f : Xlt → Xlt) (d : Dev) : (d.modXlt f).coh = d.coh := rfl
@[simp] theorem Dev.modXlt_tier (f : Xlt → Xlt) (d : Dev) : (d.modXlt f).tier = d.tier := rfl
@[simp] theorem Dev.modXlt_ddr (f : Xlt → Xlt) (d : Dev) : (d.modXlt f).ddr = d.ddr := rfl
@[simp] theorem Dev.modXlt_fab (f : Xlt → Xlt) (d : Dev) : (d.modXlt f).fab = d.fab := rfl
@[simp] theorem Dev.modXlt_parts (f : Xlt → Xlt) (d : Dev) : (d.modXlt f).parts = d.parts := rfl
@[simp] theorem Dev.modXlt_sec (f : Xlt → Xlt) (d : Dev) : (d.modXlt f).sec = d.sec := rfl
@[simp] theorem Dev.modXlt_gtc (f : Xlt → Xlt) (d : Dev) : (d.modXlt f).gtc = d.gtc := rfl
@[simp] theorem Dev.modXlt_sync (f : Xlt → Xlt) (d : Dev) : (d.modXlt f).sync = d.sync := rfl
@[simp] theorem Dev.modXlt_cmp (f : Xlt → Xlt) (d : Dev) : (d.modXlt f).cmp = d.cmp := rfl
@[simp] theorem Dev.modXlt_side (f : Xlt → Xlt) (d : Dev) : (d.modXlt f).side = d.side := rfl
@[simp] theorem Dev.modXlt_xlt (f : Xlt → Xlt) (d : Dev) : (d.modXlt f).xlt = f d.xlt := rfl
@[simp] theorem Dev.modXlt_opq (f : Xlt → Xlt) (d : Dev) : (d.modXlt f).opq = d.opq := rfl
@[simp] theorem Dev.modXlt_micro (f : Xlt → Xlt) (d : Dev) : (d.modXlt f).micro = d.micro := rfl
@[simp] theorem Dev.modXlt_pwr (f : Xlt → Xlt) (d : Dev) : (d.modXlt f).pwr = d.pwr := rfl
@[simp] theorem Dev.modXlt_ctl (f : Xlt → Xlt) (d : Dev) : (d.modXlt f).ctl = d.ctl := rfl
@[simp] theorem Dev.modXlt_dawn (f : Xlt → Xlt) (d : Dev) : (d.modXlt f).dawn = d.dawn := rfl
@[simp] theorem Dev.modXlt_fw (f : Xlt → Xlt) (d : Dev) : (d.modXlt f).fw = d.fw := rfl
@[simp] theorem Dev.modXlt_cal (f : Xlt → Xlt) (d : Dev) : (d.modXlt f).cal = d.cal := rfl
@[simp] theorem Dev.modXlt_cores (f : Xlt → Xlt) (d : Dev) : (d.modXlt f).cores = d.cores := rfl
@[simp] theorem Dev.modXlt_lmap (f : Xlt → Xlt) (d : Dev) : (d.modXlt f).lmap = d.lmap := rfl

@[simp] theorem Dev.modOpq_now (f : Opq → Opq) (d : Dev) : (d.modOpq f).now = d.now := rfl
@[simp] theorem Dev.modOpq_draws (f : Opq → Opq) (d : Dev) : (d.modOpq f).draws = d.draws := rfl
@[simp] theorem Dev.modOpq_out (f : Opq → Opq) (d : Dev) : (d.modOpq f).out = d.out := rfl
@[simp] theorem Dev.modOpq_straps (f : Opq → Opq) (d : Dev) : (d.modOpq f).straps = d.straps := rfl
@[simp] theorem Dev.modOpq_regs (f : Opq → Opq) (d : Dev) : (d.modOpq f).regs = d.regs := rfl
@[simp] theorem Dev.modOpq_mem (f : Opq → Opq) (d : Dev) : (d.modOpq f).mem = d.mem := rfl
@[simp] theorem Dev.modOpq_irq (f : Opq → Opq) (d : Dev) : (d.modOpq f).irq = d.irq := rfl
@[simp] theorem Dev.modOpq_ras (f : Opq → Opq) (d : Dev) : (d.modOpq f).ras = d.ras := rfl
@[simp] theorem Dev.modOpq_coh (f : Opq → Opq) (d : Dev) : (d.modOpq f).coh = d.coh := rfl
@[simp] theorem Dev.modOpq_tier (f : Opq → Opq) (d : Dev) : (d.modOpq f).tier = d.tier := rfl
@[simp] theorem Dev.modOpq_ddr (f : Opq → Opq) (d : Dev) : (d.modOpq f).ddr = d.ddr := rfl
@[simp] theorem Dev.modOpq_fab (f : Opq → Opq) (d : Dev) : (d.modOpq f).fab = d.fab := rfl
@[simp] theorem Dev.modOpq_parts (f : Opq → Opq) (d : Dev) : (d.modOpq f).parts = d.parts := rfl
@[simp] theorem Dev.modOpq_sec (f : Opq → Opq) (d : Dev) : (d.modOpq f).sec = d.sec := rfl
@[simp] theorem Dev.modOpq_gtc (f : Opq → Opq) (d : Dev) : (d.modOpq f).gtc = d.gtc := rfl
@[simp] theorem Dev.modOpq_sync (f : Opq → Opq) (d : Dev) : (d.modOpq f).sync = d.sync := rfl
@[simp] theorem Dev.modOpq_cmp (f : Opq → Opq) (d : Dev) : (d.modOpq f).cmp = d.cmp := rfl
@[simp] theorem Dev.modOpq_side (f : Opq → Opq) (d : Dev) : (d.modOpq f).side = d.side := rfl
@[simp] theorem Dev.modOpq_xlt (f : Opq → Opq) (d : Dev) : (d.modOpq f).xlt = d.xlt := rfl
@[simp] theorem Dev.modOpq_opq (f : Opq → Opq) (d : Dev) : (d.modOpq f).opq = f d.opq := rfl
@[simp] theorem Dev.modOpq_micro (f : Opq → Opq) (d : Dev) : (d.modOpq f).micro = d.micro := rfl
@[simp] theorem Dev.modOpq_pwr (f : Opq → Opq) (d : Dev) : (d.modOpq f).pwr = d.pwr := rfl
@[simp] theorem Dev.modOpq_ctl (f : Opq → Opq) (d : Dev) : (d.modOpq f).ctl = d.ctl := rfl
@[simp] theorem Dev.modOpq_dawn (f : Opq → Opq) (d : Dev) : (d.modOpq f).dawn = d.dawn := rfl
@[simp] theorem Dev.modOpq_fw (f : Opq → Opq) (d : Dev) : (d.modOpq f).fw = d.fw := rfl
@[simp] theorem Dev.modOpq_cal (f : Opq → Opq) (d : Dev) : (d.modOpq f).cal = d.cal := rfl
@[simp] theorem Dev.modOpq_cores (f : Opq → Opq) (d : Dev) : (d.modOpq f).cores = d.cores := rfl
@[simp] theorem Dev.modOpq_lmap (f : Opq → Opq) (d : Dev) : (d.modOpq f).lmap = d.lmap := rfl

@[simp] theorem Dev.modQueue_now (q : QueueId) (f : Queue → Queue) (d : Dev) : (d.modQueue q f).now = d.now := rfl
@[simp] theorem Dev.modQueue_draws (q : QueueId) (f : Queue → Queue) (d : Dev) : (d.modQueue q f).draws = d.draws := rfl
@[simp] theorem Dev.modQueue_out (q : QueueId) (f : Queue → Queue) (d : Dev) : (d.modQueue q f).out = d.out := rfl
@[simp] theorem Dev.modQueue_straps (q : QueueId) (f : Queue → Queue) (d : Dev) : (d.modQueue q f).straps = d.straps := rfl
@[simp] theorem Dev.modQueue_regs (q : QueueId) (f : Queue → Queue) (d : Dev) : (d.modQueue q f).regs = d.regs := rfl
@[simp] theorem Dev.modQueue_mem (q : QueueId) (f : Queue → Queue) (d : Dev) : (d.modQueue q f).mem = d.mem := rfl
@[simp] theorem Dev.modQueue_irq (q : QueueId) (f : Queue → Queue) (d : Dev) : (d.modQueue q f).irq = d.irq := rfl
@[simp] theorem Dev.modQueue_ras (q : QueueId) (f : Queue → Queue) (d : Dev) : (d.modQueue q f).ras = d.ras := rfl
@[simp] theorem Dev.modQueue_coh (q : QueueId) (f : Queue → Queue) (d : Dev) : (d.modQueue q f).coh = d.coh := rfl
@[simp] theorem Dev.modQueue_tier (q : QueueId) (f : Queue → Queue) (d : Dev) : (d.modQueue q f).tier = d.tier := rfl
@[simp] theorem Dev.modQueue_ddr (q : QueueId) (f : Queue → Queue) (d : Dev) : (d.modQueue q f).ddr = d.ddr := rfl
@[simp] theorem Dev.modQueue_fab (q : QueueId) (f : Queue → Queue) (d : Dev) : (d.modQueue q f).fab = d.fab := rfl
@[simp] theorem Dev.modQueue_parts (q : QueueId) (f : Queue → Queue) (d : Dev) : (d.modQueue q f).parts = d.parts := rfl
@[simp] theorem Dev.modQueue_sec (q : QueueId) (f : Queue → Queue) (d : Dev) : (d.modQueue q f).sec = d.sec := rfl
@[simp] theorem Dev.modQueue_gtc (q : QueueId) (f : Queue → Queue) (d : Dev) : (d.modQueue q f).gtc = d.gtc := rfl
@[simp] theorem Dev.modQueue_sync (q : QueueId) (f : Queue → Queue) (d : Dev) : (d.modQueue q f).sync = d.sync := rfl
@[simp] theorem Dev.modQueue_cmp (q : QueueId) (f : Queue → Queue) (d : Dev) : (d.modQueue q f).cmp = d.cmp := rfl
@[simp] theorem Dev.modQueue_side (q : QueueId) (f : Queue → Queue) (d : Dev) : (d.modQueue q f).side = d.side := rfl
@[simp] theorem Dev.modQueue_xlt (q : QueueId) (f : Queue → Queue) (d : Dev) : (d.modQueue q f).xlt = d.xlt := rfl
@[simp] theorem Dev.modQueue_micro (q : QueueId) (f : Queue → Queue) (d : Dev) : (d.modQueue q f).micro = d.micro := rfl
@[simp] theorem Dev.modQueue_pwr (q : QueueId) (f : Queue → Queue) (d : Dev) : (d.modQueue q f).pwr = d.pwr := rfl
@[simp] theorem Dev.modQueue_ctl (q : QueueId) (f : Queue → Queue) (d : Dev) : (d.modQueue q f).ctl = d.ctl := rfl
@[simp] theorem Dev.modQueue_dawn (q : QueueId) (f : Queue → Queue) (d : Dev) : (d.modQueue q f).dawn = d.dawn := rfl
@[simp] theorem Dev.modQueue_fw (q : QueueId) (f : Queue → Queue) (d : Dev) : (d.modQueue q f).fw = d.fw := rfl
@[simp] theorem Dev.modQueue_cal (q : QueueId) (f : Queue → Queue) (d : Dev) : (d.modQueue q f).cal = d.cal := rfl
@[simp] theorem Dev.modQueue_cores (q : QueueId) (f : Queue → Queue) (d : Dev) : (d.modQueue q f).cores = d.cores := rfl
@[simp] theorem Dev.modQueue_lmap (q : QueueId) (f : Queue → Queue) (d : Dev) : (d.modQueue q f).lmap = d.lmap := rfl

@[simp] theorem Dev.modOp_now (i : Nat) (f : Op → Op) (d : Dev) : (d.modOp i f).now = d.now := rfl
@[simp] theorem Dev.modOp_draws (i : Nat) (f : Op → Op) (d : Dev) : (d.modOp i f).draws = d.draws := rfl
@[simp] theorem Dev.modOp_out (i : Nat) (f : Op → Op) (d : Dev) : (d.modOp i f).out = d.out := rfl
@[simp] theorem Dev.modOp_straps (i : Nat) (f : Op → Op) (d : Dev) : (d.modOp i f).straps = d.straps := rfl
@[simp] theorem Dev.modOp_regs (i : Nat) (f : Op → Op) (d : Dev) : (d.modOp i f).regs = d.regs := rfl
@[simp] theorem Dev.modOp_mem (i : Nat) (f : Op → Op) (d : Dev) : (d.modOp i f).mem = d.mem := rfl
@[simp] theorem Dev.modOp_irq (i : Nat) (f : Op → Op) (d : Dev) : (d.modOp i f).irq = d.irq := rfl
@[simp] theorem Dev.modOp_ras (i : Nat) (f : Op → Op) (d : Dev) : (d.modOp i f).ras = d.ras := rfl
@[simp] theorem Dev.modOp_coh (i : Nat) (f : Op → Op) (d : Dev) : (d.modOp i f).coh = d.coh := rfl
@[simp] theorem Dev.modOp_tier (i : Nat) (f : Op → Op) (d : Dev) : (d.modOp i f).tier = d.tier := rfl
@[simp] theorem Dev.modOp_ddr (i : Nat) (f : Op → Op) (d : Dev) : (d.modOp i f).ddr = d.ddr := rfl
@[simp] theorem Dev.modOp_fab (i : Nat) (f : Op → Op) (d : Dev) : (d.modOp i f).fab = d.fab := rfl
@[simp] theorem Dev.modOp_parts (i : Nat) (f : Op → Op) (d : Dev) : (d.modOp i f).parts = d.parts := rfl
@[simp] theorem Dev.modOp_sec (i : Nat) (f : Op → Op) (d : Dev) : (d.modOp i f).sec = d.sec := rfl
@[simp] theorem Dev.modOp_gtc (i : Nat) (f : Op → Op) (d : Dev) : (d.modOp i f).gtc = d.gtc := rfl
@[simp] theorem Dev.modOp_sync (i : Nat) (f : Op → Op) (d : Dev) : (d.modOp i f).sync = d.sync := rfl
@[simp] theorem Dev.modOp_cmp (i : Nat) (f : Op → Op) (d : Dev) : (d.modOp i f).cmp = d.cmp := rfl
@[simp] theorem Dev.modOp_side (i : Nat) (f : Op → Op) (d : Dev) : (d.modOp i f).side = d.side := rfl
@[simp] theorem Dev.modOp_xlt (i : Nat) (f : Op → Op) (d : Dev) : (d.modOp i f).xlt = d.xlt := rfl
@[simp] theorem Dev.modOp_micro (i : Nat) (f : Op → Op) (d : Dev) : (d.modOp i f).micro = d.micro := rfl
@[simp] theorem Dev.modOp_pwr (i : Nat) (f : Op → Op) (d : Dev) : (d.modOp i f).pwr = d.pwr := rfl
@[simp] theorem Dev.modOp_ctl (i : Nat) (f : Op → Op) (d : Dev) : (d.modOp i f).ctl = d.ctl := rfl
@[simp] theorem Dev.modOp_dawn (i : Nat) (f : Op → Op) (d : Dev) : (d.modOp i f).dawn = d.dawn := rfl
@[simp] theorem Dev.modOp_fw (i : Nat) (f : Op → Op) (d : Dev) : (d.modOp i f).fw = d.fw := rfl
@[simp] theorem Dev.modOp_cal (i : Nat) (f : Op → Op) (d : Dev) : (d.modOp i f).cal = d.cal := rfl
@[simp] theorem Dev.modOp_cores (i : Nat) (f : Op → Op) (d : Dev) : (d.modOp i f).cores = d.cores := rfl
@[simp] theorem Dev.modOp_lmap (i : Nat) (f : Op → Op) (d : Dev) : (d.modOp i f).lmap = d.lmap := rfl

@[simp] theorem Dev.setCore_now (p : Nat) (c : Core) (d : Dev) : (d.setCore p c).now = d.now := rfl
@[simp] theorem Dev.setCore_draws (p : Nat) (c : Core) (d : Dev) : (d.setCore p c).draws = d.draws := rfl
@[simp] theorem Dev.setCore_out (p : Nat) (c : Core) (d : Dev) : (d.setCore p c).out = d.out := rfl
@[simp] theorem Dev.setCore_straps (p : Nat) (c : Core) (d : Dev) : (d.setCore p c).straps = d.straps := rfl
@[simp] theorem Dev.setCore_regs (p : Nat) (c : Core) (d : Dev) : (d.setCore p c).regs = d.regs := rfl
@[simp] theorem Dev.setCore_mem (p : Nat) (c : Core) (d : Dev) : (d.setCore p c).mem = d.mem := rfl
@[simp] theorem Dev.setCore_irq (p : Nat) (c : Core) (d : Dev) : (d.setCore p c).irq = d.irq := rfl
@[simp] theorem Dev.setCore_ras (p : Nat) (c : Core) (d : Dev) : (d.setCore p c).ras = d.ras := rfl
@[simp] theorem Dev.setCore_coh (p : Nat) (c : Core) (d : Dev) : (d.setCore p c).coh = d.coh := rfl
@[simp] theorem Dev.setCore_tier (p : Nat) (c : Core) (d : Dev) : (d.setCore p c).tier = d.tier := rfl
@[simp] theorem Dev.setCore_ddr (p : Nat) (c : Core) (d : Dev) : (d.setCore p c).ddr = d.ddr := rfl
@[simp] theorem Dev.setCore_fab (p : Nat) (c : Core) (d : Dev) : (d.setCore p c).fab = d.fab := rfl
@[simp] theorem Dev.setCore_parts (p : Nat) (c : Core) (d : Dev) : (d.setCore p c).parts = d.parts := rfl
@[simp] theorem Dev.setCore_sec (p : Nat) (c : Core) (d : Dev) : (d.setCore p c).sec = d.sec := rfl
@[simp] theorem Dev.setCore_gtc (p : Nat) (c : Core) (d : Dev) : (d.setCore p c).gtc = d.gtc := rfl
@[simp] theorem Dev.setCore_sync (p : Nat) (c : Core) (d : Dev) : (d.setCore p c).sync = d.sync := rfl
@[simp] theorem Dev.setCore_cmp (p : Nat) (c : Core) (d : Dev) : (d.setCore p c).cmp = d.cmp := rfl
@[simp] theorem Dev.setCore_side (p : Nat) (c : Core) (d : Dev) : (d.setCore p c).side = d.side := rfl
@[simp] theorem Dev.setCore_xlt (p : Nat) (c : Core) (d : Dev) : (d.setCore p c).xlt = d.xlt := rfl
@[simp] theorem Dev.setCore_opq (p : Nat) (c : Core) (d : Dev) : (d.setCore p c).opq = d.opq := rfl
@[simp] theorem Dev.setCore_micro (p : Nat) (c : Core) (d : Dev) : (d.setCore p c).micro = d.micro := rfl
@[simp] theorem Dev.setCore_pwr (p : Nat) (c : Core) (d : Dev) : (d.setCore p c).pwr = d.pwr := rfl
@[simp] theorem Dev.setCore_ctl (p : Nat) (c : Core) (d : Dev) : (d.setCore p c).ctl = d.ctl := rfl
@[simp] theorem Dev.setCore_dawn (p : Nat) (c : Core) (d : Dev) : (d.setCore p c).dawn = d.dawn := rfl
@[simp] theorem Dev.setCore_fw (p : Nat) (c : Core) (d : Dev) : (d.setCore p c).fw = d.fw := rfl
@[simp] theorem Dev.setCore_cal (p : Nat) (c : Core) (d : Dev) : (d.setCore p c).cal = d.cal := rfl
@[simp] theorem Dev.setCore_lmap (p : Nat) (c : Core) (d : Dev) : (d.setCore p c).lmap = d.lmap := rfl

@[simp] theorem Dev.modDom_now (n : Nat) (f : Domain → Domain) (d : Dev) : (d.modDom n f).now = d.now := rfl
@[simp] theorem Dev.modDom_draws (n : Nat) (f : Domain → Domain) (d : Dev) : (d.modDom n f).draws = d.draws := rfl
@[simp] theorem Dev.modDom_out (n : Nat) (f : Domain → Domain) (d : Dev) : (d.modDom n f).out = d.out := rfl
@[simp] theorem Dev.modDom_straps (n : Nat) (f : Domain → Domain) (d : Dev) : (d.modDom n f).straps = d.straps := rfl
@[simp] theorem Dev.modDom_regs (n : Nat) (f : Domain → Domain) (d : Dev) : (d.modDom n f).regs = d.regs := rfl
@[simp] theorem Dev.modDom_mem (n : Nat) (f : Domain → Domain) (d : Dev) : (d.modDom n f).mem = d.mem := rfl
@[simp] theorem Dev.modDom_irq (n : Nat) (f : Domain → Domain) (d : Dev) : (d.modDom n f).irq = d.irq := rfl
@[simp] theorem Dev.modDom_ras (n : Nat) (f : Domain → Domain) (d : Dev) : (d.modDom n f).ras = d.ras := rfl
@[simp] theorem Dev.modDom_coh (n : Nat) (f : Domain → Domain) (d : Dev) : (d.modDom n f).coh = d.coh := rfl
@[simp] theorem Dev.modDom_tier (n : Nat) (f : Domain → Domain) (d : Dev) : (d.modDom n f).tier = d.tier := rfl
@[simp] theorem Dev.modDom_ddr (n : Nat) (f : Domain → Domain) (d : Dev) : (d.modDom n f).ddr = d.ddr := rfl
@[simp] theorem Dev.modDom_fab (n : Nat) (f : Domain → Domain) (d : Dev) : (d.modDom n f).fab = d.fab := rfl
@[simp] theorem Dev.modDom_parts (n : Nat) (f : Domain → Domain) (d : Dev) : (d.modDom n f).parts = d.parts := rfl
@[simp] theorem Dev.modDom_sec (n : Nat) (f : Domain → Domain) (d : Dev) : (d.modDom n f).sec = d.sec := rfl
@[simp] theorem Dev.modDom_gtc (n : Nat) (f : Domain → Domain) (d : Dev) : (d.modDom n f).gtc = d.gtc := rfl
@[simp] theorem Dev.modDom_sync (n : Nat) (f : Domain → Domain) (d : Dev) : (d.modDom n f).sync = d.sync := rfl
@[simp] theorem Dev.modDom_cmp (n : Nat) (f : Domain → Domain) (d : Dev) : (d.modDom n f).cmp = d.cmp := rfl
@[simp] theorem Dev.modDom_side (n : Nat) (f : Domain → Domain) (d : Dev) : (d.modDom n f).side = d.side := rfl
@[simp] theorem Dev.modDom_xlt (n : Nat) (f : Domain → Domain) (d : Dev) : (d.modDom n f).xlt = d.xlt := rfl
@[simp] theorem Dev.modDom_opq (n : Nat) (f : Domain → Domain) (d : Dev) : (d.modDom n f).opq = d.opq := rfl
@[simp] theorem Dev.modDom_micro (n : Nat) (f : Domain → Domain) (d : Dev) : (d.modDom n f).micro = d.micro := rfl
@[simp] theorem Dev.modDom_ctl (n : Nat) (f : Domain → Domain) (d : Dev) : (d.modDom n f).ctl = d.ctl := rfl
@[simp] theorem Dev.modDom_dawn (n : Nat) (f : Domain → Domain) (d : Dev) : (d.modDom n f).dawn = d.dawn := rfl
@[simp] theorem Dev.modDom_fw (n : Nat) (f : Domain → Domain) (d : Dev) : (d.modDom n f).fw = d.fw := rfl
@[simp] theorem Dev.modDom_cal (n : Nat) (f : Domain → Domain) (d : Dev) : (d.modDom n f).cal = d.cal := rfl
@[simp] theorem Dev.modDom_cores (n : Nat) (f : Domain → Domain) (d : Dev) : (d.modDom n f).cores = d.cores := rfl
@[simp] theorem Dev.modDom_lmap (n : Nat) (f : Domain → Domain) (d : Dev) : (d.modDom n f).lmap = d.lmap := rfl

@[simp] theorem Dev.modPwr_now (f : Pwr → Pwr) (d : Dev) : (d.modPwr f).now = d.now := rfl
@[simp] theorem Dev.modPwr_draws (f : Pwr → Pwr) (d : Dev) : (d.modPwr f).draws = d.draws := rfl
@[simp] theorem Dev.modPwr_out (f : Pwr → Pwr) (d : Dev) : (d.modPwr f).out = d.out := rfl
@[simp] theorem Dev.modPwr_straps (f : Pwr → Pwr) (d : Dev) : (d.modPwr f).straps = d.straps := rfl
@[simp] theorem Dev.modPwr_regs (f : Pwr → Pwr) (d : Dev) : (d.modPwr f).regs = d.regs := rfl
@[simp] theorem Dev.modPwr_mem (f : Pwr → Pwr) (d : Dev) : (d.modPwr f).mem = d.mem := rfl
@[simp] theorem Dev.modPwr_irq (f : Pwr → Pwr) (d : Dev) : (d.modPwr f).irq = d.irq := rfl
@[simp] theorem Dev.modPwr_ras (f : Pwr → Pwr) (d : Dev) : (d.modPwr f).ras = d.ras := rfl
@[simp] theorem Dev.modPwr_coh (f : Pwr → Pwr) (d : Dev) : (d.modPwr f).coh = d.coh := rfl
@[simp] theorem Dev.modPwr_tier (f : Pwr → Pwr) (d : Dev) : (d.modPwr f).tier = d.tier := rfl
@[simp] theorem Dev.modPwr_ddr (f : Pwr → Pwr) (d : Dev) : (d.modPwr f).ddr = d.ddr := rfl
@[simp] theorem Dev.modPwr_fab (f : Pwr → Pwr) (d : Dev) : (d.modPwr f).fab = d.fab := rfl
@[simp] theorem Dev.modPwr_parts (f : Pwr → Pwr) (d : Dev) : (d.modPwr f).parts = d.parts := rfl
@[simp] theorem Dev.modPwr_sec (f : Pwr → Pwr) (d : Dev) : (d.modPwr f).sec = d.sec := rfl
@[simp] theorem Dev.modPwr_gtc (f : Pwr → Pwr) (d : Dev) : (d.modPwr f).gtc = d.gtc := rfl
@[simp] theorem Dev.modPwr_sync (f : Pwr → Pwr) (d : Dev) : (d.modPwr f).sync = d.sync := rfl
@[simp] theorem Dev.modPwr_cmp (f : Pwr → Pwr) (d : Dev) : (d.modPwr f).cmp = d.cmp := rfl
@[simp] theorem Dev.modPwr_side (f : Pwr → Pwr) (d : Dev) : (d.modPwr f).side = d.side := rfl
@[simp] theorem Dev.modPwr_xlt (f : Pwr → Pwr) (d : Dev) : (d.modPwr f).xlt = d.xlt := rfl
@[simp] theorem Dev.modPwr_opq (f : Pwr → Pwr) (d : Dev) : (d.modPwr f).opq = d.opq := rfl
@[simp] theorem Dev.modPwr_micro (f : Pwr → Pwr) (d : Dev) : (d.modPwr f).micro = d.micro := rfl
@[simp] theorem Dev.modPwr_pwr (f : Pwr → Pwr) (d : Dev) : (d.modPwr f).pwr = f d.pwr := rfl
@[simp] theorem Dev.modPwr_ctl (f : Pwr → Pwr) (d : Dev) : (d.modPwr f).ctl = d.ctl := rfl
@[simp] theorem Dev.modPwr_dawn (f : Pwr → Pwr) (d : Dev) : (d.modPwr f).dawn = d.dawn := rfl
@[simp] theorem Dev.modPwr_fw (f : Pwr → Pwr) (d : Dev) : (d.modPwr f).fw = d.fw := rfl
@[simp] theorem Dev.modPwr_cal (f : Pwr → Pwr) (d : Dev) : (d.modPwr f).cal = d.cal := rfl
@[simp] theorem Dev.modPwr_cores (f : Pwr → Pwr) (d : Dev) : (d.modPwr f).cores = d.cores := rfl
@[simp] theorem Dev.modPwr_lmap (f : Pwr → Pwr) (d : Dev) : (d.modPwr f).lmap = d.lmap := rfl

@[simp] theorem Dev.modSync_now (f : Sync → Sync) (d : Dev) : (d.modSync f).now = d.now := rfl
@[simp] theorem Dev.modSync_draws (f : Sync → Sync) (d : Dev) : (d.modSync f).draws = d.draws := rfl
@[simp] theorem Dev.modSync_out (f : Sync → Sync) (d : Dev) : (d.modSync f).out = d.out := rfl
@[simp] theorem Dev.modSync_straps (f : Sync → Sync) (d : Dev) : (d.modSync f).straps = d.straps := rfl
@[simp] theorem Dev.modSync_regs (f : Sync → Sync) (d : Dev) : (d.modSync f).regs = d.regs := rfl
@[simp] theorem Dev.modSync_mem (f : Sync → Sync) (d : Dev) : (d.modSync f).mem = d.mem := rfl
@[simp] theorem Dev.modSync_irq (f : Sync → Sync) (d : Dev) : (d.modSync f).irq = d.irq := rfl
@[simp] theorem Dev.modSync_ras (f : Sync → Sync) (d : Dev) : (d.modSync f).ras = d.ras := rfl
@[simp] theorem Dev.modSync_coh (f : Sync → Sync) (d : Dev) : (d.modSync f).coh = d.coh := rfl
@[simp] theorem Dev.modSync_tier (f : Sync → Sync) (d : Dev) : (d.modSync f).tier = d.tier := rfl
@[simp] theorem Dev.modSync_ddr (f : Sync → Sync) (d : Dev) : (d.modSync f).ddr = d.ddr := rfl
@[simp] theorem Dev.modSync_fab (f : Sync → Sync) (d : Dev) : (d.modSync f).fab = d.fab := rfl
@[simp] theorem Dev.modSync_parts (f : Sync → Sync) (d : Dev) : (d.modSync f).parts = d.parts := rfl
@[simp] theorem Dev.modSync_sec (f : Sync → Sync) (d : Dev) : (d.modSync f).sec = d.sec := rfl
@[simp] theorem Dev.modSync_gtc (f : Sync → Sync) (d : Dev) : (d.modSync f).gtc = d.gtc := rfl
@[simp] theorem Dev.modSync_sync (f : Sync → Sync) (d : Dev) : (d.modSync f).sync = f d.sync := rfl
@[simp] theorem Dev.modSync_cmp (f : Sync → Sync) (d : Dev) : (d.modSync f).cmp = d.cmp := rfl
@[simp] theorem Dev.modSync_side (f : Sync → Sync) (d : Dev) : (d.modSync f).side = d.side := rfl
@[simp] theorem Dev.modSync_xlt (f : Sync → Sync) (d : Dev) : (d.modSync f).xlt = d.xlt := rfl
@[simp] theorem Dev.modSync_opq (f : Sync → Sync) (d : Dev) : (d.modSync f).opq = d.opq := rfl
@[simp] theorem Dev.modSync_micro (f : Sync → Sync) (d : Dev) : (d.modSync f).micro = d.micro := rfl
@[simp] theorem Dev.modSync_pwr (f : Sync → Sync) (d : Dev) : (d.modSync f).pwr = d.pwr := rfl
@[simp] theorem Dev.modSync_ctl (f : Sync → Sync) (d : Dev) : (d.modSync f).ctl = d.ctl := rfl
@[simp] theorem Dev.modSync_dawn (f : Sync → Sync) (d : Dev) : (d.modSync f).dawn = d.dawn := rfl
@[simp] theorem Dev.modSync_fw (f : Sync → Sync) (d : Dev) : (d.modSync f).fw = d.fw := rfl
@[simp] theorem Dev.modSync_cal (f : Sync → Sync) (d : Dev) : (d.modSync f).cal = d.cal := rfl
@[simp] theorem Dev.modSync_cores (f : Sync → Sync) (d : Dev) : (d.modSync f).cores = d.cores := rfl
@[simp] theorem Dev.modSync_lmap (f : Sync → Sync) (d : Dev) : (d.modSync f).lmap = d.lmap := rfl

@[simp] theorem Dev.modSec_now (f : Sec → Sec) (d : Dev) : (d.modSec f).now = d.now := rfl
@[simp] theorem Dev.modSec_draws (f : Sec → Sec) (d : Dev) : (d.modSec f).draws = d.draws := rfl
@[simp] theorem Dev.modSec_out (f : Sec → Sec) (d : Dev) : (d.modSec f).out = d.out := rfl
@[simp] theorem Dev.modSec_straps (f : Sec → Sec) (d : Dev) : (d.modSec f).straps = d.straps := rfl
@[simp] theorem Dev.modSec_regs (f : Sec → Sec) (d : Dev) : (d.modSec f).regs = d.regs := rfl
@[simp] theorem Dev.modSec_mem (f : Sec → Sec) (d : Dev) : (d.modSec f).mem = d.mem := rfl
@[simp] theorem Dev.modSec_irq (f : Sec → Sec) (d : Dev) : (d.modSec f).irq = d.irq := rfl
@[simp] theorem Dev.modSec_ras (f : Sec → Sec) (d : Dev) : (d.modSec f).ras = d.ras := rfl
@[simp] theorem Dev.modSec_coh (f : Sec → Sec) (d : Dev) : (d.modSec f).coh = d.coh := rfl
@[simp] theorem Dev.modSec_tier (f : Sec → Sec) (d : Dev) : (d.modSec f).tier = d.tier := rfl
@[simp] theorem Dev.modSec_ddr (f : Sec → Sec) (d : Dev) : (d.modSec f).ddr = d.ddr := rfl
@[simp] theorem Dev.modSec_fab (f : Sec → Sec) (d : Dev) : (d.modSec f).fab = d.fab := rfl
@[simp] theorem Dev.modSec_parts (f : Sec → Sec) (d : Dev) : (d.modSec f).parts = d.parts := rfl
@[simp] theorem Dev.modSec_sec (f : Sec → Sec) (d : Dev) : (d.modSec f).sec = f d.sec := rfl
@[simp] theorem Dev.modSec_gtc (f : Sec → Sec) (d : Dev) : (d.modSec f).gtc = d.gtc := rfl
@[simp] theorem Dev.modSec_sync (f : Sec → Sec) (d : Dev) : (d.modSec f).sync = d.sync := rfl
@[simp] theorem Dev.modSec_cmp (f : Sec → Sec) (d : Dev) : (d.modSec f).cmp = d.cmp := rfl
@[simp] theorem Dev.modSec_side (f : Sec → Sec) (d : Dev) : (d.modSec f).side = d.side := rfl
@[simp] theorem Dev.modSec_xlt (f : Sec → Sec) (d : Dev) : (d.modSec f).xlt = d.xlt := rfl
@[simp] theorem Dev.modSec_opq (f : Sec → Sec) (d : Dev) : (d.modSec f).opq = d.opq := rfl
@[simp] theorem Dev.modSec_micro (f : Sec → Sec) (d : Dev) : (d.modSec f).micro = d.micro := rfl
@[simp] theorem Dev.modSec_pwr (f : Sec → Sec) (d : Dev) : (d.modSec f).pwr = d.pwr := rfl
@[simp] theorem Dev.modSec_ctl (f : Sec → Sec) (d : Dev) : (d.modSec f).ctl = d.ctl := rfl
@[simp] theorem Dev.modSec_dawn (f : Sec → Sec) (d : Dev) : (d.modSec f).dawn = d.dawn := rfl
@[simp] theorem Dev.modSec_fw (f : Sec → Sec) (d : Dev) : (d.modSec f).fw = d.fw := rfl
@[simp] theorem Dev.modSec_cal (f : Sec → Sec) (d : Dev) : (d.modSec f).cal = d.cal := rfl
@[simp] theorem Dev.modSec_cores (f : Sec → Sec) (d : Dev) : (d.modSec f).cores = d.cores := rfl
@[simp] theorem Dev.modSec_lmap (f : Sec → Sec) (d : Dev) : (d.modSec f).lmap = d.lmap := rfl

@[simp] theorem Dev.modCtl_now (f : Ctl → Ctl) (d : Dev) : (d.modCtl f).now = d.now := rfl
@[simp] theorem Dev.modCtl_draws (f : Ctl → Ctl) (d : Dev) : (d.modCtl f).draws = d.draws := rfl
@[simp] theorem Dev.modCtl_out (f : Ctl → Ctl) (d : Dev) : (d.modCtl f).out = d.out := rfl
@[simp] theorem Dev.modCtl_straps (f : Ctl → Ctl) (d : Dev) : (d.modCtl f).straps = d.straps := rfl
@[simp] theorem Dev.modCtl_regs (f : Ctl → Ctl) (d : Dev) : (d.modCtl f).regs = d.regs := rfl
@[simp] theorem Dev.modCtl_mem (f : Ctl → Ctl) (d : Dev) : (d.modCtl f).mem = d.mem := rfl
@[simp] theorem Dev.modCtl_irq (f : Ctl → Ctl) (d : Dev) : (d.modCtl f).irq = d.irq := rfl
@[simp] theorem Dev.modCtl_ras (f : Ctl → Ctl) (d : Dev) : (d.modCtl f).ras = d.ras := rfl
@[simp] theorem Dev.modCtl_coh (f : Ctl → Ctl) (d : Dev) : (d.modCtl f).coh = d.coh := rfl
@[simp] theorem Dev.modCtl_tier (f : Ctl → Ctl) (d : Dev) : (d.modCtl f).tier = d.tier := rfl
@[simp] theorem Dev.modCtl_ddr (f : Ctl → Ctl) (d : Dev) : (d.modCtl f).ddr = d.ddr := rfl
@[simp] theorem Dev.modCtl_fab (f : Ctl → Ctl) (d : Dev) : (d.modCtl f).fab = d.fab := rfl
@[simp] theorem Dev.modCtl_parts (f : Ctl → Ctl) (d : Dev) : (d.modCtl f).parts = d.parts := rfl
@[simp] theorem Dev.modCtl_sec (f : Ctl → Ctl) (d : Dev) : (d.modCtl f).sec = d.sec := rfl
@[simp] theorem Dev.modCtl_gtc (f : Ctl → Ctl) (d : Dev) : (d.modCtl f).gtc = d.gtc := rfl
@[simp] theorem Dev.modCtl_sync (f : Ctl → Ctl) (d : Dev) : (d.modCtl f).sync = d.sync := rfl
@[simp] theorem Dev.modCtl_cmp (f : Ctl → Ctl) (d : Dev) : (d.modCtl f).cmp = d.cmp := rfl
@[simp] theorem Dev.modCtl_side (f : Ctl → Ctl) (d : Dev) : (d.modCtl f).side = d.side := rfl
@[simp] theorem Dev.modCtl_xlt (f : Ctl → Ctl) (d : Dev) : (d.modCtl f).xlt = d.xlt := rfl
@[simp] theorem Dev.modCtl_opq (f : Ctl → Ctl) (d : Dev) : (d.modCtl f).opq = d.opq := rfl
@[simp] theorem Dev.modCtl_micro (f : Ctl → Ctl) (d : Dev) : (d.modCtl f).micro = d.micro := rfl
@[simp] theorem Dev.modCtl_pwr (f : Ctl → Ctl) (d : Dev) : (d.modCtl f).pwr = d.pwr := rfl
@[simp] theorem Dev.modCtl_ctl (f : Ctl → Ctl) (d : Dev) : (d.modCtl f).ctl = f d.ctl := rfl
@[simp] theorem Dev.modCtl_dawn (f : Ctl → Ctl) (d : Dev) : (d.modCtl f).dawn = d.dawn := rfl
@[simp] theorem Dev.modCtl_fw (f : Ctl → Ctl) (d : Dev) : (d.modCtl f).fw = d.fw := rfl
@[simp] theorem Dev.modCtl_cal (f : Ctl → Ctl) (d : Dev) : (d.modCtl f).cal = d.cal := rfl
@[simp] theorem Dev.modCtl_cores (f : Ctl → Ctl) (d : Dev) : (d.modCtl f).cores = d.cores := rfl
@[simp] theorem Dev.modCtl_lmap (f : Ctl → Ctl) (d : Dev) : (d.modCtl f).lmap = d.lmap := rfl

@[simp] theorem Dev.modDawn_now (f : Dawn → Dawn) (d : Dev) : (d.modDawn f).now = d.now := rfl
@[simp] theorem Dev.modDawn_draws (f : Dawn → Dawn) (d : Dev) : (d.modDawn f).draws = d.draws := rfl
@[simp] theorem Dev.modDawn_out (f : Dawn → Dawn) (d : Dev) : (d.modDawn f).out = d.out := rfl
@[simp] theorem Dev.modDawn_straps (f : Dawn → Dawn) (d : Dev) : (d.modDawn f).straps = d.straps := rfl
@[simp] theorem Dev.modDawn_regs (f : Dawn → Dawn) (d : Dev) : (d.modDawn f).regs = d.regs := rfl
@[simp] theorem Dev.modDawn_mem (f : Dawn → Dawn) (d : Dev) : (d.modDawn f).mem = d.mem := rfl
@[simp] theorem Dev.modDawn_irq (f : Dawn → Dawn) (d : Dev) : (d.modDawn f).irq = d.irq := rfl
@[simp] theorem Dev.modDawn_ras (f : Dawn → Dawn) (d : Dev) : (d.modDawn f).ras = d.ras := rfl
@[simp] theorem Dev.modDawn_coh (f : Dawn → Dawn) (d : Dev) : (d.modDawn f).coh = d.coh := rfl
@[simp] theorem Dev.modDawn_tier (f : Dawn → Dawn) (d : Dev) : (d.modDawn f).tier = d.tier := rfl
@[simp] theorem Dev.modDawn_ddr (f : Dawn → Dawn) (d : Dev) : (d.modDawn f).ddr = d.ddr := rfl
@[simp] theorem Dev.modDawn_fab (f : Dawn → Dawn) (d : Dev) : (d.modDawn f).fab = d.fab := rfl
@[simp] theorem Dev.modDawn_parts (f : Dawn → Dawn) (d : Dev) : (d.modDawn f).parts = d.parts := rfl
@[simp] theorem Dev.modDawn_sec (f : Dawn → Dawn) (d : Dev) : (d.modDawn f).sec = d.sec := rfl
@[simp] theorem Dev.modDawn_gtc (f : Dawn → Dawn) (d : Dev) : (d.modDawn f).gtc = d.gtc := rfl
@[simp] theorem Dev.modDawn_sync (f : Dawn → Dawn) (d : Dev) : (d.modDawn f).sync = d.sync := rfl
@[simp] theorem Dev.modDawn_cmp (f : Dawn → Dawn) (d : Dev) : (d.modDawn f).cmp = d.cmp := rfl
@[simp] theorem Dev.modDawn_side (f : Dawn → Dawn) (d : Dev) : (d.modDawn f).side = d.side := rfl
@[simp] theorem Dev.modDawn_xlt (f : Dawn → Dawn) (d : Dev) : (d.modDawn f).xlt = d.xlt := rfl
@[simp] theorem Dev.modDawn_opq (f : Dawn → Dawn) (d : Dev) : (d.modDawn f).opq = d.opq := rfl
@[simp] theorem Dev.modDawn_micro (f : Dawn → Dawn) (d : Dev) : (d.modDawn f).micro = d.micro := rfl
@[simp] theorem Dev.modDawn_pwr (f : Dawn → Dawn) (d : Dev) : (d.modDawn f).pwr = d.pwr := rfl
@[simp] theorem Dev.modDawn_ctl (f : Dawn → Dawn) (d : Dev) : (d.modDawn f).ctl = d.ctl := rfl
@[simp] theorem Dev.modDawn_dawn (f : Dawn → Dawn) (d : Dev) : (d.modDawn f).dawn = f d.dawn := rfl
@[simp] theorem Dev.modDawn_fw (f : Dawn → Dawn) (d : Dev) : (d.modDawn f).fw = d.fw := rfl
@[simp] theorem Dev.modDawn_cal (f : Dawn → Dawn) (d : Dev) : (d.modDawn f).cal = d.cal := rfl
@[simp] theorem Dev.modDawn_cores (f : Dawn → Dawn) (d : Dev) : (d.modDawn f).cores = d.cores := rfl
@[simp] theorem Dev.modDawn_lmap (f : Dawn → Dawn) (d : Dev) : (d.modDawn f).lmap = d.lmap := rfl

@[simp] theorem Dev.modFw_now (f : Fw → Fw) (d : Dev) : (d.modFw f).now = d.now := rfl
@[simp] theorem Dev.modFw_draws (f : Fw → Fw) (d : Dev) : (d.modFw f).draws = d.draws := rfl
@[simp] theorem Dev.modFw_out (f : Fw → Fw) (d : Dev) : (d.modFw f).out = d.out := rfl
@[simp] theorem Dev.modFw_straps (f : Fw → Fw) (d : Dev) : (d.modFw f).straps = d.straps := rfl
@[simp] theorem Dev.modFw_regs (f : Fw → Fw) (d : Dev) : (d.modFw f).regs = d.regs := rfl
@[simp] theorem Dev.modFw_mem (f : Fw → Fw) (d : Dev) : (d.modFw f).mem = d.mem := rfl
@[simp] theorem Dev.modFw_irq (f : Fw → Fw) (d : Dev) : (d.modFw f).irq = d.irq := rfl
@[simp] theorem Dev.modFw_ras (f : Fw → Fw) (d : Dev) : (d.modFw f).ras = d.ras := rfl
@[simp] theorem Dev.modFw_coh (f : Fw → Fw) (d : Dev) : (d.modFw f).coh = d.coh := rfl
@[simp] theorem Dev.modFw_tier (f : Fw → Fw) (d : Dev) : (d.modFw f).tier = d.tier := rfl
@[simp] theorem Dev.modFw_ddr (f : Fw → Fw) (d : Dev) : (d.modFw f).ddr = d.ddr := rfl
@[simp] theorem Dev.modFw_fab (f : Fw → Fw) (d : Dev) : (d.modFw f).fab = d.fab := rfl
@[simp] theorem Dev.modFw_parts (f : Fw → Fw) (d : Dev) : (d.modFw f).parts = d.parts := rfl
@[simp] theorem Dev.modFw_sec (f : Fw → Fw) (d : Dev) : (d.modFw f).sec = d.sec := rfl
@[simp] theorem Dev.modFw_gtc (f : Fw → Fw) (d : Dev) : (d.modFw f).gtc = d.gtc := rfl
@[simp] theorem Dev.modFw_sync (f : Fw → Fw) (d : Dev) : (d.modFw f).sync = d.sync := rfl
@[simp] theorem Dev.modFw_cmp (f : Fw → Fw) (d : Dev) : (d.modFw f).cmp = d.cmp := rfl
@[simp] theorem Dev.modFw_side (f : Fw → Fw) (d : Dev) : (d.modFw f).side = d.side := rfl
@[simp] theorem Dev.modFw_xlt (f : Fw → Fw) (d : Dev) : (d.modFw f).xlt = d.xlt := rfl
@[simp] theorem Dev.modFw_opq (f : Fw → Fw) (d : Dev) : (d.modFw f).opq = d.opq := rfl
@[simp] theorem Dev.modFw_micro (f : Fw → Fw) (d : Dev) : (d.modFw f).micro = d.micro := rfl
@[simp] theorem Dev.modFw_pwr (f : Fw → Fw) (d : Dev) : (d.modFw f).pwr = d.pwr := rfl
@[simp] theorem Dev.modFw_ctl (f : Fw → Fw) (d : Dev) : (d.modFw f).ctl = d.ctl := rfl
@[simp] theorem Dev.modFw_dawn (f : Fw → Fw) (d : Dev) : (d.modFw f).dawn = d.dawn := rfl
@[simp] theorem Dev.modFw_fw (f : Fw → Fw) (d : Dev) : (d.modFw f).fw = f d.fw := rfl
@[simp] theorem Dev.modFw_cal (f : Fw → Fw) (d : Dev) : (d.modFw f).cal = d.cal := rfl
@[simp] theorem Dev.modFw_cores (f : Fw → Fw) (d : Dev) : (d.modFw f).cores = d.cores := rfl
@[simp] theorem Dev.modFw_lmap (f : Fw → Fw) (d : Dev) : (d.modFw f).lmap = d.lmap := rfl

@[simp] theorem Dev.modCmp_now (f : Cmp → Cmp) (d : Dev) : (d.modCmp f).now = d.now := rfl
@[simp] theorem Dev.modCmp_draws (f : Cmp → Cmp) (d : Dev) : (d.modCmp f).draws = d.draws := rfl
@[simp] theorem Dev.modCmp_out (f : Cmp → Cmp) (d : Dev) : (d.modCmp f).out = d.out := rfl
@[simp] theorem Dev.modCmp_straps (f : Cmp → Cmp) (d : Dev) : (d.modCmp f).straps = d.straps := rfl
@[simp] theorem Dev.modCmp_regs (f : Cmp → Cmp) (d : Dev) : (d.modCmp f).regs = d.regs := rfl
@[simp] theorem Dev.modCmp_mem (f : Cmp → Cmp) (d : Dev) : (d.modCmp f).mem = d.mem := rfl
@[simp] theorem Dev.modCmp_irq (f : Cmp → Cmp) (d : Dev) : (d.modCmp f).irq = d.irq := rfl
@[simp] theorem Dev.modCmp_ras (f : Cmp → Cmp) (d : Dev) : (d.modCmp f).ras = d.ras := rfl
@[simp] theorem Dev.modCmp_coh (f : Cmp → Cmp) (d : Dev) : (d.modCmp f).coh = d.coh := rfl
@[simp] theorem Dev.modCmp_tier (f : Cmp → Cmp) (d : Dev) : (d.modCmp f).tier = d.tier := rfl
@[simp] theorem Dev.modCmp_ddr (f : Cmp → Cmp) (d : Dev) : (d.modCmp f).ddr = d.ddr := rfl
@[simp] theorem Dev.modCmp_fab (f : Cmp → Cmp) (d : Dev) : (d.modCmp f).fab = d.fab := rfl
@[simp] theorem Dev.modCmp_parts (f : Cmp → Cmp) (d : Dev) : (d.modCmp f).parts = d.parts := rfl
@[simp] theorem Dev.modCmp_sec (f : Cmp → Cmp) (d : Dev) : (d.modCmp f).sec = d.sec := rfl
@[simp] theorem Dev.modCmp_gtc (f : Cmp → Cmp) (d : Dev) : (d.modCmp f).gtc = d.gtc := rfl
@[simp] theorem Dev.modCmp_sync (f : Cmp → Cmp) (d : Dev) : (d.modCmp f).sync = d.sync := rfl
@[simp] theorem Dev.modCmp_cmp (f : Cmp → Cmp) (d : Dev) : (d.modCmp f).cmp = f d.cmp := rfl
@[simp] theorem Dev.modCmp_side (f : Cmp → Cmp) (d : Dev) : (d.modCmp f).side = d.side := rfl
@[simp] theorem Dev.modCmp_xlt (f : Cmp → Cmp) (d : Dev) : (d.modCmp f).xlt = d.xlt := rfl
@[simp] theorem Dev.modCmp_opq (f : Cmp → Cmp) (d : Dev) : (d.modCmp f).opq = d.opq := rfl
@[simp] theorem Dev.modCmp_micro (f : Cmp → Cmp) (d : Dev) : (d.modCmp f).micro = d.micro := rfl
@[simp] theorem Dev.modCmp_pwr (f : Cmp → Cmp) (d : Dev) : (d.modCmp f).pwr = d.pwr := rfl
@[simp] theorem Dev.modCmp_ctl (f : Cmp → Cmp) (d : Dev) : (d.modCmp f).ctl = d.ctl := rfl
@[simp] theorem Dev.modCmp_dawn (f : Cmp → Cmp) (d : Dev) : (d.modCmp f).dawn = d.dawn := rfl
@[simp] theorem Dev.modCmp_fw (f : Cmp → Cmp) (d : Dev) : (d.modCmp f).fw = d.fw := rfl
@[simp] theorem Dev.modCmp_cal (f : Cmp → Cmp) (d : Dev) : (d.modCmp f).cal = d.cal := rfl
@[simp] theorem Dev.modCmp_cores (f : Cmp → Cmp) (d : Dev) : (d.modCmp f).cores = d.cores := rfl
@[simp] theorem Dev.modCmp_lmap (f : Cmp → Cmp) (d : Dev) : (d.modCmp f).lmap = d.lmap := rfl

@[simp] theorem Dev.modSide_now (f : Side → Side) (d : Dev) : (d.modSide f).now = d.now := rfl
@[simp] theorem Dev.modSide_draws (f : Side → Side) (d : Dev) : (d.modSide f).draws = d.draws := rfl
@[simp] theorem Dev.modSide_out (f : Side → Side) (d : Dev) : (d.modSide f).out = d.out := rfl
@[simp] theorem Dev.modSide_straps (f : Side → Side) (d : Dev) : (d.modSide f).straps = d.straps := rfl
@[simp] theorem Dev.modSide_regs (f : Side → Side) (d : Dev) : (d.modSide f).regs = d.regs := rfl
@[simp] theorem Dev.modSide_mem (f : Side → Side) (d : Dev) : (d.modSide f).mem = d.mem := rfl
@[simp] theorem Dev.modSide_irq (f : Side → Side) (d : Dev) : (d.modSide f).irq = d.irq := rfl
@[simp] theorem Dev.modSide_ras (f : Side → Side) (d : Dev) : (d.modSide f).ras = d.ras := rfl
@[simp] theorem Dev.modSide_coh (f : Side → Side) (d : Dev) : (d.modSide f).coh = d.coh := rfl
@[simp] theorem Dev.modSide_tier (f : Side → Side) (d : Dev) : (d.modSide f).tier = d.tier := rfl
@[simp] theorem Dev.modSide_ddr (f : Side → Side) (d : Dev) : (d.modSide f).ddr = d.ddr := rfl
@[simp] theorem Dev.modSide_fab (f : Side → Side) (d : Dev) : (d.modSide f).fab = d.fab := rfl
@[simp] theorem Dev.modSide_parts (f : Side → Side) (d : Dev) : (d.modSide f).parts = d.parts := rfl
@[simp] theorem Dev.modSide_sec (f : Side → Side) (d : Dev) : (d.modSide f).sec = d.sec := rfl
@[simp] theorem Dev.modSide_gtc (f : Side → Side) (d : Dev) : (d.modSide f).gtc = d.gtc := rfl
@[simp] theorem Dev.modSide_sync (f : Side → Side) (d : Dev) : (d.modSide f).sync = d.sync := rfl
@[simp] theorem Dev.modSide_cmp (f : Side → Side) (d : Dev) : (d.modSide f).cmp = d.cmp := rfl
@[simp] theorem Dev.modSide_side (f : Side → Side) (d : Dev) : (d.modSide f).side = f d.side := rfl
@[simp] theorem Dev.modSide_xlt (f : Side → Side) (d : Dev) : (d.modSide f).xlt = d.xlt := rfl
@[simp] theorem Dev.modSide_opq (f : Side → Side) (d : Dev) : (d.modSide f).opq = d.opq := rfl
@[simp] theorem Dev.modSide_micro (f : Side → Side) (d : Dev) : (d.modSide f).micro = d.micro := rfl
@[simp] theorem Dev.modSide_pwr (f : Side → Side) (d : Dev) : (d.modSide f).pwr = d.pwr := rfl
@[simp] theorem Dev.modSide_ctl (f : Side → Side) (d : Dev) : (d.modSide f).ctl = d.ctl := rfl
@[simp] theorem Dev.modSide_dawn (f : Side → Side) (d : Dev) : (d.modSide f).dawn = d.dawn := rfl
@[simp] theorem Dev.modSide_fw (f : Side → Side) (d : Dev) : (d.modSide f).fw = d.fw := rfl
@[simp] theorem Dev.modSide_cal (f : Side → Side) (d : Dev) : (d.modSide f).cal = d.cal := rfl
@[simp] theorem Dev.modSide_cores (f : Side → Side) (d : Dev) : (d.modSide f).cores = d.cores := rfl
@[simp] theorem Dev.modSide_lmap (f : Side → Side) (d : Dev) : (d.modSide f).lmap = d.lmap := rfl

end Sys2Proof.Machine
end

