-- ==== Sys2Proof/Laws/Ops.lean ====
section
/-! SUPPORT. What each shared operation can do, said once: registers and counters read back, and what a cause, an error event, a message, a log
record and the end of a command leave alone. -/

namespace Sys2Proof.Machine

/-! ### Registers and counters -/

/-- A register after a register is stored. -/
theorem Dev.reg_setReg (a : Nat) (v : Word32) (d : Dev) (b : Nat) : (d.setReg a v).reg b = if b = a then v else d.reg b := by
  have h := Tbl.find_put a v d.regs.words b
  have h' := Tbl.find_drop a d.regs.words b
  simp only [Dev.reg, Dev.setReg, Tbl.set]
  split
  · next hv =>
    rw [h']
    split
    · next hb => rw [hb, hv]; rfl
    · rfl
  · rw [h]
    split <;> rfl

@[simp] theorem Dev.reg_setReg_self (a : Nat) (v : Word32) (d : Dev) : (d.setReg a v).reg a = v := by simp [Dev.reg_setReg]

theorem Dev.reg_setReg_ne (a : Nat) (v : Word32) (d : Dev) (b : Nat) (h : b ≠ a) : (d.setReg a v).reg b = d.reg b := by
  simp [Dev.reg_setReg, h]

/-- A register after a field of a register is stored. -/
theorem Dev.reg_setFld (a hi lo v : Nat) (d : Dev) (b : Nat) :
    (d.setFld a hi lo v).reg b = if b = a then insField (d.reg a) hi lo v else d.reg b := Dev.reg_setReg a _ d b

@[simp] theorem Dev.reg_bump (page off n : Nat) (d : Dev) (b : Nat) : (d.bump page off n).reg b = d.reg b := rfl

@[simp] theorem Dev.reg_emit (o : Out) (d : Dev) (b : Nat) : (d.emit o).reg b = d.reg b := rfl

@[simp] theorem Dev.reg_setVec (v : Nat) (x : MsgVector) (d : Dev) (b : Nat) : (d.setVec v x).reg b = d.reg b := rfl

/-- A counter after a count. -/
theorem Dev.ctr_bump (page off n : Nat) (d : Dev) (p o : Nat) :
    (d.bump page off n).ctr p o = if p * 4096 + o = page * 4096 + off then satAdd (d.ctr page off) n else d.ctr p o := by
  simp only [Dev.ctr, Dev.bump]
  rw [Tbl.get_set]

@[simp] theorem Dev.ctr_setReg (a : Nat) (v : Word32) (d : Dev) (p o : Nat) : (d.setReg a v).ctr p o = d.ctr p o := rfl

/-! ### What notifications leave alone -/

@[simp] theorem Dev.rest_setReg (a : Nat) (v : Word32) (d : Dev) : (d.setReg a v).rest = d.rest := rfl
@[simp] theorem Dev.rest_setFld (a hi lo v : Nat) (d : Dev) : (d.setFld a hi lo v).rest = d.rest := rfl
@[simp] theorem Dev.rest_bump (p o n : Nat) (d : Dev) : (d.bump p o n).rest = d.rest := rfl
@[simp] theorem Dev.rest_emit (o : Out) (d : Dev) : (d.emit o).rest = d.rest := rfl
@[simp] theorem Dev.rest_setVec (v : Nat) (x : MsgVector) (d : Dev) : (d.setVec v x).rest = d.rest := rfl
@[simp] theorem Dev.rest_cmdBegin (sts : Nat) (d : Dev) : (d.cmdBegin sts).rest = d.rest := rfl
@[simp] theorem Dev.rest_stampCsn (e : Nat) (d : Dev) : (d.stampCsn e).rest = d.rest := rfl
@[simp] theorem Dev.rest_holdCtl (m : CtlMsg) (d : Dev) : (d.holdCtl m).rest = d.rest := rfl
@[simp] theorem Dev.rest_alert (b : Nat) (d : Dev) : (d.alert b).rest = d.rest := rfl
@[simp] theorem Dev.rest_unalert (b : Nat) (d : Dev) : (d.unalert b).rest = d.rest := rfl
@[simp] theorem Dev.rest_answerMsg (c : BitVec 8) (st : Status) (l : List Byte) (d : Dev) : (d.answerMsg c st l).rest = d.rest := rfl

/-- A message interrupt changes the outputs and the control messages at most. -/
@[simp] theorem Dev.rest_sendMsi (a : Word64) (v : Word32) (d : Dev) : (d.sendMsi a v).rest = d.rest := by
  unfold Dev.sendMsi; split <;> simp

@[simp] theorem Dev.rest_sendVec (v : Nat) (d : Dev) : (d.sendVec v).rest = d.rest := by
  unfold Dev.sendVec; simp

@[simp] theorem Dev.rest_arriveVec (v : Nat) (d : Dev) : (d.arriveVec v).rest = d.rest := by
  unfold Dev.arriveVec; simp only []; split <;> simp

@[simp] theorem Dev.rest_blkEdge (p : Nat) (b : Bool) (d : Dev) : (d.blkEdge p b).rest = d.rest := by
  unfold Dev.blkEdge; split
  · simp only []; split <;> simp
  · rfl

/-- Setting an INT_CAUSE bit is a notification. -/
@[simp] theorem Dev.rest_cause (p b : Nat) (d : Dev) : (d.cause p b).rest = d.rest := by
  unfold Dev.cause; simp

/-- An ERR_STS event is a notification. -/
@[simp] theorem Dev.rest_errEvent (p b : Nat) (d : Dev) : (d.errEvent p b).rest = d.rest := by
  unfold Dev.errEvent; simp only []; split
  · simp
  · split <;> simp

@[simp] theorem Dev.rest_illegal (p : Nat) (d : Dev) : (d.illegal p).rest = d.rest := by
  unfold Dev.illegal; simp

/-- Writing DATA words changes registers only. -/
@[simp] theorem Dev.rest_setData (a n v : Nat) (d : Dev) : (d.setData a n v).rest = d.rest := by
  have h : ∀ (l : List Nat) (x : Dev),
      (l.foldl (fun x i => x.setReg (a + 4 * i) (BitVec.ofNat 32 (v / 2 ^ (32 * i)))) x).rest = x.rest := by
    intro l
    induction l with
    | nil => intro x; rfl
    | cons i l ih => intro x; rw [List.foldl_cons, ih]; rfl
  exact h (List.range n) d

/-- A log record changes the log, its counter and causes, and the copy in the island. -/
@[simp] theorem Dev.rest_log (h : Half) (f : LogF) (d : Dev) : (d.log h f).rest = d.rest := by
  unfold Dev.log
  simp only []
  have key : ∀ (r : Halves RasHalf) (l : List LogRec),
      (if d.dawn.step = .service then ({ d with ras := r } : Dev)
        else { ({ d with ras := r } : Dev) with side := { d.side with island := l } }).rest = d.rest := by
    intro r l; split <;> rfl
  split
  · exact key _ _
  · split
    · split
      · rw [Dev.rest_bump]; exact key _ _
      · rw [Dev.rest_cause, Dev.rest_bump]; exact key _ _
    · rw [Dev.rest_bump]; exact key _ _

/-- The end of a command that no control message runs: a notification. -/
theorem Dev.rest_cmdEnd (page sts bit : Nat) (st : Status) (d : Dev) (h : Tbl.find d.sec.borrow sts = none) :
    (d.cmdEnd page sts bit st).rest = d.rest := by
  unfold Dev.cmdEnd; rw [h]; simp

end Sys2Proof.Machine
end

