-- ==== Sys2Proof/Tests/Slice0.lean ====
section
/-! SUPPORT. Small tests: ill-formed commands that the checks refuse, and, for the statements with hypotheses, states and operands that meet them. -/

namespace Sys2Proof.Machine

theorem wit_front : (State.reset.withFront .cohNop).pending = .cohNop :: [] := rfl

theorem wit_idle : State.reset.pending = [] ∧ State.reset.dev.fw.spread = none ∧ State.reset.dev.sec.msgs = [] := ⟨rfl, rfl, rfl⟩

theorem wit_cmp_f32 : (f32 (Micro.r ⟨[(0, 0x3F800000), (1, 0x80000000)], [], [], 0⟩ 0).toNat).isNan = false ∧
    (f32 (Micro.r ⟨[(0, 0x3F800000), (1, 0x80000000)], [], [], 0⟩ 1).toNat).isNan = false := by decide

/-- A device in SERVICE, otherwise right after reset. -/
def serviceDev : Dev := { Dev.reset with dawn := { Dev.reset.dawn with step := .service, running := true } }

theorem wit_nops_idle : State.reset.dev.busy 0x9104 = false ∧ State.reset.dev.busy 0x9144 = false ∧ State.reset.dev.busy 0x8104 = false ∧
    State.reset.dev.busy 0xA104 = false ∧ State.reset.dev.busy 0x7104 = false ∧ State.reset.dev.busy 0xB104 = false ∧
    State.reset.dev.busy 0xC104 = false ∧ State.reset.dev.busy 0x6104 = false ∧ State.reset.dev.busy 0x4108 = false ∧
    State.reset.dev.busy 0x2104 = false ∧ State.reset.dev.busy 0xD10C = false ∧ State.reset.dev.busy (Dev.ddrA 0 + 0x118) = false ∧
    State.reset.dev.busy (Reg.ras .west * 4096 + 0x104) = false ∧ State.reset.dev.busy (Dev.fabA 23 + 0x10C) = false ∧
    serviceDev.dawn.step = .service ∧ serviceDev.busy 0x118 = false ∧ serviceDev.busy 0x18C = false := by decide

theorem wit_cmdEnd : Tbl.find Dev.reset.sec.borrow 0x9104 = none ∧ (0x9104 : Nat) ≠ Reg.intCause Reg.coh ∧ (0x9104 : Nat) ≠ 0x410C ∧ 31 < 32 := by decide

theorem wit_busy : Obl.isExtCommand .cohNop = true ∧ (Dev.reset.setReg 0x9104 1).busy 0x9104 = true ∧
    Obl.commandOf (.rasNop .east) = some (Reg.ras .east, 0x11104) ∧ (Dev.reset.setReg 0x11104 1).busy 0x11104 = true ∧
    Tbl.find Dev.reset.sec.borrow 0x9104 = none := by decide

/-- An entry of the extent table for the witnesses: one granule, pinned, of partition 0. -/
def extAt (st : ExtState) : Ext := { extReset with len := 1, state := st, perm := 3 }

/-- A device with one entry in the extent table. -/
def extDev (st : ExtState) : Dev := { Dev.reset with coh := { Coh.reset with exts := [(0, extAt st)] } }

theorem wit_ext_free : (Dev.reset.cmdBegin 0x9104).busy 0x9144 = false ∧ ((Dev.reset.cmdBegin 0x9104).ext 0).state = .free := by decide

theorem wit_ext_grant : (extDev .active).busy 0x9104 = false ∧ (((extDev .active).cmdBegin 0x9104).ext 0).state = .active ∧
    extReservedBits 0 = false ∧ (((extDev .active).cmdBegin 0x9104).coh.regions) = [] := by decide

theorem wit_ext_revoke : ∀ k ∈ (List.range ((0 : BitVec 8).toNat + 1)).map ((0 : ExtIdx).toNat + ·),
    k < 32768 ∧ (((extDev .active).cmdBegin 0x9104).ext k).state = .active := by decide

/-- A device whose EXT_DATA holds the image of an entry. -/
def extDataDev (n : Ext) : Dev := ((extDev .active).setData 0x9110 8 n.image).cmdBegin 0x9104

theorem wit_ext_restrict : let d := extDataDev { extAt .active with perm := 1 }; let e := d.ext 0; let n := extOfImage d.extData
    (extDataDev { extAt .active with perm := 1 }).busy 0x9144 = false ∧ e.state = .active ∧ extReservedBits d.extData = false ∧ e.perm ||| n.perm = e.perm ∧
    n.perm.getLsbD 5 = e.perm.getLsbD 5 ∧ n.perm = 1 ∧
    ({ n with perm := e.perm, hset := e.hset, state := e.state, gen := e.gen, accepted := e.accepted, secret := e.secret } : Ext) = e := by decide

theorem wit_ext_wider : let d := extDataDev { extAt .active with perm := 7 }; let e := d.ext 0; let n := extOfImage d.extData
    e.perm &&& n.perm = e.perm ∧ n.hset = e.hset ∧ n.perm.getLsbD 5 = e.perm.getLsbD 5 ∧ (d.conf e.part && !e.accepted) = false := by decide

theorem wit_ext_refused : (((extDev .active).cmdBegin 0x9104).ext 0).state ≠ .free ∧ (((extDev .active).cmdBegin 0x9104).ext 0).state ≠ .revoked ∧
    ((extDev .init).cmdBegin 0x9104 |>.ext 0).state ≠ .active ∧ (extDev .active).assignChecks 0 ≠ .ok ∧
    extReservedBits (extDataDev { extAt .active with perm := 1 }).extData = false ∧ extReservedBits (2 ^ 255) = true ∧
    (let d := extDataDev { extAt .active with perm := 1 }; (d.ext 0).perm &&& (extOfImage d.extData).perm ≠ (d.ext 0).perm) ∧
    (let d := extDataDev { extAt .active with perm := 7 }; (d.ext 0).perm ||| (extOfImage d.extData).perm ≠ (d.ext 0).perm) ∧
    ¬ (∀ k ∈ (List.range ((0 : BitVec 8).toNat + 1)).map ((1 : ExtIdx).toNat + ·), k < 32768 ∧ (((extDev .active).cmdBegin 0x9104).ext k).state = .active) := by decide

theorem wit_ext_scrub : (((extDev .revoked).cmdBegin 0x9104).ext 0).state = .revoked := by decide

/-- A device with a publication region. -/
def regionDev : Dev := { extDev .active with coh := { (extDev .active).coh with regions := [(4095, ⟨0, 0, 0, none, []⟩)] } }

theorem wit_hset : bits (0x2000_0000_FFFF : Nat) 63 46 = 0 ∧ 0x2000_0000_FFFF % 65536 + bits 0x2000_0000_FFFF 31 16 ≤ 0xFFFF ∧
    ((extDev .active).cmdBegin 0x9104).slot 4095 15 = 0 ∧
    (((extDev .active).cmdBegin 0x9104).coh.exts.filter fun x => x.2.state == .active && x.2.hset == 0) ≠ [] := by decide

theorem wit_region : Tbl.find ((extDev .active).cmdBegin 0x9104).coh.regions 0 = none ∧
    ((extDev .active).cmdBegin 0x9104).extAt (((extDev .active).cmdBegin 0x9104).data 0x9110 2) = some (0, extAt .active) ∧
    (Tbl.find regionDev.coh.regions 4095).isSome = true := by decide

theorem wit_ext_events : ((extDev .init).ext 0).state = .init ∧ ((extDev .scrubbing).ext 0).state = .scrubbing ∧
    ((extDev .scrubbing).ext 0).tiered = false ∧ (∀ w ∈ Dev.reset.tier.wbs, (Dev.reset.frame w.frame).ext ≠ 0) := by decide

/-- A device with a restriction under way that both sweeps have ended. -/
def changeDev (w : Bool) : Dev := { Dev.reset with now := 81920, coh := { Coh.reset with
  changes := [⟨7, .restrict, [], [], ⟨w, w⟩, ⟨false, false⟩, true, []⟩], sweeping := ⟨none, some 0⟩ } }

theorem wit_change : ((changeDev true).coh.changes.find? fun x => x.id == 7) = some ⟨7, .restrict, [], [], ⟨true, true⟩, ⟨false, false⟩, true, []⟩ ∧
    (changeDev true).changeOver ⟨7, .restrict, [], [], ⟨true, true⟩, ⟨false, false⟩, true, []⟩ = true ∧
    (changeDev false).coh.sweeping.at .west = none ∧ (changeDev false).sweepWanted .west = true ∧
    (changeDev false).coh.sweeping.at .east = some 0 ∧ 0 + 81920 ≤ (changeDev false).now ∧
    ((changeDev false).sweepVisit .east).sweepClean .east = true := by decide

/-- A device with one host in a state. -/
def hostDev (st : HostState) : Dev := { Dev.reset with now := 1000000, coh := { Coh.reset with
  hosts := [(5, ⟨st, 0, [9], 0, ⟨true, true⟩, ⟨false, false⟩⟩)] } }

theorem wit_host : (hostDev .dead).busy 0x9144 = false ∧ (((hostDev .dead).cmdBegin 0x9144).host 5).state = .dead ∧
    (((hostDev .dead).cmdBegin 0x9144).host 5).swept.west = true ∧ (((hostDev .dead).cmdBegin 0x9144).host 5).swept.east = true ∧
    ((hostDev .suspect).cmdBegin 0x9144).isDead 5 = false ∧ (5 : NodeId) ≠ ((hostDev .suspect).cmdBegin 0x9144).nodeId := by decide

theorem wit_suspect : ((hostDev .suspect).host 5).state = .suspect ∧ ((hostDev .suspect).host 5).probed + 100000 ≤ (hostDev .suspect).now ∧
    ((hostDev .suspect).host 5).since + 1000000 ≤ (hostDev .suspect).now ∧ 9 ∈ ((hostDev .suspect).host 5).nonces ∧
    (hostDev .suspect).now ≤ ((hostDev .suspect).host 5).since + 1000000 ∧
    ({ hostDev .suspect with now := 999999 } : Dev).now < ((hostDev .suspect).host 5).since + 1000000 ∧
    (hostDev .suspect).cmpHolds 5 = false := by decide

/-- A device with a reservation of node 5 on line 0. -/
def resvDev : Dev := { Dev.reset with now := 50000, coh := { Coh.reset with resv := [⟨5, 1, 0, .west, 0⟩] } }

theorem wit_resv : (resvDev.coh.resv.find? fun y => y.node == 5 && y.tag == 1 && y.line == 0) = some ⟨5, 1, 0, .west, 0⟩ ∧
    (resvDev.tx? 0).isNone = true ∧ 0 + min1 (resvDev.fld 0x9130 15 8) * 1000 ≤ resvDev.now := by decide

theorem wit_refused_commands : bits (0xC00000000000 : Nat) 63 46 ≠ 0 ∧ Dev.reset.data 0x9110 2 % 64 = 0 ∧
    ((Dev.reset.setData 0x9110 2 8).cmdBegin 0x9104).data 0x9110 2 % 64 ≠ 0 ∧ (Dev.reset.extAt (Dev.reset.data 0x9110 2)).isNone = true ∧
    (Dev.reset.host 5).state ≠ .dead ∧ (hostDev .dead).isDead 5 = true ∧ Dev.reset.isDead Dev.reset.nodeId = false := by decide

theorem wit_events_without_effect : ((extDev .active).ext 0).state ≠ .init ∧ ((extDev .active).ext 0).state ≠ .scrubbing ∧
    (Dev.reset.coh.changes.find? fun x => x.id == 7) = none ∧
    (changeDev false).changeOver ⟨7, .restrict, [], [], ⟨false, false⟩, ⟨false, false⟩, true, []⟩ = false ∧
    (changeDev false).coh.sweeping.at .east ≠ none ∧ Dev.reset.sweepWanted .west = false ∧
    ({ resvDev with now := 0 } : Dev).now < 0 + min1 (resvDev.fld 0x9130 15 8) * 1000 := by decide

/-- A partition as it is created, not confidential. -/
def part0 : Part :=
  { conf := false, tenant := 0, slotLive := true, secret := 0, hashKey := 0, keep := true, quiet := ⟨false, 4, 20, 0, 0⟩, ctx := ctxReset,
    spill := none, spillIx := 0, quota := 0, cores := [], mailbox := ⟨0, 0, 0, 0, []⟩, rrQueue := 0, rrLeft := 0 }

/-- A device in which an extent with the image n passes the checks of EXT_ASSIGN: its partition lives and its host set has a slot. -/
def assignDev : Dev := let n := { extAt .free with hset := 0 }
  { (Dev.reset.setData 0x9110 8 n.image).cmdBegin 0x9104 with
    tier := { Dev.reset.tier with pinRows := 4096 }, parts := [(0, part0)], coh := { Coh.reset with hsets := [(0, 0x2000_0000_0000)] } }

theorem wit_ext_assign : (assignDev.ext 0).state = .free ∧ assignDev.assignChecks assignDev.extData = .ok := by decide

/-- A device whose partition 0 exists, with one ACTIVE extent that node 5 may read, write and change atomically. -/
def poolDev : Dev := { Dev.reset with
  coh := { Coh.reset with exts := [(0, { extAt .active with perm := 7 })], hsets := [(0, 0x2000_FFFF_0000)] },
  parts := [(0, part0)] }

/-- A request of node 5 for an offset. -/
def reqAt (off : Offset) : ReqHdr := ⟨.port 0, 5, 1, 0, false, false, 0, none, off⟩

/-- The line 0 held in M by node 5. -/
def ownedDev : Dev := { poolDev with coh := { poolDev.coh with dir := [(0, ⟨true, false, [5], 0, 0⟩)] } }

theorem wit_home_admits : Obl.Admits poolDev (reqAt 0) (.loadShared true) 0 { extAt .active with perm := 7 } ∧
    Obl.Admits poolDev (reqAt 0) .loadOwn 0 { extAt .active with perm := 7 } ∧
    Obl.Admits ownedDev (reqAt 0) (.store 1) 0 { extAt .active with perm := 7 } ∧
    Obl.Admits poolDev (reqAt 0) (.writeInval 1 true) 0 { extAt .active with perm := 7 } ∧
    Obl.Admits poolDev (reqAt 0) (.writePartial 1 1) 0 { extAt .active with perm := 7 } ∧
    Obl.Admits poolDev (reqAt 8) (.atomic 0 true (List.replicate 8 1)) 0 { extAt .active with perm := 7 } := by
  refine ⟨?_, ?_, ?_, ?_, ?_, ?_⟩ <;> unfold Obl.Admits <;> decide

theorem wit_home_data : poolDev.dirEnt 0 = none ∧ poolDev.fullSet 0 = none ∧ poolDev.snoopRoom .west = true ∧ poolDev.snoopRoom .east = true ∧
    poolDev.readHeld { extAt .active with perm := 7 } 0 = false ∧
    (poolDev.sentBy (reqAt 8)) = reqAt 8 ∧ (List.replicate 8 (1 : Byte)).length = atomicLen 0 true := by decide

theorem wit_home_tag : poolDev.lookTag 0 { extAt .active with perm := 7 } 0 = poolDev := rfl

theorem wit_home_made : Obl.WellMade poolDev (reqAt 8) { extAt .active with perm := 7 } (.atomic 9 true (List.replicate 8 1)) ∨
    Obl.WellMade poolDev (reqAt 8) { extAt .active with perm := 7 } (.atomic 0 true (List.replicate 8 1)) := by
  right; unfold Obl.WellMade; decide

/-- The line 0 held in S by nodes 5 and 6. -/
def sharedDev : Dev := { poolDev with coh := { poolDev.coh with dir := [(0, ⟨false, false, [5, 6], 0, 0⟩)] } }

theorem wit_home_shared : Obl.Admits sharedDev (reqAt 0) (.loadShared false) 0 { extAt .active with perm := 7 } ∧
    Obl.Admits sharedDev (reqAt 0) .loadOwn 0 { extAt .active with perm := 7 } := by
  refine ⟨?_, ?_⟩ <;> unfold Obl.Admits <;> decide

theorem wit_home_snoops : sharedDev.neededSnoops 0 { extAt .active with perm := 7 } 0 (reqAt 0) false .loadOwn ≠ [] ∧ sharedDev.snoopRoom .west = true ∧
    sharedDev.dirEnt 0 ≠ none := by decide

theorem wit_home_read : ∃ v, (poolDev.touch { extAt .active with perm := 7 } 0).readPool { extAt .active with perm := 7 } 0 = some (.data v) :=
  ⟨_, rfl⟩

theorem wit_home_atomic : ∃ x, atomicLine 0 true (List.replicate 8 1) 8 0 = some x := ⟨_, rfl⟩

/-- A request of node 5 that waits on line 0 since time 0 for snoop `x`. -/
def waitTx (x : Snoop) (g : Option Grant) : LineTx :=
  { why := .demand, req := some ⟨reqAt 0, none, .loadOwn, 0, 0, 0⟩, snoops := [x], data := none, stored := false, owed := false, badData := false,
    keep := 0, grant := g }

/-- A device with one transaction on line 0. -/
def txDev (x : Snoop) (g : Option Grant) : Dev := { poolDev with now := 9000, coh := { poolDev.coh with tx := [(0, waitTx x g)] } }

/-- An open snoop of node 7. -/
def snoop7 : Snoop := ⟨7, 1, 0, 5, .inv, 1, 0, 0, false, false, false⟩

theorem wit_snoop : (txDev snoop7 none).grantLine 7 1 = none ∧ (txDev snoop7 none).snoopLine 7 1 = some (0, waitTx snoop7 none) ∧
    (txDev snoop7 none).responseAllowed 0 7 (some 0) none = true ∧ (txDev snoop7 (some ⟨5, 1, some 0⟩)).grantLine 5 1 = some 0 ∧
    ((txDev snoop7 none).coh.tx.find? fun x => match x.2.req with
      | some r => r.hdr.offset.toNat / 64 == 0 && decide (r.arrived + 3500 ≤ (txDev snoop7 none).now)
      | none => false) = some (0, waitTx snoop7 none) := by decide

theorem wit_deadlines : ((waitTx snoop7 none).snoops.find? fun s_ => s_.node == 7 && !s_.answered && decide (s_.attempt > 0) &&
      !s_.held && decide (s_.sentAt + 2000 ≤ (txDev snoop7 none).now)) = some snoop7 ∧
    ((waitTx { snoop7 with storeWait := true } none).snoops.find? fun s_ => s_.storeWait && decide (s_.firstAt + 6000 ≤ 9000)).isSome = true ∧
    (txDev snoop7 (some ⟨5, 1, some 0⟩)).tx? 0 = some (waitTx snoop7 (some ⟨5, 1, some 0⟩)) := by decide

theorem wit_late : ({ Coh.reset with late := [⟨7, 1, 0, some 9000⟩] } : Coh).late.find? (fun (l : LateSnoop) => l.line == 0 && l.node == 7 &&
      l.due.any fun t => decide (t ≤ 9000)) = some ⟨7, 1, 0, some 9000⟩ ∧ poolDev.cmpHolds poolDev.compNode = false := by decide

theorem wit_grant_waits : (waitTx snoop7 (some ⟨5, 1, none⟩)).grant = some ⟨5, 1, none⟩ := rfl

/-- A queue of partition 0 that is ACTIVE and empty, on chip. -/
def queue0 : Queue :=
  { state := .active, part := 0, half := .west, sizeLog2 := 6, weight := 1, sqBase := 0, maxInflight := 16, cqBase := 4096, headLine := 8192, vec := 0,
    vecEn := false, sqHead := 0, sqTail := 0, cqTail := 0, cqHead := 0, lap := true, dropped := 0, drainMark := none, resetMark := 0, resetAt := 0,
    resetWhy := none, slot := 0, onChip := true, usedAt := 0, held := [], fullSince := none, polledAt := 0, failures := 0, aborting := false,
    chain := [], fetched := [], trace := [], fetch := none }

/-- A device with a queue and a mailbox of partition 0 in a state. -/
def gutterDev (st : BitVec 8) : Dev := { poolDev with
  opq := { poolDev.opq with queues := [(3, queue0)] },
  parts := [(0, { part0 with mailbox := ⟨0, st, 0, 0, [(0, 5)]⟩ })] }

theorem wit_doorbells : doorbellBytes (.packet [3, 0, 1, 0, 0, 0, 0, 0]) = some ([] ++ [[3, 0, 1, 0, 0, 0, 0, 0]]) := rfl

theorem wit_doorbell_line : ∃ b, doorbellBytes (.writePartial 0 0xFF) = some ([] ++ [b]) := ⟨_, rfl⟩

theorem wit_gutter : inGutter 0xFF0000000000 = true ∧ inGutter 0xFF0000FFFFFF = true ∧ 0xFF0000000000 % 4096 < 2048 ∧
    (gutterPart 0xFF0000000000) = 0 ∧ ((gutterDev 0).part? 0).isSome = true ∧ (gutterDev 0).admitsNode 0 5 none = true ∧
    (gutterDev 0).conf 0 = false ∧ (gutterDev 0).queue? 3 = some queue0 ∧ queue0.state ≠ .lost ∧ queue0.onChip = true ∧
    leAt [3, 0, 1, 0, 0, 0, 0, 0] 6 2 = 0 ∧ (queue0.sqTail - queue0.sqHead).toNat + ((1 : BitVec 16) - queue0.sqTail).toNat ≤ 2 ^ queue0.sizeLog2 ∧
    0xFF0000000800 % 4096 ≥ 2048 ∧ ((gutterDev 2).part? 0).isSome = true ∧ Tbl.get (0 : Byte) [(0, (5 : Byte))] 0 = 5 := by decide

/-- The device of the witnesses whose companion is suspect-free but whose node 5 is dead. -/
def deadDev : Dev := { poolDev with coh := { poolDev.coh with hosts := [(5, ⟨.dead, 0, [], 0, ⟨true, true⟩, ⟨false, false⟩⟩)] } }

/-- The same device with the extent tiered: no block is resident. -/
def tieredDev : Dev := { poolDev with coh := { poolDev.coh with exts := [(0, { extAt .active with perm := 7, tier := 1 })] } }

theorem wit_home_refused : Dev.reset.compNode = 0xFFFF ∧ deadDev.isDead 5 = true ∧ Dev.badAop (.atomic 10 true []) = true ∧
    gutterBase ≤ 0xFFFFFFFFFFC0 ∧ inGutter 0xFFFFFFFFFFC0 = false ∧ poolDev.trackerRoom (poolDev.lineHalf 0) = true ∧
    (poolDev.hostChecks (reqAt 0x100000000000) .loadOwn).toOption = none ∧
    (tieredDev.deadLookup 0).resident { extAt .active with perm := 7, tier := 1 } 0 = false ∧
    ({ poolDev with coh := { poolDev.coh with resv := [⟨6, 1, 0, .west, 0⟩] } } : Dev).heldFor (reqAt 0) 0 = true ∧
    ((txDev snoop7 none).deadLookup 0).tx? 0 = some (waitTx snoop7 none) ∧
    (8 : Nat) % 8 = 0 ∧ (4 : Nat) % 8 ≠ 0 := by decide

theorem wit_home_checked : Obl.Checked tieredDev (reqAt 0) .loadOwn 0 { extAt .active with perm := 7, tier := 1 } ∧
    Obl.Checked (txDev snoop7 none) (reqAt 0) .loadOwn 0 { extAt .active with perm := 7 } ∧
    Obl.Checked poolDev (reqAt 4) (.atomic 0 true (List.replicate 8 1)) 0 { extAt .active with perm := 7 } ∧
    Obl.Formed (reqAt 8) (.atomic 0 true (List.replicate 8 1)) := by
  refine ⟨?_, ?_, ?_, ?_⟩ <;> first | (unfold Obl.Checked; decide) | (unfold Obl.Formed; decide)

theorem wit_home_owner : Obl.Admits poolDev (reqAt 0) (.store 1) 0 { extAt .active with perm := 7 } ∧
    Obl.Admits ownedDev (reqAt 0) .loadOwn 0 { extAt .active with perm := 7 } ∧ poolDev.dirEnt 0 = none ∧
    ownedDev.dirEnt 0 = some ⟨true, false, [5], 0, 0⟩ := by
  refine ⟨?_, ?_, ?_, ?_⟩ <;> first | (unfold Obl.Admits; decide) | decide

/-- A home tracker of a half with no room but for reserved requests. -/
def fullDev : Dev := { poolDev with coh := { poolDev.coh with tx := List.replicate 7936 (0, waitTx snoop7 none) } }

theorem wit_home_full : fullDev.trackerRoom (fullDev.lineHalf 0) = false := by
  have e : fullDev.lineHalf 0 = .west := by decide
  have f : fullDev.homeUse .west = 7936 := by
    unfold Dev.homeUse
    show (List.filter _ (List.replicate 7936 (0, waitTx snoop7 none))).length = 7936
    rw [List.filter_replicate, if_pos (by show (_ && fullDev.lineHalf 0 == Half.west) = true; rw [e]; rfl), List.length_replicate]
  unfold Dev.trackerRoom
  rw [e, f]
  decide

theorem wit_events_early : (({ txDev snoop7 none with now := 0 } : Dev).coh.tx.find? fun x => match x.2.req with
      | some r => r.hdr.offset.toNat / 64 == 0 && decide (r.arrived + 3500 ≤ 0)
      | none => false) = none ∧ (txDev snoop7 none).snoopLine 6 1 = none ∧ (txDev snoop7 none).grantLine 6 1 = none ∧ (0x12 : BitVec 8).toNat > 0x11 ∧
    ({ Coh.reset with late := [⟨7, 1, 0, some 9000⟩] } : Coh).late.find? (fun (l : LateSnoop) => l.node == 7 && l.tag == 1) = some ⟨7, 1, 0, some 9000⟩ ∧
    ((Dev.reset.setReg 0xD100 3).setReg 0xD104 6).cmpHolds ((Dev.reset.setReg 0xD100 3).setReg 0xD104 6).compNode = true := by decide

theorem wit_gutter_refused : doorbellBytes (.packet []) = none ∧ doorbellBytes (.writePartial 0 0) = some [] ∧ (gutterDev 0).part? 1 = none ∧
    Dev.reset.admitsNode 0 9 none = false ∧ ((gutterDev 2).part? 0).isSome = true ∧ (gutterDev 0).queue? 4 = none ∧
    leAt [3, 0, 1, 0, 0, 0, 1, 0] 6 2 ≠ 0 ∧ (gutterDev 0).doorbellKeyed 0 false (reqAt 0) = true := by decide

/-- A device whose thatch is in a state, with drive 3 failed. -/
def tierDev (st : ThatchState) : Dev := { Dev.reset with now := 2000000000, tier := { Dev.reset.tier with state := st, failed := 8, blocks := 14000 } }

theorem wit_tier_commands : Dev.reset.busy 0xA104 = false ∧ Dev.reset.anyTiered = false ∧ (Dev.reset.cmdBegin 0xA104).data 0xA120 1 ≤ Dev.reset.tier.mapFirst ∧
    Dev.reset.tier.blocks = 0 ∧ (tierDev .degraded).busy 0xA104 = false ∧ (tierDev .degraded).tier.failed.getLsbD 15 = false ∧
    (tierDev .degraded).tier.failed.getLsbD 3 = true ∧ (tierDev .degraded).tier.rebuild = none ∧
    (tierDev .degraded).nextStripe 0 = none ∧
    ({ tierDev .degraded with tier := { (tierDev .degraded).tier with map := [(14, 1)] } } : Dev).nextStripe 0 = some 1 := by decide

theorem wit_bring_up : ({ (tierDev .degraded).tier with rebuildAsk := some 3 } : Tier).initCap = none ∧
    ({ Dev.reset.tier with initCap := some 0 } : Tier).initCap = some 0 ∧
    Dev.driveSupported ⟨3, true, 0x010802, 4096, 32, true, true, 32, 256, 16000, [], 2, 2⟩ = true ∧
    Dev.driveSupported ⟨3, false, 0x010802, 4096, 32, true, true, 32, 256, 16000, [], 2, 2⟩ = false := by decide

/-- A device that rebuilds drive 3. -/
def rebuildingDev (x : Option (Nat × Nat × Bool)) (m : Tbl Word32) : Dev :=
  { tierDev .degraded with tier := { (tierDev .degraded).tier with map := m, rebuild := some ⟨3, 0, x, none⟩ } }

theorem wit_rebuild : (rebuildingDev none [(14, 1)]).nextStripe 0 = some 1 ∧ (rebuildingDev none []).nextStripe 0 = none ∧
    (rebuildingDev (some (1, 0, false)) []).firstOn 1 0 = true ∧ (rebuildingDev (some (1, 0, false)) []).drivesBusy = false ∧
    (tierDev .degraded).driveFailed 15 = false := by decide

/-- A device with a read of block 14's stripe out to drive 0 since time 0. -/
def driveIoDev : Dev := (tierDev .healthy).putDrive 0 { driveReset with io := [⟨.fill 14, .read 16, some 0⟩] }

theorem wit_timeout : ((driveIoDev.drive 0).io.find? fun y => (y.cmd == .read 16 || (match y.cmd with | .write l _ => l == 16 | _ => false)) &&
    y.issued.any fun t => decide (t + min1 (driveIoDev.fld 0xA110 7 0) * 1000000 ≤ driveIoDev.now)) = some ⟨.fill 14, .read 16, some 0⟩ := by decide

/-- A device with a fill of block 14 that waits, or has frame 0, or a frame of block 14 in a state. -/
def fillDev (f : Option Nat) : Dev := { tierDev .healthy with tier := { (tierDev .healthy).tier with fills := [⟨14, 0, f⟩] } }

/-- A device with one frame. -/
def frameDev (f : Frame) (wbs : List BlockWb) (fl : List FlushEnt) : Dev :=
  { tierDev .healthy with tier := { (tierDev .healthy).tier with frames := [(0, f)], wbs := wbs, flush := fl } }

theorem wit_fill : ((fillDev none).tier.fills.find? fun f => f.block == 14 && f.frame.isNone) = some ⟨14, 0, none⟩ ∧
    ((fillDev (some 0)).tier.fills.find? fun f => f.block == 14) = some ⟨14, 0, some 0⟩ := by decide

theorem wit_fill_frame : ((((fillDev none).waysOf 0 14).filter fun k => !(fillDev none).frameRetired k).find? fun k =>
    !((fillDev none).frame k).valid && ((fillDev none).frame k).state == .idle).isSome = true := by decide +kernel

theorem wit_frames : (frameDev { frameReset with block := 14, valid := true, state := .evicting } [] []).frameOf 14 =
      some (0, { frameReset with block := 14, valid := true, state := .evicting }) ∧
    (frameDev { frameReset with block := 14, valid := true, state := .evicting } [] []).blockBusy 0 14 false = false ∧
    ((frameDev { frameReset with block := 14, valid := true, dirty := 1 } [] [⟨14, 1, none⟩]).tier.flush.any fun x => x.block == 14 && x.left != 0) = true ∧
    ((frameDev frameReset [⟨0, 14, 0, true, none, some 1, 0, [], true⟩] []).tier.wbs.find? fun w => w.block == 14) = some ⟨0, 14, 0, true, none, some 1, 0, [], true⟩ ∧
    (tierDev .healthy).tier.ageAt + 100000 ≤ (tierDev .healthy).now := by decide

/-- A powered device whose DDR channels are as `x`, channel 0 ACTIVE. -/
def ddrDev (x : DdrChan) : Dev :=
  ({ Dev.reset with now := 150000000, ddr := [(0, x)], dawn := { Dev.reset.dawn with powered := true } } : Dev).setReg (Dev.ddrA 0 + 0x100) 1

/-- The same channel in panic. -/
def panicDev (x : DdrChan) : Dev := (ddrDev x).setFld (Dev.ddrA 0 + 0x100) 5 5 1

/-- The channel with its ranks due now. -/
def dueChan (debt : Nat) : DdrChan := { chanReset with ranks := [(1, { rankReset with dueAt := 150000000, debt := debt })] }

theorem wit_ddr : (ddrDev chanReset).chanTrained 0 = true ∧ (ddrDev chanReset).chanActive 0 = true ∧ (1 : Fin 4).val < (ddrDev chanReset).rankCount 0 ∧
    ((ddrDev (dueChan 0)).rank 0 1).dueAt ≤ (ddrDev (dueChan 0)).now ∧ (ddrDev (dueChan 0)).inPanic 0 = false ∧ (ddrDev (dueChan 0)).nbrQueued 0 1 = false ∧
    (panicDev (dueChan 5)).mustRefresh 0 1 = true ∧ ((panicDev (dueChan 0)).setReg (Dev.ddrA 0 + 0x108) 8).mustRefresh 0 1 = false ∧
    ((panicDev (dueChan 0)).setReg (Dev.ddrA 0 + 0x108) 8).inPanic 0 = true ∧
    ((ddrDev chanReset).rank 0 1).calAt + 128000000 ≤ (ddrDev chanReset).now ∧ ((ddrDev chanReset).rank 0 1).trackAt + 16000000 ≤ (ddrDev chanReset).now ∧
    ((ddrDev chanReset).chan 0).mr4At ≤ (ddrDev chanReset).now ∧ ((ddrDev chanReset).rank 0 1).windowAt ≤ (ddrDev chanReset).now := by decide

theorem wit_recover : ((ddrDev { chanReset with recover := true, alerts := 3 }).chan 0).recover = true ∧
    3 ≤ ((ddrDev { chanReset with recover := true, alerts := 3 }).chan 0).alerts ∧ (ddrDev { chanReset with recover := true, alerts := 3 }).chanActive 0 = true ∧
    ((ddrDev { chanReset with recover := true, alerts := 2 }).chan 0).alerts < 3 := by decide

theorem wit_neighbour : ((ddrDev { (dueChan 0) with banks := [(64, { bankReset with nbr := [7] })] }).bank 0 64).nbr = [7] ∧
    ((ddrDev { (dueChan 0) with banks := [(64, { bankReset with nbr := [7] })] }).setReg (Dev.ddrA 0 + 0x108) 8).mustRefresh 0 1 = false ∧
    (ddrDev { (dueChan 0) with banks := [(64, { bankReset with nbr := [7] })] }).actsLeft 0 64
      ((ddrDev { (dueChan 0) with banks := [(64, { bankReset with nbr := [7] })] }).neighbours 0 7).length = true := by decide

/-- Channel 0 with bank 0 of each subchannel open at row 0, and no rank due. -/
def openChan : DdrChan :=
  { chanReset with banks := [(0, { bankReset with row := some 0 }), (32, { bankReset with row := some 0 })], ranks := [(0, { rankReset with dueAt := 150000001 })] }

theorem wit_ddr_read : (({ openChan with lat := [⟨64, 150000000, none⟩] } : DdrChan).lat.length = 1) ∧
    (ddrDev { openChan with lat := [⟨64, 150000000, none⟩] }).batchNow 0 = false ∧
    ((ddrDev { openChan with lat := [⟨64, 150000000, none⟩] }).modChan 0 fun x => { x with batch := false }).nextRead 0 = some (true, ⟨64, 150000000, none⟩) ∧
    ((ddrDev { openChan with lat := [⟨64, 150000000, none⟩] }).chan 0).cmdWaits = false := by decide

theorem wit_ddr_write :
    ((ddrDev { openChan with batch := true, wr := List.replicate 16 ⟨0, 0, none⟩ }).modChan 0 fun x => { x with batch := true }).pickWrite 0 = some ⟨0, 0, none⟩ ∧
    (ddrDev { openChan with batch := true, wr := List.replicate 16 ⟨0, 0, none⟩ }).batchNow 0 = true := by decide

/-- A device with one record in the West log. -/
def logDev : Dev := ({ Dev.reset with tier := { Dev.reset.tier with rows := 65536 } } : Dev).log .west { type := 1, sev := 0, block := 0 }

theorem wit_train : (ddrDev chanReset).busy (Dev.ddrA 0 + 0x118) = false ∧ (ddrDev chanReset).chanActive 0 = true ∧ (ddrDev chanReset).chanActive 1 = false ∧
    ((ddrDev { chanReset with cmdWaits := true }).chan 0).cmdWaits = true := by decide

theorem wit_ras : logDev.busy (Reg.ras .west * 4096 + 0x104) = false ∧
    ((((logDev.cmdBegin (Reg.ras .west * 4096 + 0x104)).ras.at .west).log).find? fun e => e.seq.toNat ==
      (logDev.cmdBegin (Reg.ras .west * 4096 + 0x104)).rasData .west 0).isSome = true ∧
    ((Dev.reset.ras.at .west).log.find? fun e => e.seq.toNat == Dev.reset.rasData .west 0) = none ∧
    (logDev.rasData .west 0 % 32 < 24 ∧ halfOfChan (logDev.rasData .west 0 % 32) = .west) ∧
    ¬ (logDev.rasData .east 0 % 32 < 24 ∧ halfOfChan (logDev.rasData .east 0 % 32) = .east) := by decide

/-- Channel 0 ACTIVE with a rank not yet due, the scrubber on. -/
def scrubDev : Dev :=
  let d := ddrDev { chanReset with ranks := [(0, { rankReset with dueAt := 150000001 })] }
  ({ d with tier := { d.tier with rows := 65536 }, ras := { d.ras with west := { d.ras.west with rereads := [0] } } } : Dev).setReg
    (Reg.ras .west * 4096 + 0x108) 0x10001

theorem wit_dram_read : scrubDev.chanActive 0 = true ∧ 0 / 4096 < scrubDev.tier.rows ∧ scrubDev.retired (memKey 0 0 / 64) = false ∧ scrubDev.readCut 0 0 = false ∧
    (scrubDev.ras.at (halfOfChan (keyChan (memKey 0 0 / 64)))).rereads.contains (memKey 0 0 / 64) = true := by decide

theorem wit_scrub : scrubDev.fld (Reg.ras .west * 4096 + 0x108) 0 0 = 1 ∧ (scrubDev.chan 0).lapSubs.at (Dev.subHalf true) = false ∧
    (scrubDev.chan 0).scrubBusy.at (Dev.subHalf true) + min1 (scrubDev.fld (Reg.ras .west * 4096 + 0x108) 15 8) * 25 ≤ scrubDev.now ∧
    scrubDev.skipRetired 0 1 0 = 0 ∧ scrubDev.issuable 0 ⟨Dev.scrubAddr 1 0, scrubDev.now, none⟩ = true ∧
    scrubDev.now < (scrubDev.rank 0 (rankOf (scrubDev.bankOf 0 (Dev.scrubAddr 1 0)).1)).dueAt ∧ scrubDev.fld (Reg.ras .west * 4096 + 0x108) 31 16 = 1 ∧
    (({ scrubDev with now := 3600000000001 } : Dev).chan 0).lapStart + 1 * 3600000000000 < 3600000000001 := by decide

/-- A device with a tag set cached. -/
def siteDev : Dev := { Dev.reset with tier := { Dev.reset.tier with tags := ⟨[0], []⟩ } }

theorem wit_sites : wordFinding ⟨3, 0⟩ = .uncorrectable ∧ wordFinding ⟨1, 0⟩ = .corrected ∧ (siteDev.tier.tags.at .west)[0]? = some 0 := by decide

/-- A device with translations: partition 0 enabled, a leaf for page 0 cached for core 0, walks, accesses and a record. -/
def xltDev (walks : List Walk) (accs : List EngAcc) : Dev := { poolDev with
  now := 10000000000,
  parts := [(0, { part0 with ctx := { ctxReset with enable := true, rootLog := 18 } })],
  xlt := { poolDev.xlt with micro := [(0, ⟨[(0, ⟨0, 1, 0, 0xC⟩)], 0⟩)], walks := walks, nextWalk := 5, nextAcc := 9, accs := accs,
                            records := [(511, ⟨0, 0, 1, 1, false, false, 0, 0, 0⟩)], inval := some ⟨0, []⟩ } }

/-- A demand walk of page 2 of partition 0 in the West half. -/
def walk2 (r : Bool) : Walk := ⟨3, .west, 0, 0x20000, false, none, r, 0, 1, 0, [], false⟩

/-- An access of core 0 to page 0. -/
def acc0 (st : AccState) : EngAcc := ⟨4, .core 0 0, 0, .va 0, .read, none, false, .asked, 0, st⟩

theorem wit_engine_hit : (xltDev [] []).acc? (xltDev [] []).xlt.nextAcc = none ∧ (xltDev [] []).inQuiet (.core 0 0) 0 = false ∧
    (xltDev [] []).parkedEngine (.core 0 0) = false ∧ Dev.cached (((xltDev [] []).microOf 0).ents.map (·.2)) 0 5 = none ∧
    Dev.cached (((xltDev [] []).microOf 0).ents.map (·.2)) 0 0 = none ∧ leafPermits 0xC true = true ∧ leafAddr 0xC 1 5 = (0, 5) := by decide

theorem wit_engine_miss : Dev.cached (((xltDev [] []).microOf 0).ents.map (·.2)) 0 0x30000 = none ∧ (xltDev [] []).walkRefused 0 0x30000 = none ∧
    (xltDev [] []).walkRefused 0 0x200000000000000 = some 8 ∧ Dev.cached ((xltDev [] []).xlt.shared.at .west) 0 0x30000 = none := by decide

theorem wit_engine_retry : (xltDev [] [acc0 .stalled]).acc? 4 = some (acc0 .stalled) ∧ (xltDev [] [acc0 .stalled]).ringWaits (acc0 .stalled) = false :=
  ⟨rfl, by decide⟩

theorem wit_walks : ((xltDev [walk2 false] []).xlt.walks.find? fun w => w.half == .west && !w.running && w.stream.isNone) = some (walk2 false) ∧
    (xltDev [walk2 false] []).busyWalkers .west < 16 ∧ (xltDev [walk2 false] []).walkRefused 0 0x20000 = none ∧
    ((xltDev [walk2 true] []).xlt.walks.find? fun w => w.id == 3) = some (walk2 true) ∧ (walk2 true).since + 20000 < (xltDev [] []).now ∧
    ((xltDev [] []).faultRec? 511).isSome = true ∧ 0 + min1 ((xltDev [] []).fld 0x8108 15 0) * 100000 ≤ (xltDev [] []).now ∧
    (xltDev [] []).drained = true ∧ ((xltDev [] []).setReg 0x8104 1).busy 0x8104 = true := by decide

theorem wit_xlt : (xltDev [] []).busy 0x8104 = false ∧ ((xltDev [] []).conf 0) = false ∧ ((xltDev [] []).part? 0).isSome = true ∧
    ((xltDev [] []).faultRec? 511).isSome = true ∧ (let w0 : Nat := 18 * 4; 9 ≤ bits w0 6 2 ∧ bits w0 6 2 ≤ 18 ∧ bits w0 11 7 = 0 ∧ bits w0 63 48 = 0) ∧
    (let w1 : Nat := 4; 4 ≤ bits w1 3 0 ∧ bits w1 3 0 ≤ 12 ∧ bits w1 11 5 = 0 ∧ bits w1 63 48 = 0) ∧ bits (18 * 4 + 4 * 2 ^ 64) 63 0 = 72 ∧
    bits (18 * 4 + 4 * 2 ^ 64) 127 64 = 4 ∧ bits (0x10000 * 2 ^ 64) 127 64 % 65536 = 0 ∧ bits (0x10000 * 2 ^ 64) 127 64 ≠ 0 := by decide

theorem wit_xlt_refused : Dev.reset.conf 0 = false ∧ Dev.reset.part? 0 = none ∧ Dev.reset.faultRec? 511 = none ∧
    ({ Dev.reset with parts := [(0, { part0 with conf := true })] } : Dev).conf 0 = true ∧ bits (0 : Nat) 6 2 < 9 ∧
    bits ((2 ^ 57 : Nat)) 63 0 ≥ 2 ^ 57 ∧ bits (0 : Nat) 127 64 = 0 := by decide

/-- A device with queue 3 of partition 0 in a state, and the command registers of OPQ idle. -/
def queueDev (st : QueueState) : Dev := { gutterDev 0 with opq := { (gutterDev 0).opq with queues := [(3, { queue0 with state := st })] } }

theorem wit_opq : (queueDev .active).busy 0x7104 = false ∧ ((queueDev .active).cmdBegin 0x7104).queue? 3 = some { queue0 with state := .active } ∧
    ((queueDev .stopped).cmdBegin 0x7104).queue? 3 = some { queue0 with state := .stopped } ∧ (queueDev .stopped).conf 0 = false ∧
    ((queueDev .stopped).cmdBegin 0x7104).opsOf 3 = [] ∧ queue0.fetch = none ∧ ((queueDev .active).cmdBegin 0x7104).queue? 65535 = none := by decide

theorem wit_q_create : (let w0 : Nat := 4 + 256; 4 ≤ bits w0 4 0 ∧ bits w0 4 0 ≤ 15 ∧ bits w0 11 8 ≠ 0 ∧ bits w0 63 49 = 0) ∧
    poolDev.pinnedRange 0 0 (128 * 2 ^ 4) = true ∧ poolDev.pinnedRange 0 0 (32 * 2 ^ 4) = true ∧ poolDev.pinnedRange 0 0 64 = true ∧
    (poolDev.queuesOf 0).length < 1 ∧ (poolDev.makeRoom .west 5).1 = true := by decide

theorem wit_parts : (Dev.coreRange (2 ^ 32)) = some [0] ∧ poolDev.coreAssigned 0 = false ∧ (poolDev.queuesOf 0) = [] ∧
    (poolDev.xlt.records.filter fun r => r.2.part == 0) = [] ∧ part0.cores = [] ∧ part0.quiet.on = false ∧ bits 0 15 15 = 0 ∧ bits 0 47 32 ≤ 32768 ∧
    ({ poolDev with lmap := [(0, 5)] } : Dev).phys 0 = some 5 ∧ (({ poolDev with lmap := [(0, 5)] } : Dev).core 5).fenced = false := by decide +kernel

/-- The front end with queue 3 changed. -/
def frontDev (f : Queue → Queue) (g : Opq → Opq) : Dev :=
  let d := gutterDev 0
  { d with opq := g { d.opq with queues := [(3, f queue0)] }, now := 100000000 }

theorem wit_reload : (frontDev id fun o => { o with loading := [3] }).opq.loading.contains 3 = true ∧
    (frontDev (fun q => { q with onChip := false }) fun o => { o with loading := [3] }).opq.spills.contains 3 = false ∧
    ((frontDev (fun q => { q with onChip := false }) fun o => { o with loading := [3] }).makeRoom .west 3).1 = true ∧
    ((frontDev (fun q => { q with onChip := false }) fun o => { o with loading := [3] }).queue? 3) = some { queue0 with onChip := false } := by decide

theorem wit_fetch : ((frontDev (fun q => { q with sqTail := 5 }) id).queue? 3) = some { queue0 with sqTail := 5 } ∧ queue0.state ≠ .lost ∧ queue0.fetched = [] ∧
    queue0.onChip = true ∧ queue0.sqHead ≠ 5 ∧ (frontDev (fun q => { q with sqTail := 5 }) id).fenceOpen 3 = false := by decide

/-- A record that waits. -/
def held0 : Held := ⟨0, .ok, 0, 0, 0, 0, 0, 0, 0, 0, true, false, []⟩

theorem wit_records : Dev.cqFull queue0 = false ∧ Dev.cqFull { queue0 with cqTail := 0x8000 } = true ∧ (frontDev id id).inFlight [] = false ∧
    queue0.polledAt ≤ (frontDev id id).now ∧ queue0.resetAt + 1000000 ≤ (frontDev id id).now ∧
    0 + 50000000 ≤ (frontDev (fun q => { q with fullSince := some 0, held := [held0] }) id).now := by decide

theorem wit_refill : (frontDev id fun o => { o with refill := [5] }).opq.refill.contains 5 = true ∧
    ((frontDev id fun o => { o with refill := [5] }).opq.ops.any fun o => o.units.any fun u => u.2.phase == .writing) = false := by decide

/-- A running operation with opcode `c` and one unit in a phase, on logical core 0. -/
def opOf (c : Nat) (ph : UnitPhase) : Op :=
  { id := 9, queue := 3, part := 0, members := [⟨0, [BitVec.ofNat 8 c], [], [], [], false, none⟩], state := .running, launch := none, late := false,
    paced := false, startAt := 0, budget := 1, units := [(0, ⟨0, ph, 0, [], none, [], [], [], [], false⟩)], done := [], failed := none, cores := [],
    results := [], poisoned := false, streams := [], maxima := [], accs := [], tops := [], counts := [], ckts := [], trace := [], acc := none,
    target := none, restored := none }

/-- A device with that operation, logical core 0 being physical core 575. -/
def opDev (c : Nat) (ph : UnitPhase) : Dev :=
  { queueDev .active with now := 5000000, lmap := [(0, 575)], opq := { (queueDev .active).opq with ops := [opOf c ph] } }

theorem wit_compute : ∀ c ∈ [1, 2, 3, 4, 5, 6, 7, 0x10, 0x11, 0x12, 0x13], (opDev c .compute).op? 9 = some (opOf c .compute) ∧
    Desc.op ((opOf c .compute).desc 0) = c ∧ (opDev c .compute).coreRuns 575 = true ∧ (opDev c .compute).phys 0 = some 575 := by decide

theorem wit_unit_end : (opDev 0x12 .ready).op? 9 = some (opOf 0x12 .ready) ∧ (opDev 0x12 .writing).op? 9 = some (opOf 0x12 .writing) ∧
    (Tbl.find (opOf 0x12 .writing).units 0).isSome = true := by decide

/-- A running operation of the front end with a descriptor. -/
def frontOf (b : List Byte) : Op := { opOf 0 .ready with members := [⟨0, b, [], [], [], false, none⟩], units := [] }

/-- A device with that operation. -/
def fopDev (b : List Byte) : Dev := { queueDev .active with
  gtc := { (queueDev .active).gtc with count := 7 },
  opq := { (queueDev .active).opq with ops := [frontOf b] } }

theorem wit_front_ops : ∀ c ∈ [0x20, 0x21, 0x30, 0x31, 0x32, 0x38, 0x39], (fopDev [BitVec.ofNat 8 c]).frontOp 9 c =
    some (frontOf [BitVec.ofNat 8 c], ⟨0, [BitVec.ofNat 8 c], [], [], [], false, none⟩, [BitVec.ofNat 8 c]) := by decide

theorem wit_fence : (fopDev [0x30]).queue? 3 = some { queue0 with state := .active } ∧ (fopDev [0x30]).earlierWritten (frontOf [0x30])
    ⟨0, [0x30], [], [], [], false, none⟩ = true ∧ Desc.u64 [0x32] 48 ≤ (fopDev [0x32]).gtc.count.toNat ∧
    Desc.u8 ([0x31] ++ List.replicate 63 0 ++ [3]) 64 = 3 ∧ (fopDev [0x20]).coh.pubEnds = [] := by decide

/-- A port in a state, with credits for channel 0. -/
def portDev (st : LinkState) : Dev := { Dev.reset with now := 1000000000, fab := { Dev.reset.fab with ports := [(0, { portReset with
  state := st, epochSeen := true, goodRx := 255, vcs := [(0, { vcReset with credits := 100, initFar := 100, init := 8 })] })] } }

/-- A frame of a kind. -/
def frameOf_ (kind : BitVec 2) (len : BitVec 8) : LinkFrame :=
  { seq := 0, vc := 0, kind := kind, sop := true, eop := true, av := false, len := len, ack := 0, cretVc := 0, cretValid := false, cret := 0, payload := [5],
    crcBad := false, fecBad := false }

theorem wit_frames_in : ((portDev .active).port 0).state = .active ∧ (frameOf_ 0 244).seq = ((portDev .active).port 0).expected ∧ (frameOf_ 0 244).len ≠ 0 ∧
    ((portDev .active).vc 0 0).init = 8 ∧ ((portDev .active).vc 0 0).slots = 0 ∧
    ((portDev .negotiate).port 0).state = .negotiate ∧ leAt ((frameOf_ 1 4).payload ++ List.replicate 54 0) 0 2 ≠ (portDev .negotiate).nodeId.toNat ∧
    ((portDev .negotiate).port 0).epochSeen = true ∧ ((portDev .verify).port 0).state = .verify := by decide

theorem wit_link_reset : ((portDev .quiesce).port 0).state = .quiesce ∧ ((portDev .quiesce).port 0).stepAt + 20000 ≤ (portDev .quiesce).now ∧
    laneCount (0xF &&& ~~~(0 : BitVec 8)) = 4 ∧ Dev.stepLimit .tune = some 6000000 ∧ Dev.stepLimit .resume = some 500000 ∧ ((portDev .verify).port 0).verdict = 0 ∧
    ((portDev .verify).port 0).stepAt + 800000 ≤ (portDev .verify).now ∧
    ((portDev .dark).port 0).stepAt + 1000000 ≤ (portDev .dark).now ∧
    ((portDev .down).port 0).stepAt + min1 ((portDev .down).fld (Dev.fabA 0 + 0x100) 23 16) * 10000000 ≤ (portDev .down).now ∧
    (portDev .active).portUsable 0 = true ∧ leAt (List.replicate 6 0 ++ [6]) 6 1 = 6 := by decide

theorem wit_link_timers : (portDev .active).busy (Dev.fabA 0 + 0x10C) = false ∧ ((portDev .active).port 0).statusAt + 10000 ≤ (portDev .active).now ∧
    0 + min1 ((portDev .active).fld (Dev.fabA 0 + 0x104) 7 0) * 100 ≤ (portDev .active).now ∧ 0 + min1 ((portDev .resume).fld (Dev.fabA 0 + 0x104) 31 24) * 100 ≤ (portDev .resume).now ∧
    ((portDev .active).port 0).dataAt + 1000 ≤ (portDev .active).now ∧ ((portDev .held).port 0).state = .held ∧
    ([(⟨7, 2, 0⟩ : Gap)].any fun g => g.seq == 7 && decide (g.times < 3 ∧ 1000 ≥ g.last + 0 + 500)) = true := by decide

/-- A device whose router reaches node 7 on port 0, with circuit 0 in a role and a state on ports 0 and 1. -/
def cktDev (st : CktState) (r : CktRole) : Dev := { portDev .active with
  parts := poolDev.parts, fab := { (portDev .active).fab with routes := [(7, 0x400)], circuits := [(0, { Dev.cktFree with
    state := st, role := r, inPort := some 1, outPort := some 0, prevLabel := 5, outLabel := 3, srcNode := 0, dstNode := 7, bufs := 1, rate := 8 })] } }

theorem wit_ckt_reject : (cktDev .setup .transit).ckt 0 ≠ Dev.cktFree ∧ Dev.fromDown ((cktDev .setup .transit).ckt 0) 1 = false ∧
    ((cktDev .setup .source).ckt 0).role = .source ∧ Dev.fromDown ((cktDev .setup .source).ckt 0) 0 = true := by decide

theorem wit_ckt_open : (portDev .active).busy 0xB104 = false ∧ (portDev .active).freeCkt = some 0 ∧ ((cktDev .free .source).part? 0).isNone = false ∧
    (7 : NodeId) ≠ (cktDev .free .source).nodeId ∧ (cktDev .free .source).routeFrom 7 none = some 0 ∧ (cktDev .setup .source).rateFits 0 8 = true ∧
    (let x := 7 * 2 ^ 16 + 8 * 2 ^ 32 + 2 ^ 48; bits x 41 32 = 8 ∧ bits x 54 48 = 1 ∧ bits x 31 16 = 7 ∧ bits x 11 0 = 0) ∧
    ((cktDev .opened .source).ckt 0).state = .opened ∧ ((cktDev .opened .source).ckt 0).closing = false := by decide +kernel

theorem wit_ckt_setup : (cktDev .free .source).bufsFit .west 64 = true ∧ (cktDev .free .source).routeFrom 7 (some 1) = some 0 ∧
    Dev.fromDown ((cktDev .setup .transit).ckt 0) 0 = true ∧ ((cktDev .setup .transit).ckt 0).inPort = some 1 ∧
    (cktDev .opened .transit).tearEntry 0 (2 ^ 23) = some 0 ∧ (cktDev .opened .dest).tearEntry 1 (5 * 2 ^ 10) = some 0 ∧
    ((cktDev .setup .source).ckt 0).setupAt + 1000000 ≤ (cktDev .setup .source).now := by decide +kernel

/-- A frame that has no answer yet. -/
def sent0 (again : Option Nat) : CktSent := ⟨9, 0, 0, List.replicate 64 0, false, 5, again⟩

theorem wit_ckt_ack_none : ((cktDev .opened .source).ckt 0).sent.find? (fun x => x.ftag == 9) = none := by decide

theorem wit_ckt_frames : ((cktDev .opened .transit).ckt 0).inPort = some (Dev.portNo 1) ∧
    (Dev.cktLines ⟨0, false, false, 9, 0, List.replicate 64 1⟩ (List.replicate 64 1)).isSome = true ∧ ((cktDev .opened .source).ckt 0).dstNode = 7 ∧
    ([sent0 none].find? fun x => x.ftag == 9) = some (sent0 none) ∧ (sent0 none).due ≤ (cktDev .opened .source).now ∧ (sent0 (some 4)).again = some 4 := by decide

theorem wit_ckt_dest : ((extDev .active).extAt 0).isSome = true ∧ ((extDev .active).shape 0 2 8 64).1 ≠ Colour.red := by decide

theorem wit_router_tables : poolDev.busy 0xB104 = false ∧ poolDev.busy 0xC104 = false ∧ (poolDev.part? 0).isSome = true ∧
    (let x := 31 * 2 ^ 37 + 2 ^ 42; bits (bits x 47 32) 4 0 < 24 ∧ bits (bits x 47 32) 9 5 = 31 ∧ bits (bits x 47 32) 15 12 = 0) ∧
    (let v := 31 * 2 ^ 16 + 2 ^ 22; bits v 20 16 = 31 ∧ bits v 63 35 = 0 ∧ bits v 127 88 = 0) ∧
    (let y := 8200 * 2 ^ 64 + 8200 * 2 ^ 96; bits y 23 0 ≤ bits y 47 24 ∧ 8200 ≤ bits y 95 64 ∧ 8200 ≤ bits y 127 96 ∧ bits y 63 57 = 0) := by decide

/-- A device-issued transaction. -/
def devTx0 : DevTx := { node := 7, tag := 1, offset := 0, part := 0, acc := 0, kind := .read, riss := false, retry := 0, due := 5, again := none, fwdAck := false, fwdData := none, sendAs := none, half := .west }

/-- A device with tree 2 below port 1, and a packet that port 0 has received. -/
def treeDev : Dev := { cktDev .free .source with
  fab := { (cktDev .free .source).fab with ports := [(0, { (portDev .active).port 0 with rxq := [⟨0, [], 1, 0⟩] })], dev := [devTx0], trees := [(2, { Dev.treeReset with valid := true, root := 0xFFFF, up := 1, down := 4 })] } }

theorem wit_answer_none : treeDev.devTx? 8 1 = none := by decide

theorem wit_router_events : treeDev.devTx? 7 1 = some devTx0 ∧ devTx0.due ≤ treeDev.now ∧ Status.ofCode 0 = .ok ∧ Status.ofCode Status.nackRetry.code = .nackRetry ∧
    (treeDev.tree 2).valid = true ∧ (treeDev.tree 2).down.getLsbD 2 = true ∧ treeDev.pruned 2 = true ∧ (treeDev.popRx 0).isSome = true ∧
    (treeDev.popRx 1).isNone = true ∧ (treeDev.tree 2).up.toNat = 1 ∧ (treeDev.tree 2).root = treeDev.nodeId ∧ (treeDev.tree 3).valid = false := by decide

/-- A device of a sync role and state. -/
def syncDev (role st : Nat) : Dev := ({ Dev.reset with now := 1000000000, sync := { Sync.reset with open_ := [⟨0, 0, 0, 0, 0⟩] }, regs := { Dev.reset.regs with
  words := [(0x3108, BitVec.ofNat 32 (0x0800 + role)), (0x310C, 2), (0x3110, BitVec.ofNat 32 (0xFF0 + st))] } })

theorem wit_sync : (syncDev 2 2).syncRole = 2 ∧ (syncDev 2 2).upstream = 0 ∧ (syncDev 2 2).syncState = 2 ∧ (syncDev 0 0).syncRole = 0 ∧
    (syncDev 2 2).sync.sentAt + (syncDev 2 2).syncInterval ≤ (syncDev 2 2).now ∧ (syncDev 2 2).sync.validAt + 3 * (syncDev 2 2).syncInterval ≤ (syncDev 2 2).now ∧
    ((syncDev 2 2).reg 0x310C).getLsbD 1 = true ∧ (0 : Nat) + 4 * (syncDev 2 2).syncInterval < (syncDev 2 2).now ∧ (syncDev 0 0).gtc.freeze ≤ (syncDev 0 0).now ∧
    fieldOf 1 1 0 = 1 ∧ fieldOf 1 6 2 < 24 := by decide +kernel

theorem wit_set_hi : (((syncDev 0 0).setReg 0x3120 0).setReg 0x3124 1).syncRole ≠ 2 ∧
    (((syncDev 0 0).setReg 0x3120 0).setReg 0x3124 1).gtc.count.toNat < ((1 : Word32) ++ (syncDev 0 0).heldLow .firmware 0x3120).toNat := by decide +kernel

/-- A device whose PWR commands are idle, with offsets and one point of the power sensor. -/
def pwrDev : Dev := { Dev.reset with now := 1000000000, gtc := { Dev.reset.gtc with count := 5000000000 }, pwr := { Dev.reset.pwr with
  offsetsOk := true, point := some (300000, 0), decideAt := some 5 } }

theorem wit_pwr_sensors : pwrDev.busy 0x2104 = false ∧ pwrDev.pwr.point = some (300000, 0) ∧ (0 : Word64).toNat + 4000000000 ≤ pwrDev.gtc.count.toNat ∧
    gainOf 300000 300000 150000 150000 = some (90000000000, 90000000000) ∧ 100 * (max (100 : Nat) 101 - min 100 101) ≤ 12 * 100 ∧
    (pwrDev.capLevel []).2 = false ∧ pwrDev.pwr.goodRun < 60000 ∧ (Dev.reset.cmdBegin 0x2104).pwr.point = none ∧
    bits (10000000 * 2 ^ 64) 127 64 = 10000000 := by decide +kernel

theorem wit_therm : Dev.hottest (pwrDev.cmdBegin 0x2104).readings + Dev.hottest ((pwrDev.cmdBegin 0x2104).readings.map fun x => -x) ≤ 200 ∧
    (∀ i < 44, Dev.hottest ((pwrDev.cmdBegin 0x2104).pwr.temps.map fun t => t.getD i 0) +
      Dev.hottest (((pwrDev.cmdBegin 0x2104).pwr.temps.map fun t => t.getD i 0).map fun x => -x) < 50) := by decide +kernel

theorem wit_temperature : let d1 := pwrDev.modPwr (fun p => { p with temps := ((List.replicate 44 (330 : Int)).map fun x => 25 * x) :: p.temps.take 9999 })
    let r := d1.readings; let d2 := (d1.setFld 0x2134 7 0 (Dev.degrees (Dev.hottest (r.take 40)))).setFld 0x2134 15 8 (Dev.degrees (Dev.hottest (r.drop 40)))
    (∀ i < 44, r.getD i 0 < d2.alarmAt i) ∧ (∃ i < 44, d2.alarmAt i - 500 < r.getD i 0) := by decide +kernel

/-- A device with a domain in a state since the time 0, and Dusk mode enabled everywhere. -/
def domDev (n : Nat) (st : DomState) (wake : Bool) : Dev := ({ pwrDev with parts := poolDev.parts, regs := { pwrDev.regs with
  words := [(0x2120, 0xFFFFFFFF), (0x400100, 0)] } }).modDom n fun y => { y with state := st, wake := wake, at_ := 0, comp := false }

theorem wit_domains : (domDev 0 .on false).busy 0x2104 = false ∧ (domDev 0 .on false).partLive 0 = true ∧ ((domDev 0 .on false).reg 0x2120).getLsbD 0 = true ∧
    ((domDev 0 .on false).dom 0).state = .on ∧ (domDev 0 .on false).clusterEmpty 0 = true ∧
    ((domDev 0 .on false).dom 0).idleAt + min1 ((domDev 0 .on false).fld 0x211C 15 8) * 1000 ≤ (domDev 0 .on false).now ∧
    ((domDev 0 (.entering true 5 false) false).dom 0).at_ + Dev.entryTime 5 ≤ (domDev 0 .on false).now ∧
    (((domDev 36 (.entering true 1 false) false)).port 0).state = .off ∧ ((domDev 0 .dusk true).dom 0).at_ + 12000 ≤ (domDev 0 .dusk true).now ∧
    ((domDev 0 .dusk false).now - ((domDev 0 .dusk false).dom 0).at_) % (min1 ((domDev 0 .dusk false).fld 0x211C 7 0) * 500) = 0 ∧
    (domDev 0 .on false).fld (Dev.fabA 0 + 0x100) 0 0 = 0 := by decide +kernel

theorem wit_domain_votes : (domDev 0 .on false).fwCluster 0 = false ∧ (domDev 0 .on false).voted 0 = false ∧ (domDev 0 .dusk false).wakes 0 = false ∧
    ((domDev 0 .dusk false).modDom 0 fun y => { y with comp := true, bell := true }).wakes 0 = true ∧
    ((domDev 0 .dusk false).modDom 0 fun y => { y with comp := true }).voted 0 = true ∧
    ((domDev 76 .midnight false).modDom 76 fun y => { y with comp := true }).returnWaits 76 = true := by decide +kernel

theorem wit_domain_entries : let on (n : Nat) (st : DomState) : Dev := (domDev n st false).modDom n fun y => { y with comp := true }
    (∀ x ∈ [(0, 2, true), (36, 1, false), (60, 1, false), (76, 1, false)], ((on x.1 (.entering true x.2.1 x.2.2)).dom x.1).state = .entering true x.2.1 x.2.2 ∧
      (on x.1 (.entering true 1 false)).voted x.1 = true) ∧ (domDev 60 (.entering true 1 false) false).voted 60 = false ∧
    (domDev 76 (.entering true 1 false) false).companionHolds = false ∧ (domDev 0 .returning false).now ≥ ((domDev 0 .returning false).dom 0).at_ + 150000 ∧
    Dev.pastAbort (.entering true 4 false) = true := by decide +kernel

theorem wit_sec_commands : poolDev.busy 0x6104 = false ∧ serviceDev.busy 0x118 = false ∧ serviceDev.dawn.step = .service ∧ (poolDev.part? 0).isSome = true ∧
    part0.conf = false ∧ ((({ poolDev with parts := [(0, { part0 with spill := some 1 })] } : Dev).part? 0).map (·.spill.isSome)) = some true ∧ 2 ≤ bits 0x140400 15 8 ∧ 5 ≤ bits 0x140400 31 16 ∧ bits 0x140400 31 16 ≤ 35 ∧
    ((poolDev.queuesOf 0).any fun x => x.2.state != .stopped) = false ∧ serviceDev.partLive 9 = false ∧ serviceDev.sec.dbgLive = false := by decide

theorem wit_destroy : (({ serviceDev with parts := [(0, part0)] } : Dev).partBusy 0 part0) = false ∧ (0 : Nat) < ({ serviceDev with fw := { serviceDev.fw with runSvn := 1 } } : Dev).fw.runSvn ∧
    ([(⟨0, 0, false, false⟩ : LogRec)].find? fun e => e.seq.toNat == bits 0 31 0).isSome = true := by decide

/-- A device in SERVICE with session 0 in a transport, secured or not. -/
def sessDev (via : SpdmVia) (sec : Bool) : Dev := { serviceDev with
  now := 30000000000, parts := poolDev.parts, dawn := { serviceDev.dawn with powered := true },
  sec := { serviceDev.sec with sessions := [(0, ⟨via, false, sec, 0, 0⟩)], dbgNonce := some 5 } }

theorem wit_spdm_other : poolDev.spdmReady = false ∧ (sessDev .sideband false).session? 1 = none ∧ (sessDev .sideband false).sidebandSession 0 = false ∧
    poolDev.tenantOf 0 = none ∧ poolDev.conf 9 = false ∧ ({ poolDev with parts := [(0, { part0 with conf := true })] } : Dev).conf 0 = true ∧
    (poolDev.sec.held.find? fun h => h.id == 0 && h.part == 0) = none ∧ poolDev.dawn.step ≠ .service := by decide

theorem wit_spdm : (sessDev .sideband false).spdmReady = true ∧ Dev.spdmCodes.contains (0x81 : BitVec 8).toNat = true ∧
    Dev.spdmCodes.contains (0xFF : BitVec 8).toNat = false ∧ ((sessDev .sideband false).sec.sessions.filter fun s => s.2.via == .sideband).length < 2 ∧
    (sessDev .sideband true).session? 0 = some ⟨.sideband, false, true, 0, 0⟩ ∧ 0 + 30000000000 ≤ (sessDev .sideband true).now ∧
    (sessDev .sideband true).sidebandSession 0 = true ∧ ((sessDev .sideband true).parts.any fun p => p.2.conf) = false := by decide

/-- Where the owner's signature verifies, a state meets what DEBUG_UNLOCK and DEBUG_DISABLE ask. -/
theorem wit_owner (f : Fuses) (g : BitVec 1056) (h : f.ownerHash ≠ 0) (v : Config.p521Verify f.ownerHash (leBytes 16 (5 : BitVec 128).toNat) g = true) :
    (sessDev .sideband true).ownerSigned f g = true := by
  show (f.ownerHash != 0 && Config.p521Verify f.ownerHash (leBytes 16 (5 : BitVec 128).toNat) g) = true
  rw [v, bne_iff_ne.mpr h]; rfl

theorem wit_tenant : (sessDev (.fabric 0) true).tenantOf 0 = some 0 ∧ leAt (List.replicate 80 0) 0 1 = 0 ∧ (sessDev (.fabric 0) true).sec.fkeys.length < 8192 ∧
    ((sessDev (.fabric 0) true).fkeysOf 0).length < 256 ∧ (sessDev (.fabric 0) true).busy 0x8104 = false ∧ fieldOf 8 3 0 = 8 ∧
    ((sessDev (.fabric 0) true).part? 0).isSome = true ∧ ((extDev .active).ext 0).state = .active ∧ ((extDev .active).ext 0).part = 0 ∧
    (sessDev (.fabric 0) true).gtc.count.toNat % (4 * 10) = 0 := by decide

theorem wit_fkey_free : ((List.range 8192).find? fun i => ((sessDev (.fabric 0) true).fkey i).isNone) = some 0 := by
  rw [List.find?_eq_some_iff_append]
  refine ⟨by decide, [], (List.range' 1 8191), ?_, by simp⟩
  rw [List.range_eq_range']; rfl

/-- A powered device in SERVICE whose complexes have two roles, with a ridge fault since a time or none. -/
def cplxDev (west east : Role) (fault : Option Nat) : Dev := { serviceDev with
  now := 30000000000, dawn := { serviceDev.dawn with powered := true }, fw := { serviceDev.fw with store := .running },
  ctl := { serviceDev.ctl with cplx := ⟨{ serviceDev.ctl.cplx.west with role := west, latch := false }, { serviceDev.ctl.cplx.east with role := east, latch := false }⟩, faultAt := fault, taken := false } }

theorem wit_complexes : (cplxDev .active .standby none).busy 0x4108 = false ∧ (cplxDev .active .standby none).orders = true ∧
    (cplxDev .active .standby none).otherComplex = .east ∧ (cplxDev .active .standby none).ctl.lastInput - ((cplxDev .active .standby none).cplx .east).seen < 64 ∧
    (cplxDev .standby .standby none).orders = false ∧ (cplxDev .standby .standby none).mayClaim .east = true ∧
    ((cplxDev .active .offline none).cplx .east).role = .offline ∧ (cplxDev .standby .standby (some 0)).strapHalf = .west ∧
    (0 : Nat) + 10000000 ≤ (cplxDev .standby .standby (some 0)).now ∧ ((cplxDev .standby .standby none).cplx .east).heardAt + 100000 ≤ (cplxDev .standby .standby none).now ∧
    ((cplxDev .standby .standby none).cplx .east).kickAt + 1000000 ≤ (cplxDev .standby .standby none).now ∧ (cplxDev .active .resync none).fw.store = .running ∧
    ((cplxDev .active .resync none).cplx .west).sentAt + 10000 ≤ (cplxDev .active .resync none).now := by decide

theorem wit_complex_off : Dev.reset.dawn.powered = false ∧ Dev.reset.coreLive 0 = false := by decide

theorem wit_handover : (({ cplxDev .standby .standby none with dawn := { (cplxDev .standby .standby none).dawn with step := .handover, mapped := true, stepAt := 0 } } : Dev).mayClaim .east) = true ∧
    Half.east ≠ (cplxDev .standby .standby none).strapHalf := by decide

theorem wit_interrupts : Dev.irqTop ⟨[7], none⟩ = some 7 ∧ Dev.irqTop ⟨[7], none⟩ ≠ some 8 ∧ (serviceDev.vec 3).mask = true ∧
    (serviceDev.setReg 0xD100 2).msiMayLeave = true ∧ ((serviceDev.setVec 0 ⟨0, 0, false, true, 1⟩).vec ((serviceDev.setVec 0 ⟨0, 0, false, true, 1⟩).fld 0x5104 10 0)).pend = true ∧
    serviceDev.fld 0x5100 0 0 = 1 ∧ (cplxDev .active .standby none).dawn.auxGood = true ∧
    (cplxDev .active .standby none).side.kickAt.east + 2000000000 ≤ (cplxDev .active .standby none).now := by decide

theorem wit_cores : let d := (cplxDev .active .standby none).setCore 5 { (cplxDev .active .standby none).core 5 with found := true, fenced := false, loading := false }
    d.coreLive 5 = true ∧ d.orders = true ∧ max (d.core 5).beatAt (d.dom 0).at_ + 10000000 ≤ d.now ∧ d.logicalOf 5 = none := by decide

/-- A device with good supplies and inputs at a step of the Dawn sequence. -/
def dawnDev (st : DawnStep) (running powered : Bool) : Dev := { Dev.reset with now := 2000000000, dawn := { Dev.reset.dawn with
  auxGood := true, crystal := true, mainGood := true, refGood := true, perstHigh := true, step := st, running := running, powered := powered } }

theorem wit_supplies : (dawnDev .rom false false).dawn.auxGood = true ∧ (Dev.cold (fun w => { w with auxGood := false }) Dev.reset).dawn.auxGood = false ∧ (dawnDev .rom false false).dawn.tripped = false ∧
    (dawnDev .rom false false).dawn.running = false ∧ (dawnDev .service false true).dawn.powered = true ∧ (9500 : Int) ≤ 25 * 380 ∧ (11500 : Int) ≤ 25 * 460 ∧
    (0 : Word32) ≠ 0x5741524D ∧ (1 : Word64) ≠ 0 ∧ (1 : Word64).toNat ≤ (pwrDev.gtc.count).toNat := by decide

theorem wit_dawn_steps : (dawnDev .rom true false).atStep .rom = true ∧ (dawnDev .verify true false).atStep .verify = true ∧ (dawnDev .power true false).atStep .power = true ∧
    (dawnDev .arrays true true).atStep .arrays = true ∧ (dawnDev .selftest true true).atStep .selftest = true ∧ (dawnDev .ddr true true).atStep .ddr = true ∧
    (dawnDev .fill true true).atStep .fill = true ∧ (dawnDev .handover true true).atStep .handover = true ∧ (dawnDev .handover true true).ctl.faultAt = none ∧
    (dawnDev .handover true true).dawn.stepAt + 1000000000 ≤ (dawnDev .handover true true).now ∧ (dawnDev .handover true true).orders = false ∧
    (dawnDev .service false true).busy 0x18C = false ∧ ({ dawnDev .service false true with cal := { (dawnDev .service false true).cal with recal := some (0, 0) } } : Dev).cal.recal.isSome = true := by decide

theorem wit_other_step : ∀ x ∈ [DawnStep.rom, .verify, .power, .arrays, .selftest, .ddr, .fill, .handover], (dawnDev .service false true).atStep x = false := by decide

theorem wit_cal_early : (dawnDev .rom false true).busy 0x18C = false ∧ (dawnDev .rom false true).dawn.step ≠ .service := by decide

theorem wit_fill_step : let d := foldN 24 (fun c d => d.setReg (Dev.ddrA c + 0x100) 1) (dawnDev .fill true true)
    d.dawn.failedCh = false ∧ (∀ c < 24, d.fld (Dev.ddrA c + 0x100) 1 0 = 1) := by decide +kernel

theorem wit_recal : let d := foldN 24 (fun p d => d.setReg (Dev.fabA p + 0x100) 0) ((dawnDev .service false true).cmdBegin 0x18C)
    ∀ i < 6, d.fld (Dev.fabA (6 * 3 + i) + 0x100) 0 0 ≠ 1 := by decide +kernel

/-- A reception of 3 fragments of which none is in place. -/
def rx0 (rep : Bool) : Reception := { tag := 1, count := 3, src := 0, act := 0, have_ := [], lastAt := 0, repair := rep, failed := [] }

theorem wit_companion : ((Dev.reset.setReg 0xD100 2).fld 0xD100 2 0) = 2 ∧ ((Dev.reset.setReg 0xD100 3).fld 0xD100 2 0) = 3 ∧ ((Dev.reset.setReg 0xD100 4).fld 0xD100 2 0) = 4 ∧
    Dev.reset.cmp.trainAt + 100000000 ≤ (dawnDev .service false true).now ∧ (Dev.reset.dom 76).state = .on ∧ Dev.reset.busy 0xD10C = false ∧
    Dev.reset.fw.holder = none ∧ (Dev.reset.reg 0xD120).toNat ≤ 3839 ∧ (Dev.reset.ext 0).state ≠ .active ∧
    fragmentOk { root := 0, tag := 1, index := 3, count := 3, crc := 0, srcAddr := 0, actCount := 0, data := [] } = false ∧ (rx0 false).lastAt + 10000000 ≤ (dawnDev .service false true).now ∧ Dev.missing (rx0 false) = [0, 1, 2] ∧
    (rx0 true).have_.contains 0 = false ∧ (NSet.insert 0 (rx0 true).have_).contains 2 = false := by decide

theorem wit_reception : Dev.reset.fw.rx = none ∧ ({ Dev.reset with fw := { Dev.reset.fw with rx := some (rx0 true) } } : Dev).fw.rx = some (rx0 true) := by decide

theorem wit_fragment : fragmentOk { root := 1, tag := 1, index := 1, count := 2, crc := crc32 [7], srcAddr := 0, actCount := 0, data := [7] } = true := by decide +kernel

/-- A powered device in SERVICE whose side-band port is an I3C target or not, and answers. -/
def sideDev (i3c : Bool) : Dev := { dawnDev .service false true with side := { Dev.reset.side with i3c := i3c } }

theorem wit_sideband_off : ({ Dev.reset with dawn := { Dev.reset.dawn with auxGood := false } } : Dev).portUp = false ∧ (sideDev false).side.i3c = false ∧ (sideDev false).portUp = true := by decide

theorem wit_sideband : (sideDev true).portUp = true ∧ (sideDev false).side.dynAddr = 0 ∧ (5 : BitVec 7) ≠ 0 ∧ (sideDev true).side.i3c = true ∧ (8 : BitVec 8) ≠ 255 ∧
    (Dev.pldmCommands (2 : BitVec 6).toNat).isSome = true ∧ Dev.pldmCommands (3 : BitVec 6).toNat = none := by decide

theorem wit_messages : Dev.reset.linkState ≠ 2 ∧ (Dev.reset.setReg 0xD100 2).linkState = 2 ∧ (0x118 : BitVec 16).toNat ≥ 0x118 ∧ (0xFF : BitVec 16).toNat < 0x100 ∧
    (dawnDev .power true false).dawn.powered = false := by decide

theorem wit_monitoring : (sideDev true).portUp = true ∧ (sideDev true).dawn.powered = true ∧ (sideDev true).dawn.step ≠ .hold ∧
    ({ dawnDev .power true false with side := (sideDev true).side } : Dev).portUp = true ∧ (dawnDev .power true false).dawn.step ≠ .service ∧
    (1 : BitVec 16).toNat ≤ 36 ∧ (0x117 : BitVec 16).toNat < 0x118 ∧ (75 : BitVec 32).toNat > 74 ∧ (0x33 : BitVec 16).toNat > 0x32 ∧ (7 : BitVec 8) ≠ 6 := by decide

/-- A device whose PLDM update stands in a phase, with the store held by a path. -/
def pldmDev (p : PldmPhase) (h : Option StoreHolder) : Dev := { sideDev true with fw := { (sideDev true).fw with pldm := p, holder := h, verified := true } }

theorem wit_pldm_off : ({ dawnDev .power true false with side := (sideDev true).side } : Dev).updateUp = false := by decide

theorem wit_pldm : (pldmDev .idle none).portUp = true ∧ (pldmDev .idle none).updateUp = true ∧ (pldmDev .idle none).fw.holder = none ∧
    (pldmDev .ready (some .pldm)).portUp = true ∧ (pldmDev .activate none).fw.verified = true ∧ (pldmDev .activate none).dawn.step ≠ .hold := by decide

/-- Where a manifest describes a good image, the state that VERIFY_COMPLETE asks exists. -/
theorem wit_image (s : State) (m : Config.Manifest) (h : Config.manifest s.nv.image.erased s.nv.image.cells = some m) (g : imageOk s.nv.fuses m = true) :
    s.imageInfo = some m := by simp [State.imageInfo, h, g, Option.filter]

theorem wit_register_writes : blkId ((0x9018 : BitVec 26).toNat / 4096) = some (0x0A, 0) ∧ (0x9018 : BitVec 26).toNat % 4096 = 0x018 ∧ Dev.reset.busy 0x8104 = false ∧
    blkId (9 : BitVec 14).toNat = some (0x0A, 0) ∧ (dawnDev .service false true).writeAnswers .companion 9 0x030 = true ∧
    (dawnDev .service false true).holdsPage .sideband 9 = false ∧ ((dawnDev .service false true).setReg 0x9030 2).holdsPage .sideband 9 = true ∧
    Dev.reset.writeAnswers .companion 9 0x030 = false ∧ blkId ((0xF000 : BitVec 26).toNat / 4096) = none ∧ (0xE004 : BitVec 26).toNat / 4096 = 0x00E ∧
    Dev.dataRegs 0x0A = some (0x110, 0x12C, 0x104) ∧ (Dev.reset.setReg 0x9104 1).busy (9 * 4096 + 0x104) = true ∧ Dev.reset.dataBusy 0x0A 9 0x130 = false := by decide

theorem wit_register_plain : (State.command 0x0A 0 0x130 5 State.reset).isNone = true ∧ (regRow 0x0A 0x130).isSome = true ∧ (State.command 0x03 0 0x124 5 State.reset).isNone = true ∧
    isPairLow (0x3100 : BitVec 26).toNat = true ∧ isPairLow (0x3104 : BitVec 26).toNat = false ∧ (dawnDev .service false true).readAnswers .firmware 3 0x100 = true ∧
    Dev.reset.readAnswers .firmware 3 0x100 = false := by decide

theorem wit_register_command : ∃ t, State.command 0x0F 0 0x100 1 State.reset = some (.next t) := ⟨_, rfl⟩

theorem wit_paths : let d := (cplxDev .active .standby none).setReg 0xD100 2
    d.fld 0xD100 2 0 = 2 ∧ d.dawn.step = .service ∧ d.orders = true ∧ d.dawn.powered = true ∧ (0x901C : Word32).toNat < 2 ^ 26 := by decide

theorem wit_keeps_store : ∃ t, exec .cohNop State.reset = .next t := ⟨_, rfl⟩

theorem wit_grow : Fuses.Grow Fuses.shipped State.reset.nv.fuses ∧ step State.reset = .next State.reset.tick := by
  refine ⟨⟨by decide, by decide, fun h => absurd rfl h⟩, rfl⟩

theorem wit_mem : Dev.reset.mem.wf = true ∧ Dev.reset.mem.poison.Pairwise (· < ·) := ⟨by decide, .nil⟩

theorem wit_no_borrow : Tbl.find Dev.reset.sec.borrow 0x9104 = none := rfl

/-- An active extent that a publication froze, with every permission stored. -/
def frozenExt : Ext := { extAt .active with perm := 0x3F }

theorem wit_frozen : bits frozenExt.perm.toNat 5 5 = 1 ∧ (Dev.reset.conf frozenExt.part && !frozenExt.accepted) = false ∧
    ({ Dev.reset with coh := { Coh.reset with exts := [(0, frozenExt)] } } : Dev).extAt 4096 = some (0, frozenExt) ∧
    kindWrites (.store 0) = true ∧ engWrites (.write 0 false) = true := by decide

theorem wit_perm : [XV.nan, .inf true].Perm [.inf true, .nan] ∧ [[XV.nan], [.inf true]].flatten.Perm [[XV.inf true, .nan]].flatten :=
  ⟨.swap _ _ _, .swap _ _ _⟩

/-! ### Ill-formed commands are refused by the checks of WellFormed -/

/-- A packet with n bytes of payload, for the checks below. -/
def packetOf (n : Nat) : Packet := mkPkt Dev.reset 5 0x20 0 0 (List.replicate n 0)

/-- A link frame with n payload bytes. -/
def linkFrameOf (n : Nat) : LinkFrame := { frameOf_ 0 244 with payload := List.replicate n 0 }

/-- A batten circuit frame with n payload bytes. -/
def circuitFrameOf (n : Nat) : CktFrame := ⟨1, false, false, 0, 0, List.replicate n 0⟩

/-- A fragment of n bytes, number i of c. -/
def pieceOf (n : Nat) (i c : BitVec 16) : Fragment := ⟨7, 0, i, c, 0, 0, 0, List.replicate n 0⟩

theorem test_wf_request : (Instr.loadShared (reqAt 2) false).wf = false ∧ (Instr.loadOwn (reqAt 3)).wf = false ∧ (Instr.store (reqAt 1) 0).wf = false ∧
    (Instr.writeInval (reqAt 2) 0 false).wf = false ∧ (Instr.writePartial (reqAt 2) 0 1).wf = false ∧ (Instr.doorbellWrite (reqAt 2) (.packet [])).wf = false ∧
    (Instr.loadOwn (reqAt 4)).wf = true := by decide

theorem test_wf_atomic : (Instr.atomic (reqAt 4) 0 false [1, 2, 3]).wf = false ∧ (Instr.atomic (reqAt 4) 2 false [1, 2, 3, 4]).wf = false ∧
    (Instr.atomic (reqAt 4) 2 false [1, 2, 3, 4, 5, 6, 7, 8]).wf = true ∧ (Instr.engineAccess (.mover 0 0) 0 0 (.update 0 true [1])).wf = false := by decide

/-- A DIMM of nothing, for the check of the length of a list of results. -/
def noDimm : Dimm := ⟨false, false, 0, 0, 0, 0, 0, 0, 0, 0, 0, 0, false, false, false, false, 0, 0, 0, 0, 0⟩

theorem test_wf_lengths : (Instr.temperatureSample (List.replicate 43 0)).wf = false ∧ (Instr.mr4Poll 0 (List.replicate 5 .doubled)).wf = false ∧
    (Instr.driveReadComplete 0 (List.replicate 17 ⟨[]⟩)).wf = false ∧ (Instr.driveReadComplete 0 [⟨[none]⟩]).wf = false ∧
    (Instr.dramReadData (.dram 0 32 0 .none)).wf = false ∧ (Instr.dramReadData (.dram 0 (2 ^ 38) 0 .none)).wf = false ∧
    (Instr.dramReadData (.core 0 (2 ^ 20) ⟨0, 0⟩)).wf = false ∧
    (Instr.driveBringUpDone (List.replicate 17 ⟨0, false, 0, 0, 0, false, false, 0, 0, 0, [], 0, 0⟩)).wf = false ∧
    (Instr.ddrTraining (List.replicate 25 ⟨0, 0, noDimm, false, false, []⟩)).wf = false ∧
    (Instr.deviceTransactionAnswer .companion 5 0 (.forwarded (List.replicate 65 0) 0)).wf = false := by
  refine ⟨?_, ?_, ?_, ?_, ?_, ?_, ?_, ?_, ?_, ?_⟩ <;> decide

theorem test_wf_link_frame : (Instr.dataFrame 0 (linkFrameOf 245)).wf = false ∧ (Instr.status 0 (linkFrameOf 245)).wf = false ∧ (Instr.ts 0 (linkFrameOf 245)).wf = false ∧
    (Instr.sreq 0 (linkFrameOf 245)).wf = false ∧ (Instr.linkReset 0 (linkFrameOf 245)).wf = false ∧ (Instr.linkDown 0 (linkFrameOf 245)).wf = false ∧
    (Instr.testFrame 0 (linkFrameOf 245)).wf = false ∧ (Instr.dataFrame 0 (linkFrameOf 244)).wf = true := by
  simp only [Instr.wf, LinkFrame.wf, linkFrameOf, List.length_replicate]; decide

theorem test_wf_circuit_frame : (Instr.battenCircuitFrame 0 (circuitFrameOf 32)).wf = false ∧ (Instr.battenCircuitFrame 0 (circuitFrameOf 100)).wf = false ∧
    (Instr.battenCircuitFrame 0 (circuitFrameOf 64)).wf = true := by
  simp [Instr.wf, CktFrame.wf, circuitFrameOf]

theorem test_wf_fragment : (Instr.fwFrag (pieceOf 0 0 1)).wf = false ∧ (Instr.fwFrag (pieceOf 1 1 1)).wf = false ∧ (Instr.fwFrag (pieceOf 1 0 3872)).wf = false ∧
    (Instr.fwFrag (pieceOf 1 0 1)).wf = true := by decide

theorem test_wf_packet : Packet.wf (packetOf 4097) = false ∧ (Instr.mailboxResponse 0 (List.replicate 4097 0)).wf = false := by
  simp only [Packet.wf, packetOf, mkPkt, Instr.wf, List.length_replicate]; decide

end Sys2Proof.Machine
end

section
/-! PROOFS. Case distinctions: what a function of one is, case by case. -/

namespace Sys2Proof.Machine

theorem ite_transport {α β : Type} (f : α → β) {c c' : Prop} [Decidable c] [Decidable c'] {a b : α} {a' b' : β} (hc : c ↔ c')
    (ha : c → f a = a') (hb : ¬ c → f b = b') : f (if c then a else b) = if c' then a' else b' := by
  by_cases h : c
  · rw [if_pos h, if_pos (hc.mp h), ha h]
  · rw [if_neg h, if_neg (mt hc.mpr h), hb h]

/-- The two spellings of a condition that is false. -/
theorem not_iff_false (b : Bool) : (!b) = true ↔ b = false := iff_of_eq (Bool.not_eq_true' b)

/-- A negated test chooses the other branch. -/
theorem ite_not_true {α : Type} (b : Bool) (x y : α) : (if (!b) = true then x else y) = if b = true then y else x := by
  cases b <;> rfl

end Sys2Proof.Machine
end

section
/-! PROOFS. Fields of registers, and what an interrupt, a cause and the end of a command leave as they were. -/

namespace Sys2Proof.Machine

/-! ### Fields of a word -/

/-- The store of a field, bit by bit: a bit of the field comes from the value, every other bit from the word. -/
theorem getLsbD_insField (w : Word32) (hi lo v i : Nat) (hi32 : hi < 32) (hlo : lo ≤ hi) :
    (insField w hi lo v).getLsbD i = if lo ≤ i ∧ i ≤ hi then v.testBit (i - lo) else w.getLsbD i := by
  have hmask : (BitVec.ofNat 32 ((2 ^ (hi - lo + 1) - 1) * 2 ^ lo)).getLsbD i = decide (lo ≤ i ∧ i ≤ hi) := by
    rw [BitVec.getLsbD_ofNat, Nat.testBit_mul_two_pow, Nat.testBit_two_pow_sub_one, Bool.eq_iff_iff]
    simp only [Bool.and_eq_true, decide_eq_true_eq]
    omega
  simp only [insField, BitVec.getLsbD_or, BitVec.getLsbD_and, BitVec.getLsbD_not, hmask]
  by_cases h : lo ≤ i ∧ i ≤ hi
  · have h32 : i < 32 := by omega
    rw [BitVec.getLsbD_ofNat, Nat.testBit_mul_two_pow]
    simp [h, h32]
  · by_cases h32 : i < 32
    · simp [h, h32]
    · simp [h, BitVec.getLsbD_of_ge w i (by omega)]

/-- A field reads back as stored, if the value fits. -/
theorem fieldOf_insField (w : Word32) (hi lo v : Nat) (hi32 : hi < 32) (hlo : lo ≤ hi) (hv : v < 2 ^ (hi - lo + 1)) :
    fieldOf (insField w hi lo v) hi lo = v := by
  apply Nat.eq_of_testBit_eq
  intro i
  have h := getLsbD_insField w hi lo v (i + lo) hi32 hlo
  rw [BitVec.getLsbD] at h
  simp only [fieldOf, bits, Nat.testBit_mod_two_pow, Nat.testBit_div_two_pow, h]
  by_cases hi' : i < hi - lo + 1
  · rw [if_pos (by omega)]
    simp [hi']
  · simp only [hi', decide_false, Bool.false_and]
    exact (Nat.testBit_lt_two_pow (lt_of_lt_of_le hv (Nat.pow_le_pow_right (by decide) (by omega)))).symm

/-! ### What a notification leaves alone -/

/-- The device `t` is the device `d` but for the registers that `ch` names, counters, vectors, outputs and the control complexes: the registers
that no notification writes, the latches, the held words, the error logs and the side-band port are as before. -/
structure Dev.Notified (ch : Nat → Prop) (d t : Dev) : Prop where
  reg : ∀ a, ¬ ch a → t.reg a = d.reg a
  latch : t.regs.latch = d.regs.latch
  held : t.regs.held = d.regs.held
  ras : t.ras = d.ras
  side : t.side = d.side

theorem Dev.Notified.refl (ch : Nat → Prop) (d : Dev) : Dev.Notified ch d d := ⟨fun _ _ => rfl, rfl, rfl, rfl, rfl⟩

theorem Dev.Notified.trans {ch : Nat → Prop} {d t u : Dev} (h : Dev.Notified ch d t) (k : Dev.Notified ch t u) : Dev.Notified ch d u :=
  ⟨fun a ha => (k.reg a ha).trans (h.reg a ha), k.latch.trans h.latch, k.held.trans h.held, k.ras.trans h.ras, k.side.trans h.side⟩

theorem Dev.Notified.mono {ch ch' : Nat → Prop} {d t : Dev} (h : Dev.Notified ch d t) (hc : ∀ a, ch a → ch' a) : Dev.Notified ch' d t :=
  ⟨fun a ha => h.reg a (mt (hc a) ha), h.latch, h.held, h.ras, h.side⟩

theorem Dev.notified_setReg {ch : Nat → Prop} {a : Nat} (ha : ch a) (v : Word32) (d : Dev) : Dev.Notified ch d (d.setReg a v) :=
  ⟨fun b hb => d.reg_setReg_ne a v b fun h => hb (h ▸ ha), rfl, rfl, rfl, rfl⟩

theorem Dev.notified_setVec (ch : Nat → Prop) (v : Nat) (x : MsgVector) (d : Dev) : Dev.Notified ch d (d.setVec v x) :=
  ⟨fun _ _ => rfl, rfl, rfl, rfl, rfl⟩

theorem Dev.notified_bump (ch : Nat → Prop) (p o n : Nat) (d : Dev) : Dev.Notified ch d (d.bump p o n) :=
  ⟨fun _ _ => rfl, rfl, rfl, rfl, rfl⟩

/-- CTL.CSN, which a message interrupt advances (R540). -/
def Dev.isCsn (a : Nat) : Prop := a = 0x410C

theorem Dev.notified_sendMsi (x : Word64) (v : Word32) (d : Dev) : Dev.Notified Dev.isCsn d (d.sendMsi x v) := by
  unfold Dev.sendMsi
  split
  · have hcsn := Dev.notified_setReg (ch := Dev.isCsn) rfl (d.reg 0x410C + 1) d
    exact ⟨hcsn.reg, rfl, rfl, rfl, rfl⟩
  · exact ⟨fun _ _ => rfl, rfl, rfl, rfl, rfl⟩

theorem Dev.notified_arriveVec (v : Nat) (d : Dev) : Dev.Notified Dev.isCsn d (d.arriveVec v) := by
  unfold Dev.arriveVec Dev.sendVec
  simp only []
  split
  · exact ((Dev.notified_sendMsi _ _ d).trans (Dev.notified_bump _ _ _ _ _)).trans (Dev.notified_setVec _ _ _ _)
  · exact (Dev.notified_bump _ _ _ _ d).trans (Dev.notified_setVec _ _ _ _)

theorem Dev.notified_blkEdge (page : Nat) (before : Bool) (d : Dev) : Dev.Notified Dev.isCsn d (d.blkEdge page before) := by
  unfold Dev.blkEdge
  split
  · simp only []
    split
    · exact Dev.notified_arriveVec _ d
    · exact Dev.Notified.refl _ d
  · exact Dev.Notified.refl _ d

/-- A cause writes INT_CAUSE of its block and, through a message interrupt, CTL.CSN. -/
theorem Dev.notified_cause (page bit : Nat) (d : Dev) :
    Dev.Notified (fun a => a = Reg.intCause page ∨ Dev.isCsn a) d (d.cause page bit) :=
  (Dev.notified_setReg (.inl rfl) _ d).trans ((Dev.notified_blkEdge page _ _).mono fun _ => .inr)

/-- INT_CAUSE is no word of CTL.CSN: they stand at other offsets of their pages. -/
theorem Reg.intCause_ne_csn (page : Nat) : ¬ Dev.isCsn (Reg.intCause page) := by
  unfold Dev.isCsn Reg.intCause
  omega

/-- The bit that a cause sets. -/
theorem Dev.cause_sets (page bit : Nat) (d : Dev) (hbit : bit < 32) : ((d.cause page bit).reg (Reg.intCause page)).getLsbD bit = true := by
  unfold Dev.cause
  rw [(Dev.notified_blkEdge page _ _).reg _ (Reg.intCause_ne_csn page), Dev.reg_setReg_self]
  simp [hbit]

/-! ### The end of a command -/

/-- The command status register when a command has ended (R68). -/
theorem Dev.reg_cmdEnd_sts (page sts bit : Nat) (st : Status) (d : Dev) (hb : Tbl.find d.sec.borrow sts = none)
    (hi : sts ≠ Reg.intCause page) (hc : sts ≠ 0x410C) :
    (d.cmdEnd page sts bit st).reg sts = insField (insField (d.reg sts) 0 0 0) 15 8 st.code.toNat := by
  unfold Dev.cmdEnd
  rw [hb, (Dev.notified_cause page bit _).reg sts (not_or.mpr ⟨hi, hc⟩)]
  simp [Dev.reg_setFld]

/-- The end of a command writes its status register, INT_CAUSE of its block and, through a message interrupt, CTL.CSN. -/
theorem Dev.notified_cmdEnd (page sts bit : Nat) (st : Status) (d : Dev) (hb : Tbl.find d.sec.borrow sts = none) :
    Dev.Notified (fun a => a = sts ∨ a = Reg.intCause page ∨ Dev.isCsn a) d (d.cmdEnd page sts bit st) := by
  unfold Dev.cmdEnd
  rw [hb]
  have hfld : ∀ hi lo v (x : Dev), Dev.Notified (fun a => a = sts ∨ a = Reg.intCause page ∨ Dev.isCsn a) x (x.setFld sts hi lo v) :=
    fun _ _ _ x => Dev.notified_setReg (.inl rfl) _ x
  exact ((hfld _ _ _ d).trans (hfld _ _ _ _)).trans ((Dev.notified_cause page bit _).mono fun _ => .inr)

/-- Settles O8: the status register holds what the two stores of fields leave, and the cause writes another register. -/
theorem commandEndChangesStatusAndCause : Obligations.CommandEndChangesStatusAndCause := by
  intro d page sts bit st hb hi hc hbit
  have hsts := d.reg_cmdEnd_sts page sts bit st hb hi hc
  obtain ⟨hreg, hlatch, hheld, hras, hside⟩ := d.notified_cmdEnd page sts bit st hb
  refine ⟨?busy, ?status, ?cause, fun a h1 h2 h3 => hreg a ?_, hlatch, hheld, hras, hside, d.rest_cmdEnd page sts bit st hb⟩
  case busy =>
    rw [Dev.busy, hsts, getLsbD_insField _ 15 8 _ 0 (by decide) (by decide), getLsbD_insField _ 0 0 _ 0 (by decide) (by decide)]
    rfl
  case status =>
    rw [hsts]
    exact fieldOf_insField _ 15 8 _ (by decide) (by decide) st.code.isLt
  case cause =>
    unfold Dev.cmdEnd
    rw [hb]
    exact Dev.cause_sets page bit _ hbit
  · exact not_or.mpr ⟨h1, not_or.mpr ⟨h2, h3⟩⟩

/-- Settles O58: every one of these operations is a notification, by the law of each. -/
theorem notificationsLeaveTheMachineAlone : Obligations.NotificationsLeaveTheMachineAlone := by
  intro d a b p q o n v hi lo i x u h f
  exact ⟨d.rest_setReg a x, d.rest_setFld a hi lo v, d.rest_setData a n v, d.rest_bump p o n, d.rest_emit u, d.rest_cause p i,
    d.rest_errEvent p i, d.rest_illegal p, d.rest_log h f, d.rest_cmdBegin a, fun st hb => d.rest_cmdEnd p a i st hb, d.reg_setReg a x b,
    fun p' => d.ctr_bump p o n p' q⟩

end Sys2Proof.Machine
end

section
/-! PROOFS. What a block does with a command: the guard of BUSY, said once for each block. -/

namespace Sys2Proof.Machine

/-! ### A command on a BUSY block (R68) -/

/-- A way to run block commands under a command status register that, while it shows BUSY, does no more than an illegal write. -/
def Dev.Guards (page sts : Nat) (run : Dev → Dev) : Prop := ∀ d : Dev, d.busy sts = true → run d = d.illegal page

theorem Dev.hostCmd_guards (f : Dev → Status × Dev) : Dev.Guards Reg.coh 0x9144 (Dev.hostCmd f) := fun _ h => if_pos h
theorem Dev.xltCmd_guards (f : Dev → Option Status × Dev) : Dev.Guards Reg.xlt 0x8104 (Dev.xltCmd f) := fun _ h => if_pos h
theorem Dev.tierCmd_guards (f : Dev → Option Status × Dev) : Dev.Guards Reg.tier 0xA104 (Dev.tierCmd f) := fun _ h => if_pos h
theorem Dev.opqCmd_guards (f : Dev → Option Status × Dev) : Dev.Guards Reg.opq 0x7104 (Dev.opqCmd f) := fun _ h => if_pos h
theorem Dev.rteCmd_guards (f : Dev → Option Status × Dev) : Dev.Guards Reg.rte 0xB104 (Dev.rteCmd f) := fun _ h => if_pos h
theorem Dev.shpCmd_guards (f : Dev → Status × Dev) : Dev.Guards Reg.shp 0xC104 (Dev.shpCmd f) := fun _ h => if_pos h
theorem Dev.secCmd_guards (f : Dev → Option Status × Dev) : Dev.Guards Reg.sec 0x6104 (Dev.secCmd f) := fun _ h => if_pos h
theorem Dev.ctlCmd_guards (f : Dev → Option Status × Dev) : Dev.Guards Reg.ctl 0x4108 (Dev.ctlCmd f) := fun _ h => if_pos h
theorem Dev.pwrCmd_guards (f : Dev → Option Status × Dev) : Dev.Guards Reg.pwr 0x2104 (Dev.pwrCmd f) := fun _ h => if_pos h
theorem Dev.cmpCmd_guards (f : Dev → Option Status × Dev) : Dev.Guards Reg.cmp 0xD10C (Dev.cmpCmd f) := fun _ h => if_pos h
theorem Dev.glbCmd_guards (f : Dev → Option Status × Dev) : Dev.Guards Reg.glb 0x118 (Dev.glbCmd f) := fun _ h => if_pos h
theorem Dev.calCmd_guards (f : Dev → Option Status × Dev) : Dev.Guards Reg.glb 0x18C (Dev.calCmd f) := fun _ h => if_pos h
theorem Dev.trainCmd_guards (c : Nat) (f : Dev → Option Status × Dev) : Dev.Guards (Reg.ddr c) (Dev.ddrA c + 0x118) (Dev.trainCmd c f) :=
  fun _ h => if_pos h
theorem Dev.rasCmd_guards (h : Half) (f : Dev → Option Status × Dev) : Dev.Guards (Reg.ras h) (Reg.ras h * 4096 + 0x104) (Dev.rasCmd h f) :=
  fun _ h => if_pos h
theorem Dev.portCmd_guards (p : Nat) (f : Dev → Option Status × Dev) : Dev.Guards (Reg.fab p) (Dev.fabA p + 0x10C) (Dev.portCmd p f) :=
  fun _ h => if_pos h

/-- Every block command runs under the guard of its block, whatever the fuses and the store hold. -/
theorem exec_guarded (c : Instr) (page sts : Nat) (h : Obl.commandOf c = some (page, sts)) (s : State) :
    ∃ run, Dev.Guards page sts run ∧ exec c s = .next (s.onDev run) := by
  cases c
  case hostNop | hostRead | clearDead | declareDead => cases h; exact ⟨_, Dev.hostCmd_guards _, rfl⟩
  case xltNop | ctxRead | ctxWrite | invPage | invRange | invPart | faultRead | faultResume | faultAbort =>
    cases h; exact ⟨_, Dev.xltCmd_guards _, rfl⟩
  case tierNop | areaSet | thatchInit | flush | driveFail | driveRebuild => cases h; exact ⟨_, Dev.tierCmd_guards _, rfl⟩
  case opqNop | qCreate | qRead | qDrain | qEnable | qReset | qDestroy | partSet | partRead | coreAssign | coreRelease |
      partReset =>
    cases h; exact ⟨_, Dev.opqCmd_guards _, rfl⟩
  case rteNop | rtRead | rtWrite | treeRead | treeWrite | cktOpen | cktClose | cktRead => cases h; exact ⟨_, Dev.rteCmd_guards _, rfl⟩
  case shpNop | mtrRead | mtrWrite => cases h; exact ⟨_, Dev.shpCmd_guards _, rfl⟩
  case secNop | slotRead | secLogRead | quietSet | fkeyFlush => cases h; exact ⟨_, Dev.secCmd_guards _, rfl⟩
  case ctlNop | switchover | standbyResync => cases h; exact ⟨_, Dev.ctlCmd_guards _, rfl⟩
  case pwrNop | vote | partPolicy | thermPoint | psensePoint => cases h; exact ⟨_, Dev.pwrCmd_guards _, rfl⟩
  case cmpNop | imgDistribute => cases h; exact ⟨_, Dev.cmpCmd_guards _, rfl⟩
  case glbNop | partCreate | partDestroy | partQuery => cases h; exact ⟨_, Dev.glbCmd_guards _, rfl⟩
  case calNop | optRecal => cases h; exact ⟨_, Dev.calCmd_guards _, rfl⟩
  case ddrNop | trainCheck => cases h; exact ⟨_, Dev.trainCmd_guards _ _, rfl⟩
  case rasNop | rasLogRead | markDevice | retireRow | retireBank | clearLostSet => cases h; exact ⟨_, Dev.rasCmd_guards _ _, rfl⟩
  case fabNop | retrain | testStart | testStop | clearHeld => cases h; exact ⟨_, Dev.portCmd_guards _ _, rfl⟩
  all_goals exact nomatch h

/-- Settles O10: while the status register shows BUSY, the guard under which the command runs does an illegal write, which is a notification. -/
theorem blockCommandWhileBusyIsIllegal : Obligations.BlockCommandWhileBusyIsIllegal := by
  intro c s page sts h hbusy
  obtain ⟨run, hguard, hexec⟩ := exec_guarded c page sts h s
  refine ⟨?_, s.dev.rest_illegal page⟩
  rw [hexec]
  simp only [State.onDev, hguard s.dev hbusy]

end Sys2Proof.Machine
end

section
/-! PROOFS. The commands and messages of circuits. -/

namespace Sys2Proof.Machine

/-! ### Circuits (R460 to R466) -/

/-- How a command of RTE goes on after its effect: a status ends it. -/
def Dev.rteEnd (r : Option Status × Dev) : Dev :=
  match r.1 with
  | some st => r.2.cmdEnd Reg.rte 0xB104 1 st
  | none => r.2

theorem Dev.rteCmd_idle (f : Dev → Option Status × Dev) (d : Dev) (h : d.busy 0xB104 = false) :
    d.rteCmd f = Dev.rteEnd (f (d.cmdBegin 0xB104)) := by
  unfold Dev.rteCmd Dev.rteEnd
  rw [h]
  rfl

/-- An answer from downstream finds an entry in SETUP whose out port is the port it came from (R461, R462). -/
theorem Dev.awaits_iff (c : Circuit) (p : Nat) :
    (decide (c.state = .setup) && Dev.fromDown c p) = true ↔ c.state = .setup ∧ Dev.fromDown c p = true := by
  rw [Bool.and_eq_true, decide_eq_true_eq]

theorem Dev.not_awaits (c : Circuit) (p : Nat) (h : c.state ≠ .setup ∨ Dev.fromDown c p = false) :
    ¬ (decide (c.state = .setup) && Dev.fromDown c p) = true := by
  rw [Dev.awaits_iff, not_and_or, Bool.not_eq_true]
  exact h

/-- Settles O33: the commands and messages of circuits, branch by branch. -/
theorem circuitCommandsAndSetupTakeEffect : Obligations.CircuitCommandsAndSetupTakeEffect := by
  intro s p k d e x b w done
  refine ⟨fun hidle => ⟨?opens, ?closes, ?reads⟩, ?setup, ⟨?confirmNone, ?rejectNone, fun hs hd => ⟨fun q hr hq =>
    ⟨?confirmTransit, ?rejectTransit⟩, fun hr => ⟨?confirmSource, ?rejectSource⟩⟩⟩, ?tear, fun l => ?timeout⟩
  case opens =>
    refine (congrArg (Obl.dev s) (Dev.rteCmd_idle Dev.cktOpen d hidle)).trans ?_
    refine ite_transport (fun r => Obl.dev s (Dev.rteEnd r)) Iff.rfl (fun _ => rfl) fun _ => ?_
    refine ite_transport (fun r => Obl.dev s (Dev.rteEnd r)) Iff.rfl (fun _ => rfl) fun _ => ?_
    subst x
    subst e
    cases (d.cmdBegin 0xB104).freeCkt with
    | none => rfl
    | some l =>
      dsimp only
      cases (d.cmdBegin 0xB104).routeFrom (BitVec.ofNat 16 (bits (d.cmdBegin 0xB104).rteData 31 16)) none with
      | none => rfl
      | some q => exact ite_transport (fun r => Obl.dev s (Dev.rteEnd r)) (by simp) (fun _ => rfl) fun _ => rfl
  case closes =>
    refine (congrArg (Obl.dev s) (Dev.rteCmd_idle Dev.cktClose d hidle)).trans ?_
    exact ite_transport (fun r => Obl.dev s (Dev.rteEnd r)) (by simp [e, x]) (fun _ => rfl) fun _ => rfl
  case reads => exact congrArg (Obl.dev s) (Dev.rteCmd_idle Dev.cktRead d hidle)
  case setup =>
    refine congrArg (Obl.dev s) ?_
    unfold Dev.cktSetup
    cases s.dev.freeCkt <;> rfl
  case confirmNone | rejectNone => exact fun h => congrArg (Obl.dev s) (if_neg (Dev.not_awaits _ _ h))
  case confirmTransit | rejectTransit =>
    refine congrArg (Obl.dev s) ((if_pos ((Dev.awaits_iff _ _).mpr ⟨hs, hd⟩)).trans ?_)
    simp only [d] at hr hq
    rw [hr, hq]
  case confirmSource | rejectSource =>
    refine congrArg (Obl.dev s) ((if_pos ((Dev.awaits_iff _ _).mpr ⟨hs, hd⟩)).trans ?_)
    simp only [d] at hr
    rw [hr]
  case tear =>
    show Obl.dev s (Dev.cktTear p.val k s.dev) = _
    unfold Dev.cktTear
    cases h : s.dev.tearEntry p.val k.word.toNat with
    | none => simp only [h]; rfl
    | some l => simp only [h]; rfl
  case timeout => exact ite_transport (Obl.dev s) (by simp [d, and_assoc]) (fun _ => rfl) fun _ => rfl

end Sys2Proof.Machine
end

section
/-! PROOFS. The events of the router. -/

namespace Sys2Proof.Machine

/-! ### Transactions of the device, trees (R454, R469 to R471) -/

/-- An answer that finds no transaction of its node and TAG is discarded (R454). -/
theorem Dev.devAnswer_none (n : NodeId) (t : Tag) (a : DevAnswer) (d : Dev) (h : d.devTx? n t = none) : d.devAnswer n t a = d := by
  unfold Dev.devAnswer
  rw [h]

/-- Settles O36: an answer by its transaction, its form and its status; the other events by their guards. -/
theorem routerEventsTakeEffect : Obligations.RouterEventsTakeEffect := by
  intro s d
  refine ⟨fun via n t a => ?answer, fun n t => ?expiry, fun i => ?lifetime, fun n p => ?prune, fun p => ?fabric, fun via k => ?mcast, fun via k => ?notice⟩
  case answer =>
    intro g
    have hfrom : exec (.deviceTransactionAnswer via n t a) s = Obl.dev s (g.devAnswer n t a) := by cases a <;> rfl
    rw [hfrom]
    clear_value g
    refine ⟨fun h => congrArg (Obl.dev s) (Dev.devAnswer_none n t a g h), fun x h => congrArg (Obl.dev s) ?_⟩
    unfold Dev.devAnswer
    rw [h]
    refine ite_transport id Iff.rfl (fun _ => rfl) fun _ => ?_
    cases a with
    | policed hint => rfl
    | forwarded data retry => rfl
    | home code data fwd retry hint =>
      refine ite_transport id Iff.rfl (fun _ => rfl) fun _ => ?_
      cases Status.ofCode code <;> rfl
  case expiry =>
    show Obl.dev s (Dev.dtoExpiry n t d) = _
    unfold Dev.dtoExpiry
    cases d.devTx? n t with
    | none => rfl
    | some x => exact apply_ite (Obl.dev s) _ _ _
  case lifetime => rfl
  case prune => exact apply_ite (Obl.dev s) _ _ _
  case fabric =>
    show next (s.fabricPacket p.val) = _
    unfold State.fabricPacket
    cases d.popRx p.val <;> rfl
  case mcast =>
    intro n t d1 up
    show next (s.mcast via k) = _
    refine ite_transport next (or_congr (not_iff_false _) (or_congr Iff.rfl (or_congr (not_iff_false _) Iff.rfl))) (fun _ => rfl) fun _ => ?_
    refine ite_transport next (not_iff_false _) (fun _ => rfl) fun _ => ?_
    cases k.arg.getLsbD 0 with
    | false => rfl
    | true => cases k.poison <;> rfl
  case notice => rfl

end Sys2Proof.Machine
end

section
/-! PROOFS. The sync tree. -/

namespace Sys2Proof.Machine

/-! ### The global count (R369 to R395) -/

/-- What leaves the rest of the device alone leaves the global count alone. -/
theorem Dev.gtc_of_rest {d t : Dev} (h : t.rest = d.rest) : t.gtc = d.gtc :=
  (congrArg Dev.gtc h : t.rest.gtc = d.rest.gtc)

theorem Dev.gtc_cause (p b : Nat) (d : Dev) : (d.cause p b).gtc = d.gtc := Dev.gtc_of_rest (d.rest_cause p b)

theorem Dev.gtc_logSync (sev : Nat) (d : Dev) : (d.logSync sev).gtc = d.gtc := Dev.gtc_of_rest (d.rest_log _ _)

/-- A sync record changes no register. -/
theorem Dev.syncState_modSync (f : Sync → Sync) (d : Dev) : (d.modSync f).syncState = d.syncState := rfl

/-- The registers of the measured offset and delay are not the one of the state. -/
theorem Dev.syncState_setReg (a : Nat) (v : Word32) (d : Dev) (h : 0x3110 ≠ a) : (d.setReg a v).syncState = d.syncState := by
  unfold Dev.syncState Dev.fld
  rw [Dev.reg_setReg_ne _ _ _ _ h]

/-- What a valid exchange records before the follower judges it (R376, R378). -/
def Dev.measured (o2 delay : Int) (d : Dev) : Dev :=
  (((d.bump Reg.gtc 0x040 1).setReg 0x3118 (BitVec.ofInt 32 (max (-2147483648) (min 2147483647 (2 * o2))))).setReg 0x311C
    (BitVec.ofNat 32 (delay / 2).toNat)).modSync fun s =>
      { s with validAt := d.now, offsets := (o2 :: s.offsets).take 8, run := if -8 ≤ o2 ∧ o2 ≤ 8 then s.run + 1 else 0 }

theorem Dev.syncState_measured (o2 delay : Int) (d : Dev) : (d.measured o2 delay).syncState = d.syncState := by
  unfold Dev.measured
  rw [Dev.syncState_modSync, Dev.syncState_setReg _ _ _ (by decide), Dev.syncState_setReg _ _ _ (by decide)]
  rfl

/-- What a follower does with an offset (R379): in ACQUIRING the count steps, is held, or the exchange counts toward LOCKED. -/
def Dev.judgeOffset (o2 : Int) (d : Dev) : Dev :=
  if d.syncState ≠ 1 then d
  else if o2 < -2000 then ((d.stepCount (d.gtc.count + BitVec.ofNat 64 ((-o2) / 2).toNat)).cause Reg.gtc 3).logSync 0
  else if o2 > 2000 then ((({ d with gtc := { d.gtc with freeze := d.now + (o2 / 2).toNat } }.bump Reg.gtc 0x048 1).cause Reg.gtc 3).logSync 0)
  else if d.sync.run ≥ 8 then d.enterSync 2
  else d

theorem Dev.exchangeDone_eq (o2 delay : Int) (d : Dev) :
    d.exchangeDone o2 delay = Dev.judgeOffset o2 (if (d.measured o2 delay).syncState = 3 ∨ ((d.measured o2 delay).syncState = 2 ∧ (o2 > 2000 ∨ o2 < -2000))
      then (d.measured o2 delay).enterSync 1 else d.measured o2 delay) := rfl

/-- In ACQUIRING a valid exchange is judged at once. -/
theorem Dev.exchangeDone_acquiring (o2 delay : Int) (d : Dev) (h : d.syncState = 1) :
    d.exchangeDone o2 delay = (d.measured o2 delay).judgeOffset o2 := by
  have hs : (d.measured o2 delay).syncState = 1 := (d.syncState_measured o2 delay).trans h
  rw [Dev.exchangeDone_eq, if_neg (by omega)]

/-- An offset of more than 1,000 ns behind steps the count. -/
theorem Dev.count_judgeOffset_behind (o2 : Int) (d : Dev) (h : d.syncState = 1) (ho : o2 < -2000) :
    (d.judgeOffset o2).gtc.count = d.gtc.count + BitVec.ofNat 64 ((-o2) / 2).toNat := by
  unfold Dev.judgeOffset
  rw [if_neg (not_not.mpr h), if_pos ho, Dev.gtc_logSync, Dev.gtc_cause]
  rfl

/-- An offset of more than 1,000 ns ahead freezes the count. -/
theorem Dev.freeze_judgeOffset_ahead (o2 : Int) (d : Dev) (h : d.syncState = 1) (ho : 2000 < o2) :
    (d.judgeOffset o2).gtc.freeze = d.now + (o2 / 2).toNat := by
  unfold Dev.judgeOffset
  rw [if_neg (not_not.mpr h), if_neg (by omega), if_pos ho, Dev.gtc_logSync, Dev.gtc_cause]
  rfl

/-- Settles O37: an offset is judged by the state that the records before it leave alone; the other events are the guards of the statement. -/
theorem syncTreeEventsTakeEffect : Obligations.SyncTreeEventsTakeEffect := by
  intro s d
  refine ⟨?send, fun p m => ?receive, fun p m => ?echo, fun o2 delay hs => ⟨fun ho => ?step, fun ho => ?freeze⟩, ?freezeEnd, ?holdover, ?timeout,
    fun path v => ?setHi, fun path v => ?role⟩
  case send => exact apply_ite (Obl.dev s) _ _ _
  case receive =>
    refine ite_transport (Obl.dev s) Iff.rfl (fun _ => rfl) fun _ => ?_
    refine ite_transport (Obl.dev s) Iff.rfl (fun _ => rfl) fun _ => ?_
    refine congrArg (Obl.dev s) ?_
    dsimp only
    cases List.find? (fun x : Exchange => x.seq == m.rxSeq && decide (m.rxPrev ≠ 0)) _ <;> rfl
  case echo => exact ite_transport (Obl.dev s) (or_congr Iff.rfl (not_iff_false _)) (fun _ => rfl) fun _ => rfl
  case step =>
    rw [Dev.exchangeDone_acquiring o2 delay d hs, Dev.count_judgeOffset_behind o2 _ ((d.syncState_measured o2 delay).trans hs) ho]
    rfl
  case freeze =>
    rw [Dev.exchangeDone_acquiring o2 delay d hs, Dev.freeze_judgeOffset_ahead o2 _ ((d.syncState_measured o2 delay).trans hs) ho]
    rfl
  case freezeEnd => exact apply_ite (Obl.dev s) _ _ _
  case holdover => exact apply_ite (Obl.dev s) _ _ _
  case timeout => exact apply_ite (Obl.dev s) _ _ _
  case setHi => rfl
  case role => rfl

end Sys2Proof.Machine
end

section
/-! PROOFS. Supplies and resets. -/

namespace Sys2Proof.Machine

/-- Settles O45: a warm reset is what the statement lists, with the ports' sequence states discarded first; the other inputs are noted or reset
by definition. -/
theorem suppliesAndResetsTakeEffect : Obligations.SuppliesAndResetsTakeEffect := by
  intro s x d cold d1 ras warm
  have hwarm : d.warm = warm.dawnStart true := by
    unfold Dev.warm
    refine congrArg (Dev.dawnStart true) ?_
    simp only [warm]
    have hd1 : foldN 24 (fun p d => if (d.port p).state = .off then d else d.discardSeq p) d = d1 := rfl
    rw [hd1]
    clear_value d1
    rfl
  refine ⟨rfl, rfl, rfl, ?release, fun c => rfl, rfl, rfl, rfl, fun path v => rfl, ?warm, ?activation, ?dawn, fun n r => ?trip⟩
  case release =>
    have hstraps : (if d.dawn.auxGood = true ∧ (!d.dawn.perstHigh) = true then x else d.straps) =
        if d.dawn.auxGood = true ∧ d.dawn.perstHigh = false then x else d.straps :=
      ite_transport id (and_congr Iff.rfl (not_iff_false _)) (fun _ => rfl) fun _ => rfl
    exact congrArg (fun y => Obl.dev s { d with straps := y, dawn := { d.dawn with perstHigh := true } }) hstraps
  case warm => exact ite_transport (Obl.dev s) Iff.rfl (fun _ => congrArg (Obl.dev s) hwarm) fun _ => rfl
  case activation => exact ite_transport (Obl.dev s) Iff.rfl (fun _ => congrArg (Obl.dev s) hwarm) fun _ => rfl
  case dawn => exact ite_transport (Obl.dev s) (by simp [Dawn.islandsRun, d]) (fun _ => rfl) fun _ => rfl
  case trip => exact ite_transport (Obl.dev s) (or_congr (not_iff_false _) Iff.rfl) (fun _ => rfl) fun _ => rfl

end Sys2Proof.Machine
end

section
/-! PROOFS. Register accesses of the companion and of the side-band. -/

namespace Sys2Proof.Machine

/-- Settles O52: each access is decided by the same questions in the same order, and a read answers what `State.answerRead` answers. -/
theorem registerAccessOfTheTwoPathsTakesEffect : Obligations.RegisterAccessOfTheTwoPathsTakesEffect := by
  intro s a v n d page answer
  have hpage : (blkId page).isNone = true ∧ page ≠ 0x00E ↔ blkId page = none ∧ page ≠ 0x00E :=
    and_congr Option.isNone_iff_eq_none Iff.rfl
  have hanswer (path : Path) : s.answerRead path a = answer path := by
    refine ite_transport id Iff.rfl (fun _ => rfl) fun _ => ?_
    refine ite_transport id hpage (fun _ => rfl) fun _ => ?_
    refine ite_transport id (not_iff_false _) (fun _ => rfl) fun _ => ?_
    let ok (r : Word32 × State) : (Status × Word32) × State := ((.ok, r.1), r.2)
    exact ite_transport ok Iff.rfl (fun _ => rfl) fun _ => apply_ite ok _ _ _
  refine ⟨?companionRead, ?companionWrite, ?companionRegister, ?sidebandRead, ?sidebandWrite⟩
  case companionRead =>
    refine ite_transport next Iff.rfl (fun _ => rfl) fun _ => ?_
    refine ite_transport next (and_congr Iff.rfl (and_congr (not_iff_false _) Iff.rfl)) (fun _ => rfl) fun _ => ?_
    show next (s.completeRead a n) = _
    rw [← hanswer]
    rfl
  case companionWrite => exact apply_ite next _ _ _
  case companionRegister =>
    intro ha hlink
    have hwidth : (a.setWidth 26).toNat = a.toNat := by rw [BitVec.toNat_setWidth, Nat.mod_eq_of_lt ha]
    show next (s.companionWrite a 4 v) = next (s.putReg .companion (a.setWidth 26).toNat v)
    rw [hwidth]
    exact congrArg next (if_neg (not_or.mpr ⟨not_not.mpr hlink, not_not.mpr rfl⟩))
  case sidebandRead =>
    refine ite_transport next (not_iff_false _) (fun _ => rfl) fun _ => ?_
    refine ite_transport next (and_congr Iff.rfl (and_congr (not_iff_false _) Iff.rfl)) (fun _ => rfl) fun _ => ?_
    rw [← hanswer]
    rfl
  case sidebandWrite =>
    refine ite_transport next (not_iff_false _) (fun _ => rfl) fun _ => ?_
    refine ite_transport next Iff.rfl (fun _ => rfl) fun _ => ?_
    refine ite_transport next hpage (fun _ => rfl) fun _ => ?_
    exact ite_transport next (not_iff_false _) (fun _ => rfl) fun _ => rfl

end Sys2Proof.Machine
end

section
/-! PROOFS. Register writes on every path. -/

namespace Sys2Proof.Machine

/-! ### Where a write goes (R638, R668 to R671) -/

theorem State.putReg_unaligned (path : Path) (a : Nat) (v : Word32) (s : State) (h : a % 4 ≠ 0) : s.putReg path a v = s := if_pos h

/-- A write of OWNER is checked by its own rule (R669). -/
theorem State.putReg_owner (path : Path) (a : Nat) (v : Word32) (s : State) (hal : a % 4 = 0) (hoff : a % 4096 = 0x030)
    (hblk : (blkId (a / 4096)).isSome = true) : s.putReg path a v = s.onDev (Dev.writeOwner path (a / 4096) v) :=
  (if_neg (not_not.mpr hal)).trans (if_pos ⟨hoff, hblk⟩)

/-- Firmware writes everything, and another party what answers it and what it holds. -/
theorem State.putReg_accepted (path : Path) (a : Nat) (v : Word32) (s : State) (hal : a % 4 = 0)
    (hoff : ¬ (a % 4096 = 0x030 ∧ (blkId (a / 4096)).isSome = true))
    (hok : path = .firmware ∨ (s.dev.writeAnswers path (a / 4096) (a % 4096) = true ∧ s.dev.holdsPage path (a / 4096) = true)) :
    s.putReg path a v = s.writeReg path a v := by
  have hanswers : ¬ (path ≠ .firmware ∧ (!s.dev.writeAnswers path (a / 4096) (a % 4096)) = true) := by
    rintro ⟨hpath, hno⟩
    obtain rfl | ⟨hyes, -⟩ := hok
    · exact hpath rfl
    · rw [hyes] at hno; cases hno
  have hholds : s.dev.holdsPage path (a / 4096) = true := by
    obtain rfl | ⟨-, hyes⟩ := hok
    · rfl
    · exact hyes
  unfold State.putReg
  dsimp only
  rw [if_neg (not_not.mpr hal), if_neg hoff, if_neg hanswers, if_pos hholds]

theorem State.putReg_unanswered (path : Path) (a : Nat) (v : Word32) (s : State) (hal : a % 4 = 0)
    (hoff : ¬ (a % 4096 = 0x030 ∧ (blkId (a / 4096)).isSome = true)) (hpath : path ≠ .firmware)
    (hno : s.dev.writeAnswers path (a / 4096) (a % 4096) = false) : s.putReg path a v = s := by
  unfold State.putReg
  dsimp only
  rw [if_neg (not_not.mpr hal), if_neg hoff, if_pos ⟨hpath, (not_iff_false _).mpr hno⟩]

theorem State.putReg_refused (path : Path) (a : Nat) (v : Word32) (s : State) (hal : a % 4 = 0)
    (hoff : ¬ (a % 4096 = 0x030 ∧ (blkId (a / 4096)).isSome = true))
    (hyes : s.dev.writeAnswers path (a / 4096) (a % 4096) = true) (hno : s.dev.holdsPage path (a / 4096) = false)
    (hpage : (blkId (a / 4096)).isSome = true ∨ a / 4096 = 0x00E) : s.putReg path a v = s.onDev (Dev.refuseWrite path (a / 4096)) := by
  unfold State.putReg
  dsimp only
  rw [if_neg (not_not.mpr hal), if_neg hoff, if_neg (by simp [hyes]), if_neg (by simp [hno]), if_pos hpage]

/-- The gate that a write passes in the page that no header governs (R660). -/
theorem State.putReg_buffer (path : Path) (a : Nat) (v : Word32) (s : State) (hal : a % 4 = 0) (hpage : a / 4096 = 0x00E) :
    s.putReg path a v = s.onDev (Dev.accept path (a / 4096) (a % 4096) (Dev.setReg a v)) := by
  have hblk : blkId (a / 4096) = none := by rw [hpage]; rfl
  have hoff : ¬ (a % 4096 = 0x030 ∧ (blkId (a / 4096)).isSome = true) := fun h => by rw [hblk] at h; cases h.2
  have hwrite : s.writeReg path a v = s.onDev (Dev.setReg a v) := by
    unfold State.writeReg
    dsimp only
    rw [hblk]
    exact if_pos hpage
  by_cases hpath : path = .firmware
  · rw [State.putReg_accepted path a v s hal hoff (.inl hpath), hwrite]
    simp only [State.onDev, Dev.accept, if_pos hpath]
  · cases hans : s.dev.writeAnswers path (a / 4096) (a % 4096) with
    | false =>
      rw [State.putReg_unanswered path a v s hal hoff hpath hans]
      simp [State.onDev, Dev.accept, hpath, hans]
    | true =>
      cases hholds : s.dev.holdsPage path (a / 4096) with
      | false =>
        rw [State.putReg_refused path a v s hal hoff hans hholds (.inr hpage)]
        simp [State.onDev, Dev.accept, hpath, hans, hholds]
      | true =>
        rw [State.putReg_accepted path a v s hal hoff (.inr ⟨hans, hholds⟩), hwrite]
        simp [State.onDev, Dev.accept, hpath, hans, hholds]

/-- An address of no page is nowhere. -/
theorem State.putReg_nowhere (path : Path) (a : Nat) (v : Word32) (s : State) (hblk : blkId (a / 4096) = none) (hpage : a / 4096 ≠ 0x00E) :
    s.putReg path a v = s := by
  have hwrite : s.writeReg path a v = s := by
    unfold State.writeReg
    dsimp only
    rw [hblk]
    exact if_neg hpage
  unfold State.putReg
  simp [hblk, hpage, hwrite]

/-! ### What an accepted write does (R13 to R17, R662 to R675) -/

theorem State.writeReg_header (path : Path) (a : Nat) (v : Word32) (s : State) (ty i : Nat) (hblk : blkId (a / 4096) = some (ty, i))
    (hoff : a % 4096 < 0x100) : s.writeReg path a v = s.onDev (Dev.writeHeader (a / 4096) (a % 4096) v) := by
  unfold State.writeReg
  dsimp only
  rw [hblk]
  exact if_pos hoff

theorem State.writeReg_busy (path : Path) (a : Nat) (v : Word32) (s : State) (ty i : Nat) (hblk : blkId (a / 4096) = some (ty, i))
    (hoff : 0x100 ≤ a % 4096) (hbusy : s.dev.dataBusy ty (a / 4096) (a % 4096) = true) :
    s.writeReg path a v = s.onDev (Dev.illegal (a / 4096)) := by
  unfold State.writeReg
  dsimp only
  rw [hblk]
  exact (if_neg (by omega)).trans (if_pos hbusy)

theorem State.writeReg_command (path : Path) (a : Nat) (v : Word32) (s : State) (ty i : Nat) (hblk : blkId (a / 4096) = some (ty, i))
    (hoff : 0x100 ≤ a % 4096) (hbusy : s.dev.dataBusy ty (a / 4096) (a % 4096) = false) (o : Host.Outcome State Fault Refusal)
    (hcmd : s.command ty i (a % 4096) v = some o) : s.writeReg path a v = s.after o := by
  unfold State.writeReg
  dsimp only
  rw [hblk]
  dsimp only
  rw [if_neg (by omega), if_neg (by simp [hbusy]), hcmd]

/-- A write of the common header, by its offset (R662 to R664). -/
theorem Dev.writeHeader_eq (page off a : Nat) (v : Word32) (d : Dev) (ha : page * 4096 + off = a) :
    d.writeHeader page off v =
      if off = 0x010 then d.writeBlkCtl page v
      else if off = 0x018 ∨ off = 0x028 then d.setReg a (d.reg a &&& ~~~v)
      else if off = 0x01C ∨ off = 0x020 then d.setReg a (v &&& 0xF)
      else if off = 0x024 then d.writeErrInj page v
      else if off = 0x02C then (d.setReg a (v &&& 0xFFFF)).blkEdge page (d.blkLive page)
      else d := by
  subst ha
  unfold Dev.writeHeader
  split
  case h_8 h1 h2 h3 h4 h5 h6 h7 =>
    rw [if_neg h1, if_neg (not_or.mpr ⟨h2, h6⟩), if_neg (not_or.mpr ⟨h3, h4⟩), if_neg h5, if_neg h7]
  all_goals rfl

/-- What an accepted write does to a word that is no header, no DATA register of a BUSY block and no command register: the registers with behaviour
of their own, and the plain ones. -/
def State.writeWord (path : Path) (ty inst a off : Nat) (v : Word32) (s : State) : State :=
  match ty, off with
  | 0x01, 0x100 => s.onDev (Dev.writeNodeId v)
  | 0x01, 0x11C => s.after (execDeviceResetCommand .firmware v s)
  | 0x03, 0x108 => s.onDev (Dev.writeSyncCfg v)
  | 0x03, 0x120 => s.onDev (Dev.holdLow path a v)
  | 0x03, 0x124 => s.onDev (Dev.writeSetHi path v)
  | 0x05, 0x108 => s.onDev (Dev.holdLow path a v)
  | 0x05, 0x10C => s.onDev fun d =>
    d.setVec (d.fld 0x5104 10 0) { d.vec (d.fld 0x5104 10 0) with addr := (v ++ (d.heldLow path 0x5108 &&& 0xFFFFFFFC) : BitVec 64) }
  | 0x05, _ => s.onDev (Dev.writeIrq off v)
  | 0x0B, 0x10C => s.onDev fun d => (d.writePlain ty (a / 4096) off v).cleanerStop
  | 0x0C, 0x104 => s.onDev fun d => (d.writePlain ty (a / 4096) off v).setPanic inst
  | 0x0E, 0x100 => s.onDev (Dev.writePortCfg inst v)
  | 0x11, 0x104 => s.onDev (Dev.writeCompNode v)
  | _, _ =>
    if ty = 0x0E ∧ 0x120 ≤ off ∧ off < 0x140 then s.onDev (Dev.writeVcCfg inst ((off - 0x120) / 4) v)
    else s.onDev (Dev.writePlain ty (a / 4096) off v)

theorem State.writeReg_word (path : Path) (a : Nat) (v : Word32) (s : State) (ty i : Nat) (hblk : blkId (a / 4096) = some (ty, i))
    (hoff : 0x100 ≤ a % 4096) (hbusy : s.dev.dataBusy ty (a / 4096) (a % 4096) = false) (hcmd : s.command ty i (a % 4096) v = none) :
    s.writeReg path a v = s.writeWord path ty i a (a % 4096) v := by
  unfold State.writeReg
  dsimp only
  rw [hblk]
  dsimp only
  rw [if_neg (by omega), if_neg (by simp [hbusy]), hcmd]
  rfl

/-- A register of IRQ other than the address of the selected vector. -/
theorem State.writeWord_irq (path : Path) (i a off : Nat) (v : Word32) (s : State) (h8 : off ≠ 0x108) (hC : off ≠ 0x10C) :
    s.writeWord path 0x05 i a off v = s.onDev (Dev.writeIrq off v) := by
  unfold State.writeWord
  split
  case h_8 => rfl
  all_goals contradiction

/-- A register of VC_CFG. -/
theorem State.writeWord_vcCfg (path : Path) (i a off : Nat) (v : Word32) (s : State) (hlo : 0x120 ≤ off) (hhi : off < 0x140) :
    s.writeWord path 0x0E i a off v = s.onDev (Dev.writeVcCfg i ((off - 0x120) / 4) v) := by
  unfold State.writeWord
  split
  case h_11 => omega
  case h_13 => exact if_pos ⟨rfl, hlo, hhi⟩
  all_goals contradiction

/-- The registers whose write does more than set the fields that software may write. -/
def Dev.ownBehaviour : List (Nat × Nat) :=
  [(0x01, 0x100), (0x01, 0x11C), (0x03, 0x108), (0x03, 0x120), (0x03, 0x124), (0x0B, 0x10C), (0x0C, 0x104), (0x0C, 0x10C), (0x0E, 0x100),
    (0x11, 0x104), (0x12, 0x100)]

/-- A register without behaviour of its own takes the bits that software may write (R14, R16). -/
theorem Dev.writePlain_fields (ty page off a : Nat) (v : Word32) (d : Dev) (ha : page * 4096 + off = a) (r : RegRow)
    (hrow : regRow ty off = some r) (hown : (ty, off) ∉ Dev.ownBehaviour) :
    d.writePlain ty page off v = d.setReg a ((d.reg a &&& ~~~r.rw) ||| (v &&& r.rw)) := by
  subst ha
  have hwindow : ¬ (ty = 0x0C ∧ off = 0x10C ∧ (fieldOf v 17 16 = 0 ∨ fieldOf v 17 16 = 3)) := by
    rintro ⟨rfl, rfl, -⟩
    exact hown (by decide)
  have halert : ¬ (ty = 0x12 ∧ off = 0x100) := by
    rintro ⟨rfl, rfl⟩
    exact hown (by decide)
  unfold Dev.writePlain
  rw [hrow]
  exact (if_neg hwindow).trans (if_neg halert)

/-- A register without behaviour of its own. -/
theorem State.writeWord_plain (path : Path) (ty i a off : Nat) (v : Word32) (s : State) (hown : (ty, off) ∉ Dev.ownBehaviour) (hirq : ty ≠ 0x05)
    (hvc : ¬ (ty = 0x0E ∧ 0x120 ≤ off ∧ off < 0x140)) :
    s.writeWord path ty i a off v = s.onDev (Dev.writePlain ty (a / 4096) off v) := by
  unfold State.writeWord
  split
  case h_6 | h_7 | h_8 => contradiction
  case h_13 => exact if_neg hvc
  all_goals exact absurd (by decide) hown

/-- Who may write OWNER with a value (R669). -/
theorem Dev.mayOwn_iff (path : Path) (page h : Nat) (d : Dev) :
    d.mayOwn path page h = true ↔ (path = .firmware ∨ (path = .companion ∧ d.fld (Reg.owner page) 1 0 = 0) ∨
      (path = .sideband ∧ d.fld (Reg.owner page) 1 0 = 0 ∧ d.sidebandMayTake = true) ∨ (path = .sideband ∧ d.fld (Reg.owner page) 1 0 = 2) ∨
      (d.fld (Reg.owner page) 1 0 = 1 ∧ (h = 0 ∨ h = 2) ∧ d.fld (Reg.owner page) 3 2 = pathCode path)) := by
  unfold Dev.mayOwn
  generalize d.fld (Reg.owner page) 1 0 = was
  cases path with
  | firmware => simp
  | companion => rcases was with _ | _ | was <;> simp
  | sideband => rcases was with _ | _ | _ | was <;> simp

/-- Settles O51: where a write goes, what an accepted write does by the offset and the type of the block, and the rows that write one register. -/
theorem registerWritesTakeEffect : Obligations.RegisterWritesTakeEffect := by
  intro s path v d refused gate
  refine ⟨fun a => ?addresses, ?firmware, fun page => ⟨?owner, ?reset, ?counters, ?inject⟩, ?nodeId, ?compNode, fun p => ?port,
    fun a => ⟨fun hlow hreads => ?pairRead, fun hno => ?pairNone, ?pairWrite⟩⟩
  case addresses =>
    intro page off ok
    have haddr : page * 4096 + off = a.toNat := Nat.div_add_mod' a.toNat 4096
    have hnot (h : off ≠ 0x030) : ¬ (off = 0x030 ∧ (blkId page).isSome = true) := fun k => h k.1
    have haccepted (hok : ok) (h : off ≠ 0x030) : exec (.registerWrite path a v) s = next (s.writeReg path a.toNat v) :=
      congrArg next (State.putReg_accepted path a.toNat v s hok.1 (hnot h) hok.2)
    refine ⟨?nowhere, ?buffer, fun ty i hblk => ⟨?ownerReg, ?unheld, ?header, ?data, ?command, fun hcmd hok hge hbusy => ?word⟩⟩
    case nowhere =>
      rintro (hal | ⟨hblk, hpage⟩)
      · exact congrArg next (State.putReg_unaligned path a.toNat v s hal)
      · exact congrArg next (State.putReg_nowhere path a.toNat v s hblk hpage)
    case buffer => exact fun hal hpage => congrArg next (State.putReg_buffer path a.toNat v s hal hpage)
    case ownerReg =>
      intro hal hoff
      have hpage : (BitVec.ofNat 14 page).toNat = page := by rw [BitVec.toNat_ofNat, Nat.mod_eq_of_lt (by omega)]
      show next (s.putReg path a.toNat v) = next (s.onDev (Dev.writeOwner path (BitVec.ofNat 14 page).toNat v))
      rw [hpage]
      exact congrArg next (State.putReg_owner path a.toNat v s hal hoff (Option.isSome_of_eq_some hblk))
    case unheld =>
      exact fun hal hoff hpath =>
        ⟨fun hno => congrArg next (State.putReg_unanswered path a.toNat v s hal (hnot hoff) hpath hno), fun hyes hno =>
          congrArg next (State.putReg_refused path a.toNat v s hal (hnot hoff) hyes hno (.inl (Option.isSome_of_eq_some hblk)))⟩
    case header =>
      intro hok hoff hlt
      rw [haccepted hok hoff, State.writeReg_header path a.toNat v s ty i hblk hlt]
      exact congrArg (Obl.dev s) (Dev.writeHeader_eq page off a.toNat v d haddr)
    case data =>
      intro lo hi sts hdata hok hge hrange hbusy
      have hdataBusy : d.dataBusy ty page off = true := by
        rw [Dev.dataBusy, hdata]
        simp [hrange, hbusy]
      rw [haccepted hok (by omega), State.writeReg_busy path a.toNat v s ty i hblk hge hdataBusy]
      rfl
    case command =>
      intro t hcmd hok hge hbusy
      rw [haccepted hok (by omega), State.writeReg_command path a.toNat v s ty i hblk hge hbusy _ hcmd]
      rfl
    case word =>
      have hexec : exec (.registerWrite path a v) s = next (s.writeWord path ty i a.toNat off v) :=
        (haccepted hok (by omega)).trans (congrArg next (State.writeReg_word path a.toNat v s ty i hblk hge hbusy hcmd))
      rw [hexec]
      clear_value off
      refine ⟨?resetWord, ?nodeIdWord, ?compNodeWord, ?portCfg, ?vcCfg, ?syncCfg, ?held, ?set, ?vector, ?irq, ?cleaner,
        ?panic, ?plain⟩
      case vcCfg =>
        rintro rfl hlo hhi
        exact congrArg next (State.writeWord_vcCfg path i a.toNat off v s hlo hhi)
      case held =>
        rintro (⟨rfl, rfl⟩ | ⟨rfl, rfl⟩) <;> rfl
      case irq =>
        rintro rfl h8 hC
        exact congrArg next (State.writeWord_irq path i a.toNat off v s h8 hC)
      case plain =>
        intro r hrow hown hirq hvc
        rw [State.writeWord_plain path ty i a.toNat off v s hown hirq hvc]
        exact congrArg (Obl.dev s) (Dev.writePlain_fields ty page off a.toNat v d haddr r hrow hown)
      all_goals
        rintro rfl rfl
        rfl
  case firmware =>
    have hcmd : s.command 0x0F 0 0x100 1 = some (exec .rtRead s) := rfl
    refine congrArg next ((State.putReg_accepted .firmware 0xB100 1 s rfl (by decide) (.inl rfl)).trans ?_)
    exact State.writeReg_command .firmware 0xB100 1 s 0x0F 0 rfl (by decide) rfl _ hcmd
  case owner =>
    refine congrArg (Obl.dev s) ?_
    refine ite_transport id Iff.rfl (fun _ => rfl) fun _ => ?_
    refine (ite_not_true _ _ _).trans ?_
    exact ite_transport id (Dev.mayOwn_iff path page.toNat _ s.dev) (fun _ => rfl) fun _ => rfl
  case reset => rfl
  case counters => rfl
  case inject => rfl
  case nodeId => rfl
  case compNode => rfl
  case port =>
    show Obl.dev s (d.accept path (Reg.fab p.val) 0x100 (Dev.writePortCfg p.val v)) = _
    unfold Dev.writePortCfg
    by_cases hbad : fieldOf v 2 1 = 3
    · simp only [hbad, if_true, decide_true]
      rfl
    · simp only [hbad, if_false, decide_false]
      rfl
  case pairRead =>
    refine congrArg next ((if_neg ?_).trans ?_)
    · rw [hlow, hreads]; decide
    · rw [State.readReg, if_pos hlow]
      rfl
  case pairNone =>
    refine congrArg next (if_pos ?_)
    rw [not_iff_false, not_iff_false]
    exact hno
  case pairWrite => exact apply_ite next _ _ _

end Sys2Proof.Machine
end

section
/-! PROOFS. The companion link, and the module store as the companion and the fabric fill it. -/

namespace Sys2Proof.Machine

/-! ### Commands of CMP (R68, R655) -/

/-- How a command of CMP goes on after its effect: a status ends it. -/
def Dev.cmpEnd (r : Option Status × Dev) : Dev :=
  match r.1 with
  | some st => r.2.cmdEnd Reg.cmp 0xD10C 1 st
  | none => r.2

theorem Dev.cmpCmd_idle (f : Dev → Option Status × Dev) (d : Dev) (h : d.busy 0xD10C = false) :
    d.cmpCmd f = Dev.cmpEnd (f (d.cmdBegin 0xD10C)) := by
  unfold Dev.cmpCmd Dev.cmpEnd
  rw [if_neg (by simp [h])]
  rcases f (d.cmdBegin 0xD10C) with ⟨_ | st, t⟩ <;> rfl

/-- A command of CMP on an idle block that does nothing but answer a status. -/
theorem Dev.cmpCmd_status (st : Status) (d : Dev) (h : d.busy 0xD10C = false) :
    d.cmpCmd (fun d => (some st, d)) = (d.cmdBegin 0xD10C).cmdEnd Reg.cmp 0xD10C 1 st :=
  Dev.cmpCmd_idle _ d h

/-! ### The image in the store (R571, R589, R590, R653) -/

/-- The device after the check of the image: what the image holds decides STORE, and an activation count that has passed is logged. -/
def Dev.checked (act : Word64) (info : Option Config.Manifest) (d : Dev) : Dev :=
  match info with
  | none => d.modFw fun f => { f with store := .invalid, act := 0, holder := none, rx := none, erasing := false }
  | some m =>
    let late := act ≠ 0 ∧ act.toNat < d.gtc.count.toNat
    let e := d.modFw fun f =>
      { f with store := .pending, storeSvn := m.svn, act := if late then 0 else act, holder := none, rx := none, erasing := false }
    if late then e.logFirmware d.strapHalf Reg.glb else e

theorem State.checkImage_eq (act : Word64) (s : State) : s.checkImage act = s.onDev (Dev.checked act s.imageInfo) := by
  unfold State.checkImage Dev.checked
  cases s.imageInfo <;> rfl

/-- Bytes are written into the image region, and the device changes. -/
theorem State.onDev_modImage_put (s : State) (k : Nat) (b : List Byte) (e : Dev) :
    (s.modImage fun m => m.put k b).onDev (fun _ => e) = { s with nv := { s.nv with image := s.nv.image.put k b }, dev := e } := rfl

/-- IMG_WRITE on an idle block: the block number is checked, then the path that fills the store (R653). -/
theorem State.imgWrite_idle (s : State) (h : s.dev.busy 0xD10C = false) :
    s.imgWrite =
      let n := (s.dev.reg 0xD120).toNat
      let done (st : Status) : Dev := (s.dev.cmdBegin 0xD10C).cmdEnd Reg.cmp 0xD10C 1 st
      if n > 3839 then s.onDev fun _ => done .malformed
      else if s.dev.fw.holder ≠ some .companion then s.onDev fun _ => done .stateConflict
      else (s.modImage fun m => m.put (n * 4096) s.dev.imgBuf).onDev fun _ => done .ok := by
  unfold State.imgWrite
  generalize (s.dev.reg 0xD120).toNat = n
  dsimp only
  rw [if_neg (by simp [h])]
  simp only [State.onDev, State.modImage, Dev.cmpCmd_status _ _ h]

/-! ### The fragments of an image (R587 to R589) -/

/-- A reception is repaired once. -/
theorem Dev.startRepair_receiving (r : Reception) (d : Dev) (h : d.fw.rx = some r) :
    d.startRepair = if r.repair = false then
        (Dev.missing r).foldl (fun d i => d.fetchFragment r i) (d.modFw fun f => { f with rx := some { r with repair := true } })
      else d := by
  unfold Dev.startRepair
  rw [h]
  cases hr : r.repair <;> simp [hr]

theorem Dev.fragTimeout_receiving (r : Reception) (d : Dev) (h : d.fw.rx = some r) :
    d.fragTimeout = if r.lastAt + 10000000 ≤ d.now then d.startRepair else d := by
  unfold Dev.fragTimeout
  rw [h]

theorem Dev.fragTimeout_idle (d : Dev) (h : d.fw.rx = none) : d.fragTimeout = d := by
  unfold Dev.fragTimeout
  rw [h]

theorem State.fragFetch_idle (i : Nat) (b : Option (List Byte)) (s : State) (h : s.dev.fw.rx = none) : s.fragFetch i b = s := by
  unfold State.fragFetch
  rw [h]

/-- The homes have read every line of the staged image (R29). -/
def Dev.readStaged (d : Dev) (e : Ext) : Dev := foldN (Dev.stagedLines e) (fun j d => d.didRead false e (Dev.stagedOff e j)) d

/-- An image with the manifest that it holds: none where a line gave no data, or where the bytes hold no manifest (R588). -/
def Dev.withManifest (img : Option (List Byte)) : Option (List Byte × Config.Manifest) :=
  img.bind fun l => (Config.manifest true (l.zipIdx.map fun b => (b.2, b.1))).map fun m => (l, m)

/-- What IMG_DISTRIBUTE with DATA words x does with the image that it has read from an extent: it is checked against the fuses and sent. -/
def Dev.spreadImage (fuses : Fuses) (x : Nat) (e : Ext) (img : Option (List Byte × Config.Manifest)) (d : Dev) : Option Status × Dev :=
  match img with
  | none => (some .malformed, d)
  | some (l, m) =>
    if imageOk fuses m = false then (some .malformed, d)
    else (some .ok, d.sendFragments (bits x 41 32) (bits x 63 48) (BitVec.ofNat 64 (d.fabAddr e.first)) (BitVec.ofNat 64 (bits x 127 64)) l)

theorem Dev.imgDistribute_eq (fuses : Fuses) (x : Nat) (d : Dev) :
    d.imgDistribute fuses x =
      let e := d.ext (bits x 14 0)
      let t := d.tree (bits x 41 32)
      let f := d.fetchStaged (bits x 14 0) e
      if d.dawn.step ≠ .service ∨ e.state ≠ .active ∨ e.tiered = true ∨ t.valid = false ∨ t.root ≠ d.nodeId then (some .stateConflict, d)
      else if f.stagedReady e = false then (none, f.modFw fun w => { w with spread := some x })
      else Dev.spreadImage fuses x e (Dev.withManifest (f.staged e)) (f.readStaged e) := by
  unfold Dev.imgDistribute
  refine ite_congr (propext (or_congr Iff.rfl (or_congr Iff.rfl (or_congr Iff.rfl (or_congr (not_iff_false _) Iff.rfl))))) (fun _ => rfl) fun _ => ?_
  refine ite_congr (propext (not_iff_false _)) (fun _ => rfl) fun _ => ?_
  -- The image stays a variable: a comparison must not unfold the reads of its lines.
  generalize Dev.staged _ _ = img
  cases img with
  | none => rfl
  | some l =>
    unfold Dev.withManifest
    dsimp only [Option.bind_some]
    cases Config.manifest true (l.zipIdx.map fun b => (b.2, b.1)) with
    | none => rfl
    | some m =>
      dsimp only [Option.map_some, Dev.spreadImage]
      cases imageOk fuses m <;> rfl

/-- A new TAG takes the store: the image region is erased, and a reception begins (R589, R647). -/
def State.openReception (f : Fragment) (s : State) : State :=
  s.eraseImage.onDev fun d => d.modFw fun w =>
    { w with store := .receiving, holder := some .fabric, tag := f.tag, verified := false,
             rx := some { tag := f.tag, count := f.count.toNat, src := f.srcAddr, act := f.actCount, have_ := [], lastAt := d.now, repair := false,
                          failed := [] } }

/-- A fragment of the reception under way: written and noted, or dropped when its COUNT is another (R588, R589). -/
def State.takeFragment (f : Fragment) (s : State) : State :=
  match s.dev.fw.rx with
  | none => s
  | some r =>
    if r.count ≠ f.count.toNat then s
    else
      let t := (s.modImage fun m => m.put (f.index.toNat * 4064) f.data).onDev fun d => d.modFw fun w =>
        { w with rx := some { r with have_ := NSet.insert f.index.toNat r.have_, lastAt := d.now } }
      (if f.index.toNat + 1 = r.count then t.onDev Dev.startRepair else t).receptionStep

theorem State.fwFrag_eq (f : Fragment) (s : State) :
    s.fwFrag f = if (!fragmentOk f) = true ∨ (s.dev.fw.holder = some .companion ∨ s.dev.fw.holder = some .pldm) ∨ f.root = s.dev.nodeId ∨
        s.dev.dawn.step ≠ .service then s
      else State.takeFragment f (if s.dev.fw.store = .running ∨ f.tag ≠ s.dev.fw.tag then s.openReception f else s) := rfl

/-- Settles O47: each event by its guard; an idle CMP runs a command's effect and ends it, and the store and the reception by what they hold. -/
theorem companionLinkAndStoreTakeEffect : Obligations.CompanionLinkAndStoreTakeEffect := by
  intro s d c x ls done put
  refine ⟨fun f => ?flit, fun l => ?retrain, ?down, ?active, ?retry, fun hidle => ⟨?nop, ?beginImage, ?writeImage, ?endImage, ?distribute⟩,
    ?erased, fun f => ?fragment, fun hrx => ⟨?noTimeout, fun i b => ?noFetch⟩, fun r hrx => ⟨?timeout, fun i b => ?fetch⟩⟩
  case flit =>
    refine ite_transport (Obl.dev s) Iff.rfl (fun _ => rfl) fun _ => congrArg (Obl.dev s) ?_
    refine ite_transport id Iff.rfl (fun _ => rfl) fun _ => ?_
    refine ite_transport id Iff.rfl (fun _ => ?_) fun _ => rfl
    cases f.coh <;> rfl
  case retrain => exact apply_ite (Obl.dev s) _ _ _
  case down => exact apply_ite (Obl.dev s) _ _ _
  case active =>
    intro e
    rw [← ite_not]
    refine ite_transport (Obl.dev s) not_or.symm (fun _ => rfl) fun _ => ?_
    simp only [beq_iff_eq]
    rfl
  case retry => exact apply_ite (Obl.dev s) _ _ _
  case nop => exact congrArg (Obl.dev s) (Dev.cmpCmd_status .ok d hidle)
  case beginImage =>
    refine (congrArg next (if_neg (by simp [d, hidle]))).trans ?_
    refine ite_transport next Iff.rfl (fun _ => congrArg (Obl.dev s) (Dev.cmpCmd_status .stateConflict d hidle)) fun _ => ?_
    exact congrArg (Obl.dev s.eraseImage) (Dev.cmpCmd_idle _ d hidle)
  case writeImage =>
    refine (congrArg next (s.imgWrite_idle hidle)).trans ?_
    refine ite_transport next Iff.rfl (fun _ => rfl) fun _ => ?_
    exact ite_transport next Iff.rfl (fun _ => rfl) fun _ => congrArg next (s.onDev_modImage_put _ _ _)
  case endImage =>
    intro act t
    refine (congrArg next (if_neg (by simp [d, hidle]))).trans ?_
    refine ite_transport next Iff.rfl (fun _ => congrArg (Obl.dev s) (Dev.cmpCmd_status .stateConflict d hidle)) fun _ => ?_
    have ht : s.checkImage act = s.onDev fun _ => t := by
      refine (s.checkImage_eq act).trans (congrArg (fun e => s.onDev fun _ => e) ?_)
      dsimp only [t]
      cases s.imageInfo <;> rfl
    dsimp only
    rw [ht]
    rfl
  case distribute =>
    intro i e n f
    refine (congrArg (Obl.dev s) (Dev.cmpCmd_idle _ d hidle)).trans ?_
    rw [Dev.imgDistribute_eq]
    refine ite_transport (fun r => Obl.dev s (Dev.cmpEnd r)) Iff.rfl (fun _ => rfl) fun _ => ?_
    refine ite_transport (fun r => Obl.dev s (Dev.cmpEnd r)) Iff.rfl (fun _ => rfl) fun _ => ?_
    extract_lets g
    show Obl.dev s (Dev.cmpEnd (Dev.spreadImage s.nv.fuses x e (Dev.withManifest (f.staged e)) g)) = _
    unfold Dev.withManifest
    generalize (f.staged e).bind _ = img
    cases img with
    | none => rfl
    | some lm => exact ite_transport (fun r => Obl.dev s (Dev.cmpEnd r)) Iff.rfl (fun _ => rfl) fun _ => rfl
  case erased => exact apply_ite (Obl.dev s) _ _ _
  case fragment =>
    refine (congrArg next (s.fwFrag_eq f)).trans ?_
    refine ite_transport next (or_congr (not_iff_false _) Iff.rfl) (fun _ => rfl) fun _ => ?_
    extract_lets _ s1
    show next (State.takeFragment f s1) = _
    clear_value s1
    unfold State.takeFragment
    cases s1.dev.fw.rx with
    | none => rfl
    | some r => exact apply_ite next _ _ _
  case noTimeout => exact congrArg (Obl.dev s) (Dev.fragTimeout_idle d hrx)
  case noFetch => exact congrArg next (State.fragFetch_idle i b s hrx)
  case timeout =>
    show Obl.dev s d.fragTimeout = _
    rw [Dev.fragTimeout_receiving r d hrx, Dev.startRepair_receiving r d hrx, ← ite_and]
    exact apply_ite (Obl.dev s) _ _ _
  case fetch =>
    show next (s.fragFetch i b) = _
    unfold State.fragFetch
    simp only [d] at hrx
    rw [hrx]
    refine ite_transport next (or_congr (not_iff_false _) Iff.rfl) (fun _ => rfl) fun _ => ?_
    cases b with
    | some b => rfl
    | none => exact apply_ite next _ _ _

end Sys2Proof.Machine
end

section
/-! PROOFS. The commands of the translation unit. -/

namespace Sys2Proof.Machine

/-! ### Commands of XLT (R68, R92 to R95) -/

/-- How a command of XLT goes on after its effect: a status ends it, and without one it waits for its drain. -/
def Dev.xltEnd (r : Option Status × Dev) : Dev :=
  match r.1 with
  | some st => r.2.cmdEnd Reg.xlt 0x8104 1 st
  | none => r.2

theorem Dev.xltCmd_idle (f : Dev → Option Status × Dev) (d : Dev) (h : d.busy 0x8104 = false) :
    d.xltCmd f = Dev.xltEnd (f (d.cmdBegin 0x8104)) := by
  unfold Dev.xltCmd Dev.xltEnd
  rw [h]
  rfl

/-- A command of XLT that answers a status ends with it. -/
theorem Dev.xltCmd_ends {f : Dev → Option Status × Dev} {s : State} {st : Status} {t : Dev} (hidle : s.dev.busy 0x8104 = false)
    (h : f (s.dev.cmdBegin 0x8104) = (some st, t)) : next (s.onDev (Dev.xltCmd f)) = Obl.dev s (t.cmdEnd Reg.xlt 0x8104 1 st) :=
  congrArg (Obl.dev s) ((Dev.xltCmd_idle f s.dev hidle).trans (congrArg Dev.xltEnd h))

/-- A command of XLT that answers no status leaves BUSY set. -/
theorem Dev.xltCmd_waits {f : Dev → Option Status × Dev} {s : State} {t : Dev} (hidle : s.dev.busy 0x8104 = false)
    (h : f (s.dev.cmdBegin 0x8104) = (none, t)) : next (s.onDev (Dev.xltCmd f)) = Obl.dev s t :=
  congrArg (Obl.dev s) ((Dev.xltCmd_idle f s.dev hidle).trans (congrArg Dev.xltEnd h))

theorem Dev.unlessConf_open (p : PartId) (f : Dev → Option Status × Dev) (d : Dev) (h : d.conf p = false) : d.unlessConf p f = f d :=
  if_neg (by simp [h])

theorem Dev.unlessConf_confidential (p : PartId) (f : Dev → Option Status × Dev) (d : Dev) (h : d.conf p = true) :
    d.unlessConf p f = (some .stateConflict, d) := if_pos h

/-- The image x of a context has a field outside its range (R92). -/
def Dev.CtxMalformed (x : Nat) : Prop :=
  bits (bits x 63 0) 6 2 < 9 ∨ bits (bits x 63 0) 6 2 > 18 ∨ bits (bits x 63 0) 11 7 ≠ 0 ∨ bits (bits x 63 0) 63 48 ≠ 0 ∨
    bits (bits x 127 64) 3 0 < 4 ∨ bits (bits x 127 64) 3 0 > 12 ∨ bits (bits x 127 64) 11 5 ≠ 0 ∨ bits (bits x 127 64) 63 48 ≠ 0 ∨
    bits (bits x 191 128) 63 12 ≠ 0 ∨ bits x 255 192 ≠ 0

/-- The context that the image x describes, with its ring on its first lap (R92, R111). -/
def Dev.ctxOfImage (x : Nat) : XltCtx :=
  { enable := bits (bits x 63 0) 0 0 = 1, park := bits (bits x 63 0) 1 1 = 1, rootLog := BitVec.ofNat 5 (bits (bits x 63 0) 6 2),
    root := BitVec.ofNat 64 (bits (bits x 63 0) 47 12), fqLog := BitVec.ofNat 4 (bits (bits x 127 64) 3 0),
    fqEn := bits (bits x 127 64) 4 4 = 1, fqBase := BitVec.ofNat 64 (bits (bits x 127 64) 47 12),
    faultVec := BitVec.ofNat 11 (bits (bits x 191 128) 10 0), vecEn := bits (bits x 191 128) 11 11 = 1, fqIndex := 0, fqPhase := true }

theorem Dev.ctxWrite_malformed (p : PartId) (x : Nat) (d : Dev) (h : Dev.CtxMalformed x) : d.ctxWrite p x = (some .malformed, d) :=
  if_pos h

theorem Dev.ctxWrite_absent (p : PartId) (x : Nat) (d : Dev) (h : ¬ Dev.CtxMalformed x) (hp : d.part? p = none) :
    d.ctxWrite p x = (some .stateConflict, d) :=
  (if_neg h).trans (if_pos (by simp [hp]))

theorem Dev.ctxWrite_stores (p : PartId) (x : Nat) (d : Dev) (h : ¬ Dev.CtxMalformed x) (hp : (d.part? p).isSome = true) :
    d.ctxWrite p x = (none, (d.modPart p fun q => { q with ctx := Dev.ctxOfImage x }).invalidate p 0 (2 ^ 64)) :=
  (if_neg h).trans (if_neg (by simpa [Option.ne_none_iff_isSome] using hp))

theorem Dev.faultRead_held (r : Nat) (f : FaultRec) (d : Dev) (h : d.faultRec? r = some f) :
    d.faultRead r = (some .ok, d.setData 0x8110 8 (d.recordImage r f (Tbl.find d.sec.borrow 0x8104).isSome)) := by
  rw [Dev.faultRead, h]

theorem Dev.faultResume_held (r : Nat) (f : FaultRec) (d : Dev) (h : d.faultRec? r = some f) :
    d.faultResume r =
      (some .ok, ((d.waiters r).foldl (fun d a => d.modAcc a.id fun a => { a with state := .retry d.now }) d).freeRecord r 1) := by
  rw [Dev.faultResume, h]

theorem Dev.faultAbort_held (r : Nat) (f : FaultRec) (d : Dev) (h : d.faultRec? r = some f) :
    d.faultAbort r = (some .ok, d.abortRecord r 2) := by
  rw [Dev.faultAbort, h]

theorem Dev.faultRead_free (r : Nat) (d : Dev) (h : d.faultRec? r = none) : d.faultRead r = (some .stateConflict, d) := by
  rw [Dev.faultRead, h]

theorem Dev.faultResume_free (r : Nat) (d : Dev) (h : d.faultRec? r = none) : d.faultResume r = (some .stateConflict, d) := by
  rw [Dev.faultResume, h]

theorem Dev.faultAbort_free (r : Nat) (d : Dev) (h : d.faultRec? r = none) : d.faultAbort r = (some .stateConflict, d) := by
  rw [Dev.faultAbort, h]

/-- Settles O25: an idle XLT runs the command's effect on the device with BUSY set, and each effect is known by what its guards find. -/
theorem xltCommandsTakeEffect : Obligations.XltCommandsTakeEffect := by
  intro s p r hidle d x ok no
  refine ⟨?ctxRead, ?ctxStores, fun h => ?page, fun h1 h2 h3 h4 => ?range, fun h => ?part, fun f h => ⟨?read, ?resume, ?abort⟩,
    fun h => ?confidential, ?ctxRefused, fun h => ?pageRefused, fun h => ?rangeRefused, fun h => ?partRefused,
    fun h => ⟨?readFree, ?resumeFree, ?abortFree⟩⟩
  case ctxRead => exact Dev.xltCmd_ends hidle rfl
  case ctxStores =>
    rintro w0 w1 w2 rfl rfl rfl hopen hp h1 h2 h3 h4 h5 h6 h7 h8 h9 h10
    have hgood : ¬ Dev.CtxMalformed x := by
      simp only [Dev.CtxMalformed, not_or, not_lt, ne_eq, not_not]
      exact ⟨h1, h2, h3, h4, h5, h6, h7, h8, h9, h10⟩
    exact Dev.xltCmd_waits hidle ((Dev.unlessConf_open p _ d hopen).trans (Dev.ctxWrite_stores p x d hgood hp))
  case page => exact Dev.xltCmd_waits hidle (if_neg (Nat.not_le.mpr h))
  case range => exact Dev.xltCmd_waits hidle (if_neg (by simp only [not_or, not_lt, ne_eq, not_not]; exact ⟨h1, h2, h3, h4⟩))
  case part => exact Dev.xltCmd_waits hidle (if_neg (by simpa [Option.ne_none_iff_isSome] using h))
  case read => exact Dev.xltCmd_ends hidle (Dev.faultRead_held _ f d h)
  case resume => exact Dev.xltCmd_ends hidle (Dev.faultResume_held _ f d h)
  case abort => exact Dev.xltCmd_ends hidle (Dev.faultAbort_held _ f d h)
  case confidential => exact Dev.xltCmd_ends hidle (Dev.unlessConf_confidential p _ d h)
  case ctxRefused =>
    rintro w0 w1 w2 rfl rfl rfl hopen bad
    refine ⟨fun h => ?_, fun h hp => ?_⟩
    · exact Dev.xltCmd_ends hidle ((Dev.unlessConf_open p _ d hopen).trans (Dev.ctxWrite_malformed p x d h))
    · exact Dev.xltCmd_ends hidle ((Dev.unlessConf_open p _ d hopen).trans (Dev.ctxWrite_absent p x d h hp))
  case pageRefused => exact Dev.xltCmd_ends hidle (if_pos h)
  case rangeRefused => exact Dev.xltCmd_ends hidle (if_pos h)
  case partRefused => exact Dev.xltCmd_ends hidle (if_pos (by simpa using h))
  case readFree => exact Dev.xltCmd_ends hidle (Dev.faultRead_free _ d h)
  case resumeFree => exact Dev.xltCmd_ends hidle (Dev.faultResume_free _ d h)
  case abortFree => exact Dev.xltCmd_ends hidle (Dev.faultAbort_free _ d h)

end Sys2Proof.Machine
end

section
/-! PROOFS. The table read of a walk whose number another walk has too. -/

namespace Sys2Proof.Machine

/-! ### Pointers read by walks of one number (R91, R98) -/

/-- A walk that reads the entry at level 4 of address 0 for a partition, with the number 3. -/
def levelFourWalk (p : PartId) : Walk := ⟨3, .west, p, 0, false, none, true, 0, 4, 0, [], false⟩

/-- Two walks of the number 3, of partitions 0 and 1; the home has answered a valid pointer to the table at 0. No run gives two walks one number. -/
def sharedNumberDev : Dev :=
  let d := xltDev [levelFourWalk 0, levelFourWalk 1] []
  { d with coh := { d.coh with engDone := [(.walk 3, 0, .ok, [1])] } }

/-- The partition under which each walk after a command has noted the first pointer that it found. -/
def pointerParts : Host.Outcome State Fault Refusal → List (Option PartId)
  | .next s => s.dev.xlt.walks.map fun w => w.found.head?.map fun x => x.part
  | _ => []

/-- The device when the walk has taken the answer of its home. -/
def sharedNumberTaken : Dev := (sharedNumberDev.engLocal (.walk 3) 0 0 .read).2

/-- WALK_TABLE_READ notes the pointer for every walk of the number as that of the walk it found first. -/
theorem pointerParts_walkTableRead :
    pointerParts (exec (.walkTableRead 3) { State.reset with dev := sharedNumberDev }) = [some 0, some 0] := by decide

/-- Refutes O24: where a pointer goes to the next level, the statement has each walk of the number note it under its own partition, and the model
under that of the walk that the event found; with two walks of one number in the table, of partitions 0 and 1, these differ. -/
theorem not_engineAccessesAndWalksTakeEffect : ¬ Obligations.EngineAccessesAndWalksTakeEffect := by
  rintro ⟨-, -, -, -, hread, -⟩
  obtain ⟨-, -, hanswered⟩ := hread { State.reset with dev := sharedNumberDev } 3 (levelFourWalk 0) rfl rfl
  have hstated := congrArg pointerParts (hanswered .ok [1] sharedNumberTaken rfl rfl)
  rw [pointerParts_walkTableRead] at hstated
  exact absurd hstated (by decide)

end Sys2Proof.Machine
end

section
/-! PROOFS. The events of hosts, reservations and the reply cache. -/

namespace Sys2Proof.Machine

/-! ### Hosts and reservations (R147, R151, R152) -/

/-- A suspect host whose next probe is due and may be sent (R151, R636). -/
def Dev.ProbeDue (d : Dev) (n : NodeId) : Prop :=
  (d.host n).state = .suspect ∧ (d.host n).probed + 100000 ≤ d.now ∧ d.now < (d.host n).since + 1000000 ∧ d.cmpHolds n = false

theorem Dev.probeInterval_due (n : NodeId) (d : Dev) (h : d.ProbeDue n) : d.probeInterval n = d.sendProbe n := by
  obtain ⟨hstate, hprobed, hsince, hheld⟩ := h
  exact if_pos ⟨hstate, hprobed, hsince, by simp [hheld]⟩

theorem Dev.probeInterval_notDue (n : NodeId) (d : Dev) (h : ¬ d.ProbeDue n) : d.probeInterval n = d :=
  if_neg fun ⟨hstate, hprobed, hsince, hfree⟩ => h ⟨hstate, hprobed, hsince, by simpa using hfree⟩

/-- The reservation of a node and TAG on a line. -/
def Dev.resvOf (d : Dev) (line : LineNo) (n : NodeId) (tag : Tag) : Option Resv :=
  d.coh.resv.find? fun r => r.node == n && r.tag == tag && r.line == line

/-- Whether a reservation on a line may lapse: the line is stable, and its window is over (R147). -/
def Dev.ResvOver (d : Dev) (line : LineNo) (r : Resv) : Prop :=
  (d.tx? line.toNat).isNone = true ∧ r.since + min1 (d.fld 0x9130 15 8) * 1000 ≤ d.now

theorem Dev.resvLapse_over {line : LineNo} {n : NodeId} {tag : Tag} {r : Resv} {d : Dev} (h : d.resvOf line n tag = some r)
    (hover : d.ResvOver line r) : d.resvLapse line n tag = ((d.endResv n tag line).bump Reg.coh 0x050 1).tryRegion := by
  unfold Dev.resvOf at h
  unfold Dev.resvLapse
  rw [h]
  exact if_pos hover

theorem Dev.resvLapse_notOver {line : LineNo} {n : NodeId} {tag : Tag} {d : Dev} (h : ∀ r, d.resvOf line n tag = some r → ¬ d.ResvOver line r) :
    d.resvLapse line n tag = d := by
  unfold Dev.resvOf at h
  unfold Dev.resvLapse
  split
  · rfl
  next r hr => exact if_neg (h r hr)

/-- Settles O15: each event by its guard, and a reservation by the entry that the event finds. -/
theorem hostStateEventsTakeEffect : Obligations.HostStateEventsTakeEffect := by
  intro s n x due
  refine ⟨fun h => ?probe, fun h => ?noProbe, fun nonce hstate hnonce htime => ?answer, fun nonce h => ?noAnswer,
    fun hstate htime => ?expiry, fun h => ?noExpiry, fun tag nonce => rfl, fun p tag nonce => rfl,
    fun line tag r hr hstable htime => ?lapse, fun line tag h => ?noLapse, fun half tag => rfl⟩
  case probe => exact congrArg (Obl.dev s) (Dev.probeInterval_due n s.dev h)
  case noProbe => exact congrArg (Obl.dev s) (Dev.probeInterval_notDue n s.dev h)
  case answer => exact congrArg (Obl.dev s) (if_pos ⟨hstate, List.contains_iff_mem.mpr hnonce, htime⟩)
  case noAnswer =>
    exact congrArg (Obl.dev s) (if_neg fun ⟨hstate, hnonce, htime⟩ => h ⟨hstate, List.contains_iff_mem.mp hnonce, htime⟩)
  case expiry => exact congrArg (Obl.dev s) (if_pos ⟨hstate, htime⟩)
  case noExpiry => exact congrArg (Obl.dev s) (if_neg h)
  case lapse => exact congrArg (Obl.dev s) (Dev.resvLapse_over hr ⟨hstable, htime⟩)
  case noLapse =>
    refine congrArg (Obl.dev s) (Dev.resvLapse_notOver fun r hr hover => ?_)
    obtain ⟨hstable, htime⟩ := hover
    rcases h r hr with hbusy | hearly
    · exact absurd (hstable.symm.trans hbusy) (by decide)
    · omega

end Sys2Proof.Machine
end

section
/-! PROOFS. The answers to snoops and grants, and the deadlines of a line in transition. -/

namespace Sys2Proof.Machine

/-! ### An ACK on VC3 by the item that it finds (R134, R137, R506, R703) -/

theorem Dev.vc3Ack_grant (via : Via) {n : NodeId} {tag : Tag} {line : Nat} (code : BitVec 8) (wb bad : Bool) (key : Option (BitVec 13)) {d : Dev}
    (h : d.grantLine n tag = some line) : d.vc3Ack via n tag code none wb bad key = d.grantAck line := by
  unfold Dev.vc3Ack
  rw [h]
  rfl

/-- An ACK with data is no grant acknowledgement. -/
theorem Dev.vc3Ack_grant_data (via : Via) {n : NodeId} {tag : Tag} {line : Nat} (code : BitVec 8) (data : Line) (wb bad : Bool)
    (key : Option (BitVec 13)) {d : Dev} (h : d.grantLine n tag = some line) : d.vc3Ack via n tag code (some data) wb bad key = d := by
  unfold Dev.vc3Ack
  rw [h]
  rfl

/-- Whether the directory has a line in M. -/
def Dev.heldModified (d : Dev) (line : Nat) : Bool :=
  match d.dirEnt line with
  | some e => e.modified
  | none => false

section
variable (via : Via) {n : NodeId} {tag : Tag} {line : Nat} {t : LineTx} {code : BitVec 8} {data : Option Line} (wb bad : Bool)
  {key : Option (BitVec 13)} {d : Dev} (hgrant : d.grantLine n tag = none) (hsnoop : d.snoopLine n tag = some (line, t))
include hgrant hsnoop

theorem Dev.vc3Ack_snoop_reserved (hcode : 0x11 < code.toNat) :
    d.vc3Ack via n tag code data wb bad key = d.logMalformed via (some (d.lineHalf line)) 5 0x20 3 (some n) .malformed := by
  unfold Dev.vc3Ack
  rw [hgrant, hsnoop]
  exact if_pos hcode

theorem Dev.vc3Ack_snoop_withoutKey (hcode : code.toNat ≤ 0x11) (hkey : d.responseAllowed line n data key = false) :
    d.vc3Ack via n tag code data wb bad key = d := by
  unfold Dev.vc3Ack
  rw [hgrant, hsnoop]
  exact (if_neg (Nat.not_lt.mpr hcode)).trans (if_pos (by simp [hkey]))

theorem Dev.vc3Ack_snoop_taken (hcode : code.toNat ≤ 0x11) (hkey : d.responseAllowed line n data key = true) :
    d.vc3Ack via n tag code data wb bad key =
      ((d.setTx line (Dev.snoopAnswer t (d.heldModified line) n tag data wb bad)).advance line).itemEnded := by
  unfold Dev.vc3Ack
  rw [hgrant, hsnoop]
  exact (if_neg (Nat.not_lt.mpr hcode)).trans (if_neg (by simp [hkey]))

end

/-- The snoop of a node and TAG whose line has failed. -/
def Dev.lateOf (d : Dev) (n : NodeId) (tag : Tag) : Option LateSnoop := d.coh.late.find? fun l => l.node == n && l.tag == tag

/-- The answer to a snoop of a line that has failed is discarded, and logged for the extent of the line (R76, R150). -/
def Dev.discardLate (n : NodeId) (l : LateSnoop) (d : Dev) : Dev :=
  let part := match d.extAt (lineOff l.line) with | some (_, e) => e.part | none => 0
  ((d.modCoh fun c => { c with late := c.late.filter fun x => x ≠ l }).logDiscard (d.lineHalf l.line.toNat) Reg.coh 4
    ⟨n, part, 0x20, lineOff l.line⟩ .ok).itemEnded

section
variable (via : Via) {n : NodeId} {tag : Tag} (code : BitVec 8) (data : Option Line) (wb bad : Bool) (key : Option (BitVec 13)) {d : Dev}
  (hgrant : d.grantLine n tag = none) (hsnoop : d.snoopLine n tag = none)
include hgrant hsnoop

theorem Dev.vc3Ack_unmatched (h : d.lateOf n tag = none) : d.vc3Ack via n tag code data wb bad key = d := by
  unfold Dev.lateOf at h
  unfold Dev.vc3Ack
  rw [hgrant, hsnoop]
  dsimp only
  rw [h]

theorem Dev.vc3Ack_late {l : LateSnoop} (h : d.lateOf n tag = some l) : d.vc3Ack via n tag code data wb bad key = d.discardLate n l := by
  unfold Dev.lateOf at h
  unfold Dev.vc3Ack
  rw [hgrant, hsnoop]
  dsimp only
  rw [h]
  rfl

end

/-! ### The answer point (R141) -/

/-- The transaction that a request for a line waits in past its answer point. -/
def Dev.overdueTx (d : Dev) (line : LineNo) : Option (Nat × LineTx) :=
  d.coh.tx.find? fun x => match x.2.req with
    | some r => r.hdr.offset.toNat / 64 == line.toNat && decide (r.arrived + 3500 ≤ d.now)
    | none => false

/-- A line's transaction ends before its grant is given: data that its owner gave up goes to DRAM. -/
def Dev.endUngranted (l : Nat) (t : LineTx) (d : Dev) : Dev :=
  let d := match d.extAt (l * 64) with
    | some (_, e) => d.writeBack l t e (t.snoops.head?.elim 0 Snoop.node)
    | none => d
  ((d.dropTx l).stableResv (BitVec.ofNat 42 l)).itemEnded

/-- A line's transaction goes on without the request that waited in it, or ends if its grant was not given yet. -/
def Dev.goOnWithoutRequest (l : Nat) (t : LineTx) (d : Dev) : Dev :=
  match t.grant with
  | none => (d.setTx l { t with req := none }).advance l
  | some ⟨_, _, some _⟩ => d.setTx l { t with req := none }
  | some ⟨_, _, none⟩ => d.endUngranted l { t with req := none }

theorem Dev.answerPoint_notYet {line : LineNo} {d : Dev} (h : d.overdueTx line = none) : d.answerPoint line = d := by
  unfold Dev.answerPoint
  split
  · rfl
  next hfound => exact absurd (h.symm.trans hfound) (by simp)

theorem Dev.answerPoint_overdue {line : LineNo} {l : Nat} {t : LineTx} {r : HomeReq} {d : Dev} (h : d.overdueTx line = some (l, t))
    (hr : t.req = some r) : d.answerPoint line = (d.turnAway r (d.lineHint t) (d.lineHalf line.toNat)).goOnWithoutRequest l t := by
  unfold Dev.answerPoint
  split
  next hfound => exact absurd (h.symm.trans hfound) (by simp)
  next l' t' hfound =>
    obtain ⟨rfl, rfl⟩ : l = l' ∧ t = t' := by simpa using h.symm.trans hfound
    rw [hr]
    unfold Dev.goOnWithoutRequest
    rcases t.grant with _ | ⟨n, tag, _ | t0⟩ <;> rfl

theorem Dev.goOnWithoutRequest_noGrant (l : Nat) {t : LineTx} (d : Dev) (h : t.grant = none) :
    d.goOnWithoutRequest l t = (d.setTx l { t with req := none }).advance l := by
  unfold Dev.goOnWithoutRequest
  rw [h]

theorem Dev.goOnWithoutRequest_granted (l : Nat) {t : LineTx} {n : NodeId} {tag : Tag} {t0 : Nat} (d : Dev) (h : t.grant = some ⟨n, tag, some t0⟩) :
    d.goOnWithoutRequest l t = d.setTx l { t with req := none } := by
  unfold Dev.goOnWithoutRequest
  rw [h]

theorem Dev.goOnWithoutRequest_notGranted (l : Nat) {t : LineTx} {n : NodeId} {tag : Tag} (d : Dev) (h : t.grant = some ⟨n, tag, none⟩) :
    d.goOnWithoutRequest l t = d.endUngranted l { t with req := none } := by
  unfold Dev.goOnWithoutRequest
  rw [h]

/-! ### Deadlines of a line in transition (R135, R137, R149, R150) -/

/-- The snoop of a holder whose attempt has passed its deadline (R149). -/
def Dev.overdueSnoop (d : Dev) (t : LineTx) (n : NodeId) : Option Snoop :=
  t.snoops.find? fun s => s.node == n && !s.answered && decide (s.attempt > 0) && !s.held && decide (s.sentAt + 2000 ≤ d.now)

/-- The third attempt of a snoop that has passed its deadline on a line that another holder's snoop has failed (R150). -/
def Dev.overdueLate (d : Dev) (line : LineNo) (n : NodeId) : Option LateSnoop :=
  d.coh.late.find? fun (l : LateSnoop) => l.line == line && l.node == n && l.due.any fun t => decide (t ≤ d.now)

theorem Dev.snoopDeadline_attempt {line : LineNo} {n : NodeId} {t : LineTx} {x : Snoop} {d : Dev} (ht : d.tx? line.toNat = some t)
    (hx : d.overdueSnoop t n = some x) :
    d.snoopDeadline line n =
      let x' := { x with attempt := x.attempt + 1, sentAt := d.now }
      if x.attempt ≥ 3 then (d.bump Reg.coh 0x060 1).failLine line.toNat n 1 else
        ((d.bump Reg.coh 0x060 1).setTx line.toNat { t with snoops := t.snoops.map fun y => if y = x then x' else y }).sendSnoop
          line.toNat x' := by
  unfold Dev.overdueSnoop at hx
  unfold Dev.snoopDeadline
  rw [ht]
  dsimp only
  rw [hx]
  rfl

/-- Without an attempt past its deadline, a transaction's snoops leave SNOOP_DEADLINE to the snoops of lines that have failed. -/
theorem Dev.snoopDeadline_noAttempt {line : LineNo} {n : NodeId} {d : Dev} (h : ∀ t, d.tx? line.toNat = some t → d.overdueSnoop t n = none) :
    d.snoopDeadline line n = d.lateDeadline line n := by
  unfold Dev.snoopDeadline
  cases ht : d.tx? line.toNat with
  | none => rfl
  | some t =>
    have hx := h t ht
    unfold Dev.overdueSnoop at hx
    dsimp only
    rw [hx]

theorem Dev.lateDeadline_overdue {line : LineNo} {n : NodeId} {x : LateSnoop} {d : Dev} (h : d.overdueLate line n = some x) :
    d.lateDeadline line n = (((d.modCoh fun c => { c with late := c.late.map fun (y : LateSnoop) =>
      if y = x then { y with due := none } else y }).bump Reg.coh 0x060 1).suspect n 1 line.toNat).itemEnded := by
  unfold Dev.overdueLate at h
  unfold Dev.lateDeadline
  rw [h]

theorem Dev.lateDeadline_notYet {line : LineNo} {n : NodeId} {d : Dev} (h : d.overdueLate line n = none) : d.lateDeadline line n = d := by
  unfold Dev.overdueLate at h
  unfold Dev.lateDeadline
  rw [h]

/-- The snoop whose WB_PENDING wait is over (R135). -/
def Dev.overdueStore (d : Dev) (t : LineTx) : Option Snoop := t.snoops.find? fun s => s.storeWait && decide (s.firstAt + 6000 ≤ d.now)

theorem Dev.storeWaitExpiry_overdue {line : LineNo} {t : LineTx} {x : Snoop} {d : Dev} (ht : d.tx? line.toNat = some t)
    (hx : d.overdueStore t = some x) : d.storeWaitExpiry line = d.failLine line.toNat x.node 7 := by
  unfold Dev.overdueStore at hx
  unfold Dev.storeWaitExpiry
  rw [ht]
  dsimp only
  rw [hx]

theorem Dev.storeWaitExpiry_notYet {line : LineNo} {d : Dev} (h : ∀ t, d.tx? line.toNat = some t → d.overdueStore t = none) :
    d.storeWaitExpiry line = d := by
  unfold Dev.storeWaitExpiry
  cases ht : d.tx? line.toNat with
  | none => rfl
  | some t =>
    have hx := h t ht
    unfold Dev.overdueStore at hx
    dsimp only
    rw [hx]

theorem Dev.grantWaitExpiry_granted {line : LineNo} {t : LineTx} {n : NodeId} {tag : Tag} {t0 : Nat} {d : Dev} (ht : d.tx? line.toNat = some t)
    (hg : t.grant = some ⟨n, tag, some t0⟩) : d.grantWaitExpiry line = if t0 + 6000 ≤ d.now then d.failLine line.toNat n 2 else d := by
  obtain ⟨why, req, snoops, data, stored, owed, badData, keep, grant⟩ := t
  obtain rfl : grant = some ⟨n, tag, some t0⟩ := hg
  unfold Dev.grantWaitExpiry
  rw [ht]

/-- A line without a grant wait that runs, and one whose grant wait is not over, stay as they are. -/
theorem Dev.grantWaitExpiry_notYet {line : LineNo} {d : Dev}
    (h : ∀ t n tag t0, d.tx? line.toNat = some t → t.grant = some ⟨n, tag, some t0⟩ → d.now < t0 + 6000) : d.grantWaitExpiry line = d := by
  unfold Dev.grantWaitExpiry
  split
  next ht => exact if_neg (Nat.not_le.mpr (h _ _ _ _ ht rfl))
  · rfl

/-! ### Snoops and probes that the companion link held (R636) -/

theorem Dev.releaseSnoop_sent (line : Nat) {x : Snoop} (d : Dev) (h : x.held = false) : d.releaseSnoop line x = d :=
  if_neg (ne_true_of_eq_false h)

/-- A held snoop as it is sent: a first attempt of now. -/
def Snoop.sentFirst (x : Snoop) (now : Nat) : Snoop := { x with held := false, firstAt := now, sentAt := now }

theorem Dev.releaseSnoop_held {line : Nat} {x : Snoop} {t : LineTx} {d : Dev} (ht : d.tx? line = some t) (h : x.held = true) :
    d.releaseSnoop line x =
      (d.setTx line { t with snoops := t.snoops.map fun y => if y = x then x.sentFirst d.now else y }).sendSnoop line (x.sentFirst d.now) := by
  unfold Dev.releaseSnoop
  rw [if_pos h, ht]
  rfl

theorem Dev.releaseLine_stable {line : Nat} {d : Dev} (h : d.tx? line = none) : d.releaseLine line = d := by
  unfold Dev.releaseLine
  rw [h]

theorem Dev.releaseLine_transient {line : Nat} {t : LineTx} {d : Dev} (h : d.tx? line = some t) :
    d.releaseLine line = t.snoops.foldl (Dev.releaseSnoop line) d := by
  unfold Dev.releaseLine
  rw [h]

/-- Settles O17: an ACK on VC3 by the item of its node and TAG, an answer point by the transaction past it, a deadline by the snoop or the grant
that has run out, and the release snoop by snoop. -/
theorem snoopAndGrantEventsTakeEffect : Obligations.SnoopAndGrantEventsTakeEffect := by
  intro s sd
  refine ⟨fun via n tag st data wb bad key line t hgrant hsnoop hcode hkey => ?taken, fun n tag line hgrant => ?acknowledged,
    fun line l t r hover hr => ⟨fun h => ?overdue, fun n tag h => ?overdueNotGranted, fun n tag t0 h => ?overdueGranted⟩,
    fun line n t x ht hx => ?deadline, fun line n x ht hx => ?lateDeadline, fun line t x ht hx => ?storeWait,
    fun line t n tag t0 ht hg htime => ?grantWait,
    fun d line x => ⟨Dev.releaseSnoop_sent line d, Dev.releaseLine_stable, fun t ht => ⟨Dev.releaseLine_transient ht, Dev.releaseSnoop_held ht⟩⟩,
    fun h => ?released, fun via n tag st data wb bad key line t hgrant hsnoop hcode => ?reserved,
    fun via n tag st data wb bad key line t hgrant hsnoop hcode hkey => ?withoutKey, fun via n tag st data wb bad key line hgrant => ?grantData,
    fun via n tag st data wb bad key hgrant hsnoop => ⟨fun h => ⟨?unmatched, ?unmatchedGrant⟩, fun l h => ⟨?late, ?lateGrant⟩⟩,
    fun line => ⟨fun h => ?noAnswerPoint, fun n hattempt hlate => ?noDeadline, fun h => ?noStoreWait, fun h => ?noGrantWait⟩,
    fun h => ?stillHeld⟩
  all_goals refine congrArg (Obl.dev s) ?_
  case taken => exact Dev.vc3Ack_snoop_taken via wb bad hgrant hsnoop hcode hkey
  case acknowledged => exact Dev.vc3Ack_grant .companion 0 false false none hgrant
  case overdue => exact (Dev.answerPoint_overdue hover hr).trans (Dev.goOnWithoutRequest_noGrant l _ h)
  case overdueNotGranted => exact (Dev.answerPoint_overdue hover hr).trans (Dev.goOnWithoutRequest_notGranted l _ h)
  case overdueGranted => exact (Dev.answerPoint_overdue hover hr).trans (Dev.goOnWithoutRequest_granted l _ h)
  case deadline => exact Dev.snoopDeadline_attempt ht hx
  case lateDeadline =>
    exact (Dev.snoopDeadline_noAttempt fun t h => absurd (ht.symm.trans h) (by simp)).trans (Dev.lateDeadline_overdue hx)
  case storeWait => exact Dev.storeWaitExpiry_overdue ht hx
  case grantWait => exact (Dev.grantWaitExpiry_granted ht hg).trans (if_pos htime)
  case released => exact if_neg (ne_true_of_eq_false h)
  case reserved => exact Dev.vc3Ack_snoop_reserved via wb bad hgrant hsnoop hcode
  case withoutKey => exact Dev.vc3Ack_snoop_withoutKey via wb bad hgrant hsnoop hcode hkey
  case grantData => exact Dev.vc3Ack_grant_data via st data wb bad key hgrant
  case unmatched => exact Dev.vc3Ack_unmatched via st data wb bad key hgrant hsnoop h
  case unmatchedGrant => exact Dev.vc3Ack_unmatched .companion 0 none false false none hgrant hsnoop h
  case late => exact Dev.vc3Ack_late via st data wb bad key hgrant hsnoop h
  case lateGrant => exact Dev.vc3Ack_late .companion 0 none false false none hgrant hsnoop h
  case noAnswerPoint => exact Dev.answerPoint_notYet h
  case noDeadline => exact (Dev.snoopDeadline_noAttempt hattempt).trans (Dev.lateDeadline_notYet hlate)
  case noStoreWait => exact Dev.storeWaitExpiry_notYet h
  case noGrantWait => exact Dev.grantWaitExpiry_notYet h
  case stillHeld => exact if_pos h

end Sys2Proof.Machine
end

section
/-! PROOFS. The commands of the dense tier, the bring-up of drives and the rebuild. -/

namespace Sys2Proof.Machine

/-! ### Commands of TIER (R68, R159, R198) -/

section
variable {f : Dev → Option Status × Dev} {d d' : Dev} (hbusy : d.busy 0xA104 = false)
include hbusy

theorem Dev.tierCmd_ends {st : Status} (h : f (d.cmdBegin 0xA104) = (some st, d')) : d.tierCmd f = d'.cmdEnd Reg.tier 0xA104 1 st := by
  unfold Dev.tierCmd
  rw [if_neg (ne_true_of_eq_false hbusy), h]

theorem Dev.tierCmd_waits (h : f (d.cmdBegin 0xA104) = (none, d')) : d.tierCmd f = d' := by
  unfold Dev.tierCmd
  rw [if_neg (ne_true_of_eq_false hbusy), h]

end

/-- The pinned rows of the DRAM area are set, which empties the block cache (R159). -/
def Dev.setPinRows (v : Nat) (d : Dev) : Dev := d.modTier fun t => { t with pinRows := v, frames := [], tags := ⟨[], []⟩, refills := [] }

/-- Whether a pinned extent that is not FREE ends above a limit. -/
def Dev.anyPinnedAbove (d : Dev) (v : Nat) : Bool :=
  d.coh.exts.any fun x => x.2.state != .free && !x.2.tiered && decide (x.2.backing.toNat + x.2.rows > v)

theorem Dev.areaSet_ok {d : Dev} {v : Nat} (hv : d.data 0xA120 1 = v) (htiered : d.anyTiered = false) (hpinned : d.anyPinnedAbove v = false)
    (hmap : v ≤ d.tier.mapFirst) (hroom : d.tier.blocks = 0 ∨ v + 32 ≤ d.tier.mapFirst) : d.areaSet = (some .ok, d.setPinRows v) := by
  subst hv
  have hfree : ¬ (d.anyTiered = true ∨ d.anyPinnedAbove (d.data 0xA120 1) = true) := by simp [htiered, hpinned]
  have hfits : ¬ (d.data 0xA120 1 > d.tier.mapFirst ∨ (d.tier.blocks ≠ 0 ∧ d.tier.mapFirst - d.data 0xA120 1 < 32)) := by omega
  exact (if_neg hfree).trans (if_neg hfits)

/-- A THATCH_INIT that no tiered extent refuses begins the bring-up of the drives (R198, R507, R586). -/
theorem Dev.thatchInit_begins {d : Dev} (htiered : d.anyTiered = false) :
    let ns := BitVec.ofNat 32 (d.data 0xA120 1)
    d.thatchInit = (none, ((({ d with sec := { d.sec with tg := d.sec.tg + 1 } } : Dev).modTier fun t =>
      { t with initCap := some (d.data 0xA128 2), nsid := if ns = 0 then 1 else ns }).releasePorts (List.range 16))) :=
  if_neg (ne_true_of_eq_false htiered)

/-- What a FLUSH that is accepted now waits for (R198): each dirty block, with a writeback of it that has taken its snapshot. -/
def Dev.dirtyBlocks (d : Dev) : List FlushEnt :=
  (d.tier.frames.filter fun f => f.2.valid && f.2.dirty != 0).map fun f =>
    ⟨f.2.block, f.2.dirty, (d.tier.wbs.find? fun w => w.block == f.2.block && w.snap.isSome).map fun w => (w.id, w.again)⟩

section
variable {d : Dev} (hinit : d.tier.state ≠ .uninit)
include hinit

theorem Dev.flush_clean (hclean : d.dirtyBlocks = []) : d.flush = (some .ok, d) :=
  (if_neg hinit).trans (if_pos (List.isEmpty_iff.mpr hclean))

theorem Dev.flush_dirty (hdirty : d.dirtyBlocks ≠ []) : d.flush = (none, d.modTier fun t => { t with flush := d.dirtyBlocks }) :=
  (if_neg hinit).trans (if_neg (mt List.isEmpty_iff.mp hdirty))

theorem Dev.driveFail_ok {port : Nat} (hgood : d.driveFailed port = false) : d.driveFail port = (some .ok, d.failDrive port 4) :=
  if_neg (by simp [hinit, hgood])

theorem Dev.driveRebuild_begins {port : Nat} (hthatch : d.tier.state ≠ .failed) (hidle : d.tier.rebuild = none)
    (hfailed : d.tier.failed.getLsbD port = true) :
    d.driveRebuild port = (none, (d.modTier fun t => { t with rebuildAsk := some port }).releasePorts [port]) :=
  if_neg (by simp [hinit, hthatch, hidle, hfailed])

end

/-! ### The end of a bring-up (R191, R193, R195, R198) -/

/-- The device when the bring-up that DRIVE_REBUILD asked for has found a drive. -/
def Dev.broughtUpToRebuild (x : DriveInfo) (d : Dev) : Dev := (d.modTier fun t => { t with rebuildAsk := none }).bringUp x

/-- Whether the drive found can be rebuilt: supported, and not too small for the stripes of the thatch (R191). -/
def Dev.CanRebuild (d : Dev) (x : DriveInfo) : Prop :=
  driveSupported x = true ∧ 16 * ceilDiv (d.broughtUpToRebuild x).tier.blocks 14 ≤ x.lbas.toNat

section
variable {d : Dev} {x : DriveInfo} (hinit : d.tier.initCap = none) (hask : d.tier.rebuildAsk = some x.port.val)
include hinit hask

theorem Dev.bringUpDone_rebuild : d.bringUpDone [x] =
    let d1 := d.broughtUpToRebuild x
    if driveSupported x && decide (16 * ceilDiv d1.tier.blocks 14 ≤ x.lbas.toNat) then
      ((d1.modTier fun t => { t with rebuild := some ⟨x.port.val, 0, none, none⟩ }).logDrive x.port.val 2 0 0 0 0).cmdEnd Reg.tier 0xA104 1 .ok
    else d1.cmdEnd Reg.tier 0xA104 1 .fenced := by
  unfold Dev.bringUpDone
  rw [hinit, hask]
  simp only [List.foldl_cons, List.foldl_nil, List.any_cons, List.any_nil, if_true, beq_self_eq_true, Bool.true_and, Bool.or_false]
  rfl

theorem Dev.bringUpDone_rebuild_starts (h : d.CanRebuild x) : d.bringUpDone [x] =
    (((d.broughtUpToRebuild x).modTier fun t => { t with rebuild := some ⟨x.port.val, 0, none, none⟩ }).logDrive x.port.val 2 0 0 0 0).cmdEnd
      Reg.tier 0xA104 1 .ok := by
  obtain ⟨hsupported, hlarge⟩ := h
  exact (Dev.bringUpDone_rebuild hinit hask).trans (if_pos (by simp [hsupported, hlarge]))

theorem Dev.bringUpDone_rebuild_refused (h : ¬ d.CanRebuild x) :
    d.bringUpDone [x] = (d.broughtUpToRebuild x).cmdEnd Reg.tier 0xA104 1 .fenced :=
  (Dev.bringUpDone_rebuild hinit hask).trans (if_neg (by simpa [Dev.CanRebuild] using h))

end

/-- The device when the bring-up of THATCH_INIT has found the drives. -/
def Dev.broughtUpToInit (l : List DriveInfo) (d : Dev) : Dev :=
  l.foldl (fun d x => d.bringUp x) (d.modTier fun t => { t with initCap := none })

/-- The supported drive that a bring-up has found at a port. -/
def foundDrive (l : List DriveInfo) (i : Nat) : Option DriveInfo := l.find? fun x => x.port.val == i && Dev.driveSupported x

/-- The ports at which a bring-up has found no supported drive. -/
def badPorts (l : List DriveInfo) : List Nat := (List.range 16).filter fun i => (foundDrive l i).isNone

/-- The blocks of a thatch on the drives that a bring-up has found (R198): the smallest drive gives the stripes, and THATCH_INIT a
limit. -/
def blocksOn (cap : Nat) (l : List DriveInfo) : Nat :=
  let stripes := ((List.range 16).filterMap (foundDrive l)).foldl (fun m x => min m (x.lbas.toNat / 16)) (4026531840 / 14 + 1)
  min (min (14 * stripes) 4026531840) (if cap = 0 then 4026531840 else cap)

/-- Whether the map of a thatch leaves the block cache its least number of rows (R198). -/
def Dev.RoomForMap (d : Dev) (blocks : Nat) : Prop := d.tier.pinRows + 32 ≤ ({ d.tier with blocks := blocks } : Tier).mapFirst

/-- The thatch of some blocks, empty and HEALTHY, but for the bad drives, which fail (R193, R198). -/
def Dev.initThatch (blocks : Nat) (bad : List Nat) (d : Dev) : Dev :=
  bad.foldl (fun d i => d.failDrive i 5) (d.emptyThatch.modTier fun t => { t with blocks := blocks, state := .healthy })

section
variable {d : Dev} {cap : Nat} {l : List DriveInfo} (hinit : d.tier.initCap = some cap)
include hinit

theorem Dev.bringUpDone_init : d.bringUpDone l =
    let d1 := d.broughtUpToInit l
    if (badPorts l).length > 2 then (d1.emptyThatch.modTier fun t => { t with state := .uninit, blocks := 0 }).cmdEnd Reg.tier 0xA104 1 .stateConflict
    else if ({ d1.tier with blocks := blocksOn cap l } : Tier).mapFirst < d1.tier.pinRows + 32 then d1.cmdEnd Reg.tier 0xA104 1 .malformed
    else (d1.initThatch (blocksOn cap l) (badPorts l)).cmdEnd Reg.tier 0xA104 1 .ok := by
  unfold Dev.bringUpDone
  rw [hinit]
  rfl

theorem Dev.bringUpDone_init_tooManyBad (hbad : 2 < (badPorts l).length) : d.bringUpDone l =
    ((d.broughtUpToInit l).emptyThatch.modTier fun t => { t with state := .uninit, blocks := 0 }).cmdEnd Reg.tier 0xA104 1 .stateConflict :=
  (Dev.bringUpDone_init hinit).trans (if_pos hbad)

theorem Dev.bringUpDone_init_noRoom (hbad : (badPorts l).length ≤ 2) (hroom : ¬ (d.broughtUpToInit l).RoomForMap (blocksOn cap l)) :
    d.bringUpDone l = (d.broughtUpToInit l).cmdEnd Reg.tier 0xA104 1 .malformed :=
  (Dev.bringUpDone_init hinit).trans ((if_neg (Nat.not_lt.mpr hbad)).trans (if_pos (Nat.not_le.mp hroom)))

theorem Dev.bringUpDone_init_ok (hbad : (badPorts l).length ≤ 2) (hroom : (d.broughtUpToInit l).RoomForMap (blocksOn cap l)) :
    d.bringUpDone l = ((d.broughtUpToInit l).initThatch (blocksOn cap l) (badPorts l)).cmdEnd Reg.tier 0xA104 1 .ok :=
  (Dev.bringUpDone_init hinit).trans ((if_neg (Nat.not_lt.mpr hbad)).trans (if_neg (Nat.not_lt.mpr hroom)))

end

/-! ### The rebuild of a drive (R195) -/

/-- The rebuild with the step that runs. -/
def Dev.setStep (r : Rebuild) (x : Option (Nat × Nat × Bool)) (d : Dev) : Dev := d.modTier fun t => { t with rebuild := some { r with step := x } }

/-- Whether the pace of REBUILD_RATE lets the next step begin: no rebuild write yet, or one that is long enough ago. -/
def Dev.PaceAllows (r : Rebuild) (d : Dev) : Prop := ∀ a, r.lastAt = some a → a + 655360 / min1 (d.fld 0xA110 15 8) ≤ d.now

/-- The member of a stripe on the drive under rebuild is written from the granules that the survivors gave; a data unit is counted. -/
def Dev.writeRebuilt (k port : Nat) (gs : List Granule) (d : Dev) : Dev :=
  let d := d.writeMember .rebuild k port fun g => d.newMember k g gs [] port
  if (stripePos k port).isSome = true then d.bump Reg.tier 0x058 1 else d

/-- The rebuild ends: its drive leaves the failed set. -/
def Dev.endRebuild (port : Nat) (d : Dev) : Dev :=
  let failed := d.tier.failed &&& ~~~(1#16 <<< port)
  ((d.modTier fun t => { t with rebuild := none, failed := failed, state := Dev.thatchOf t.state failed }).logDrive port 3 0 0 0 0).cause Reg.tier 3

/-- A rebuild with no step takes the next used stripe when its pace allows, in the arrival order of writebacks; with no stripe left it ends. -/
def Dev.nextStep (r : Rebuild) (d : Dev) : Dev :=
  match d.nextStripe r.next with
  | some k =>
    if r.lastAt.any fun a => decide (d.now < a + 655360 / min1 (d.fld 0xA110 15 8)) then d
    else d.modTier fun t => { t with rebuild := some { r with step := some (k, t.nextWb, false) }, nextWb := t.nextWb + 1 }
  | none => d.endRebuild r.port

theorem Dev.nextStep_takes {d : Dev} {r : Rebuild} {k : Nat} (hnext : d.nextStripe r.next = some k) (hpace : d.PaceAllows r) :
    d.nextStep r = (d.setStep r (some (k, d.tier.nextWb, false))).modTier fun t => { t with nextWb := t.nextWb + 1 } := by
  have hdue : ¬ (r.lastAt.any fun a => decide (d.now < a + 655360 / min1 (d.fld 0xA110 15 8))) = true := by
    simpa [Dev.PaceAllows, Option.any_eq_false] using hpace
  unfold Dev.nextStep
  rw [hnext]
  exact if_neg hdue

theorem Dev.nextStep_ends {d : Dev} {r : Rebuild} (hnext : d.nextStripe r.next = none) : d.nextStep r = d.endRebuild r.port := by
  unfold Dev.nextStep
  rw [hnext]

section
variable (gs : List Granule) {d : Dev} {r : Rebuild} (hr : d.tier.rebuild = some r)
include hr

theorem Dev.rebuildStripe_noStep (hstep : r.step = none) : d.rebuildStripe gs = (d.driveEnd fun y => y.use == .rebuild).nextStep r := by
  unfold Dev.rebuildStripe
  rw [hr]
  dsimp only
  rw [hstep]
  dsimp only
  generalize d.driveEnd (fun y => y.use == .rebuild) = e
  rfl

theorem Dev.rebuildStripe_reads {k i : Nat} (hstep : r.step = some (k, i, false)) (hthatch : d.tier.state ≠ .failed) (hfirst : d.firstOn k i = true)
    (hidle : d.drivesBusy = false) : d.rebuildStripe gs = (d.askMembers .rebuild k [r.port]).setStep r (some (k, i, true)) := by
  unfold Dev.rebuildStripe
  rw [hr]
  dsimp only
  rw [hstep]
  exact if_neg (by simp [hthatch, hfirst, hidle])

theorem Dev.rebuildStripe_writes {k i : Nat} (hstep : r.step = some (k, i, true)) :
    let d1 := (d.driveEnd fun y => y.use == .rebuild).writeRebuilt k r.port gs
    d.rebuildStripe gs = d1.modTier fun t => { t with rebuild := some ⟨r.port, k + 1, none, some d1.now⟩ } := by
  unfold Dev.rebuildStripe
  rw [hr]
  dsimp only
  rw [hstep]
  rfl

end

/-- Settles O19: a command by its conditions, which the set BUSY leaves as they were; a bring-up by what asked for it; a step of the rebuild by the
step before it. -/
theorem tierCommandsTakeEffect : Obligations.TierCommandsTakeEffect := by
  intro s p t busy d ends
  refine ⟨fun hbusy htiered hpinned hmap hroom => ?areaSet, fun hbusy htiered => ?thatchInit, fun hbusy hinit => ?flush,
    fun hbusy hinit hgood => ?driveFail, fun hbusy hinit hthatch hidle hfailed => ?driveRebuild,
    fun x hinit hask => ⟨fun h => ?rebuildStarts, fun h => ?rebuildRefused⟩,
    fun cap l hinit => ⟨fun hbad => ?tooManyBad, fun hbad hroom => ?noRoom, fun hbad hroom => ?initOk⟩,
    fun gs r hr => ⟨fun k hstep hnext hpace => ?takes, fun k i hstep hthatch hfirst hidle => ?reads, fun k i hstep => ?writes,
      fun hstep hnext => ?rebuildEnds⟩⟩
  case areaSet => exact congrArg (Obl.dev s) (Dev.tierCmd_ends hbusy (Dev.areaSet_ok rfl htiered hpinned hmap hroom))
  case thatchInit => exact congrArg (Obl.dev s) (Dev.tierCmd_waits hbusy (Dev.thatchInit_begins (d := d) htiered))
  case flush =>
    by_cases hclean : d.dirtyBlocks = []
    · exact (congrArg (Obl.dev s) (Dev.tierCmd_ends hbusy (Dev.flush_clean (d := d) hinit hclean))).trans (if_pos hclean).symm
    · exact (congrArg (Obl.dev s) (Dev.tierCmd_waits hbusy (Dev.flush_dirty (d := d) hinit hclean))).trans (if_neg hclean).symm
  case driveFail => exact congrArg (Obl.dev s) (Dev.tierCmd_ends hbusy (Dev.driveFail_ok (d := d) hinit hgood))
  case driveRebuild => exact congrArg (Obl.dev s) (Dev.tierCmd_waits hbusy (Dev.driveRebuild_begins (d := d) hinit hthatch hidle hfailed))
  case rebuildStarts => exact congrArg (Obl.dev s) (Dev.bringUpDone_rebuild_starts hinit hask h)
  case rebuildRefused =>
    refine congrArg (Obl.dev s) (Dev.bringUpDone_rebuild_refused hinit hask fun ⟨hsupported, hlarge⟩ => ?_)
    rcases h with hunsupported | hsmall
    · exact absurd (hunsupported.symm.trans hsupported) (by decide)
    · exact absurd hlarge (Nat.not_le.mpr hsmall)
  case tooManyBad => exact congrArg (Obl.dev s) (Dev.bringUpDone_init_tooManyBad hinit hbad)
  case noRoom => exact congrArg (Obl.dev s) (Dev.bringUpDone_init_noRoom hinit hbad (Nat.not_le.mpr hroom))
  case initOk => exact congrArg (Obl.dev s) (Dev.bringUpDone_init_ok hinit hbad hroom)
  case takes => exact congrArg (Obl.dev s) ((Dev.rebuildStripe_noStep gs hr hstep).trans (Dev.nextStep_takes hnext hpace))
  case reads => exact congrArg (Obl.dev s) (Dev.rebuildStripe_reads gs hr hstep hthatch hfirst hidle)
  case writes => exact congrArg (Obl.dev s) (Dev.rebuildStripe_writes gs hr hstep)
  case rebuildEnds => exact congrArg (Obl.dev s) ((Dev.rebuildStripe_noStep gs hr hstep).trans (Dev.nextStep_ends hnext))

end Sys2Proof.Machine
end

section
/-! PROOFS. The events of the dense tier: fills, evictions, writebacks, the cleaner, ages, and drives that fail. -/

namespace Sys2Proof.Machine

/-! ### Fills (R170 to R172) -/

/-- The frames that a fill may take: the ways of its set that no retirement names (R162, R258). -/
def Dev.fillKeys (d : Dev) (i blk : Nat) : List Nat := (d.waysOf i blk).filter fun k => !d.frameRetired k

/-- The first invalid IDLE frame of some. -/
def Dev.freeOf (d : Dev) (keys : List Nat) : Option Nat := keys.find? fun k => !(d.frame k).valid && (d.frame k).state == .idle

/-- A frame is taken for the fill of a block, which reads the drives if the block has content. -/
def Dev.takeFrame (blk : Nat) (i : ExtIdx) (k : Nat) (d : Dev) : Dev :=
  let d := (d.setFrame k { frameReset with block := blk, ext := i, state := .filling }).modTier fun t =>
    { t with fills := t.fills.map fun f => if f.block == blk then { f with frame := some k } else f }
  if d.onDrives blk then d.readBlock blk else d

section
variable {d : Dev} {blk k : Nat} {fl : BlockFill} (hfill : (d.tier.fills.find? fun f => f.block == blk && f.frame.isNone) = some fl)
  (hout : d.frameOf blk = none)
include hfill hout

theorem Dev.tryFrame_takes (hfree : d.freeOf (d.fillKeys fl.ext.toNat blk) = some k) : d.tryFrame blk = d.takeFrame blk fl.ext k := by
  unfold Dev.freeOf Dev.fillKeys at hfree
  unfold Dev.tryFrame
  rw [hfill]
  dsimp only
  rw [hout, if_neg (by decide), hfree]
  rfl

theorem Dev.tryFrame_evicts (hfree : d.freeOf (d.fillKeys fl.ext.toNat blk) = none) (hstay : (d.fillKeys fl.ext.toNat blk).any d.leaving = false)
    (hvictim : d.victim (d.fillKeys fl.ext.toNat blk) = some k) : d.tryFrame blk = d.startEvict k := by
  unfold Dev.freeOf at hfree
  unfold Dev.fillKeys at hfree hstay hvictim
  unfold Dev.tryFrame
  rw [hfill]
  dsimp only
  rw [hout, if_neg (by decide), hfree]
  dsimp only
  rw [if_neg (ne_true_of_eq_false hstay), hvictim]

end

/-- Every line of a frame is filled with poison (R187, R256). -/
def Dev.poisonFrame (e : Ext) (blk k : Nat) (d : Dev) : Dev := foldN 16 (fun g d => d.fillGranule e blk k g none) d

/-- What a fill writes into its frame (R170, R187, R256): poison where the set or the block is lost, zeros for a block without content, or what
the drives gave. -/
def Dev.fillFrame (i : Nat) (blk k : Nat) (m : Word32) (e : Ext) (gs : List Granule) (d : Dev) : Dev :=
  if d.setLost i blk then (d.poisonFrame e blk k).setMap blk (m ||| 2)
  else if m.getLsbD 1 then d.poisonFrame e blk k
  else if !m.getLsbD 0 then foldN 16 (fun g d => d.fillGranule e blk k g (some (List.replicate 4096 0, 0))) d
  else d.takeBlock e blk k gs

/-- A fill of a block with content, or of one without, is counted; that of a LOST block is not (R199, log 67). -/
def Dev.countFill (m : Word32) (d : Dev) : Dev := if m.getLsbD 1 then d else d.bump Reg.tier (if m.getLsbD 0 then 0x040 else 0x048) 1

/-- The retirements of both halves go on (R258). -/
def Dev.tryRetires (d : Dev) : Dev := (d.tryRetire .west).tryRetire .east

/-- A fill ends: its frame becomes IDLE and valid, and what waited for it goes on. -/
def Dev.endFill (blk k : Nat) (d : Dev) : Dev :=
  ((((d.setFrame k { d.frame k with valid := true, state := .idle }).pinLimit k).modTier fun t =>
    { t with fills := t.fills.filter fun f => f.block ≠ blk }).tryRegion).tryRetires

theorem Dev.fillDone_withFrame (gs : List Granule) {d : Dev} {blk k : Nat} {i : ExtIdx}
    (hfill : (d.tier.fills.find? fun f => f.block == blk) = some ⟨blk, i, some k⟩) :
    d.fillDone blk gs = (((d.driveEnd fun y => y.use == .fill blk).fillFrame i.toNat blk k (d.mapEnt blk) (d.ext i.toNat) gs).countFill
      (d.mapEnt blk)).endFill blk k := by
  unfold Dev.fillDone
  rw [hfill]
  rfl

/-! ### Evictions (R172, R174) -/

section
variable {d : Dev} {blk k : Nat} {f : Frame} (hframe : d.frameOf blk = some (k, f)) (hstate : f.state = .evicting)
include hframe hstate

theorem Dev.evictRecalled_recalled (hfree : d.blockBusy f.ext.toNat blk false = false) : d.evictRecalled blk =
    if d.tier.refills.contains k then d.refillNow k else if f.dirty = 0 then (d.freeFrame k).tryRetires else (d.beginWb k true).wbStep blk [] := by
  unfold Dev.evictRecalled
  rw [hframe]
  exact (if_neg (not_not.mpr hstate)).trans (if_neg (ne_true_of_eq_false hfree))

theorem Dev.evictRecalled_held (hheld : d.blockBusy f.ext.toNat blk false = true) :
    d.evictRecalled blk = d.recallBlock f.ext.toNat blk (.evict blk) .inv false := by
  unfold Dev.evictRecalled
  rw [hframe]
  exact (if_neg (not_not.mpr hstate)).trans (if_pos hheld)

end

/-! ### Writebacks and the cleaner (R175, R177, R178) -/

/-- Whether FLUSH waits for a block. -/
def Dev.flushWaits (d : Dev) (blk : Nat) : Bool := d.tier.flush.any fun x => x.block == blk && x.left != 0

theorem Dev.writeback_begins (gs : List Granule) {d : Dev} {blk k : Nat} {f : Frame} (hnone : (d.tier.wbs.find? fun w => w.block == blk) = none)
    (hframe : d.frameOf blk = some (k, f)) (hvalid : f.valid = true) (hidle : f.state = .idle) (hdirty : f.dirty ≠ 0)
    (hasked : d.flushWaits blk = true ∨ d.cleanerTakes f = true) : d.writeback blk gs = (d.beginWb k false).wbStep blk [] := by
  unfold Dev.writeback
  rw [hnone]
  dsimp only
  rw [hframe]
  exact if_pos ⟨hvalid, hidle, hdirty, hasked⟩

section
variable {d : Dev} {blk : Nat} {w : BlockWb} (hw : (d.tier.wbs.find? fun w => w.block == blk) = some w)
include hw

theorem Dev.writeback_underWay (gs : List Granule) : d.writeback blk gs = d.wbStep blk gs := by
  unfold Dev.writeback
  rw [hw]

theorem Dev.wbStep_sends (gs : List Granule) (hsent : w.sent = false) (hsnap : w.snap.isSome = true) :
    d.wbStep blk gs = d.sendWrites (w.lead.getD w.id) gs := by
  unfold Dev.wbStep
  rw [hw]
  exact (if_neg (ne_true_of_eq_false hsent)).trans (if_pos hsnap)

theorem Dev.wbDone_sent (hsent : w.sent = true) :
    let id := w.lead.getD w.id
    d.wbDone blk = ((d.wbGroup id).foldl (fun d x => d.wbEnd x) (d.driveEnd fun y => y.use == .writeback id)).cleanerStop.tryRetires := by
  unfold Dev.wbDone
  rw [hw]
  exact if_neg (by simp [hsent])

end

/-- A writeback whose writes have completed is counted and leaves the list; DATA is set unless the block is LOST (R175 step 5). -/
def Dev.wbWritten (w : BlockWb) (d : Dev) : Dev :=
  let d1 := if (d.mapEnt w.block).getLsbD 1 then d else d.setMap w.block (d.mapEnt w.block ||| 1)
  (d1.modTier fun t => { t with wbs := t.wbs.filter fun x => x.id != w.id }).bump Reg.tier 0x050 1

/-- The writeback of an eviction frees the frame, unless its block has reached the EPOCH limit (R174 step 4, R177). -/
theorem Dev.wbEnd_evicted {d : Dev} {w : BlockWb} (hevict : w.evict = true) (hlimit : (d.wbWritten w).epoch w.block ≠ 0x3FFFFFFF) :
    d.wbEnd w = ((d.wbWritten w).freeFrame w.frame).flushDone w :=
  congrArg (Dev.flushDone w) (if_pos ⟨hevict, hlimit⟩)

theorem Dev.cleanerStart_above {d : Dev} (hon : d.cleanLevels.1 ≠ 0) (habove : d.dirtyCount * 100 > d.cleanLevels.1 * d.frameCount) :
    d.cleanerStart = d.modTier fun t => { t with cleaning := true } :=
  if_pos ⟨hon, habove⟩

/-! ### Ages and drives (R173, R192) -/

theorem Dev.ageStep_due {d : Dev} (h : d.tier.ageAt + 100000 ≤ d.now) :
    d.ageStep = d.modTier fun t => { t with ageAt := d.now, frames := t.frames.map fun f => (f.1, { f.2 with age := satAdd f.2.age 1 }) } :=
  if_pos h

/-- A command of a drive for the stripe of a block that has passed TIMEOUT (R192, R197). -/
def Dev.overdueIo (d : Dev) (port blk : Nat) : Option DriveIo :=
  let lba := blk / 14 * 16
  (d.drive port).io.find? fun y => (y.cmd == .read lba || (match y.cmd with | .write l _ => l == lba | _ => false)) &&
    y.issued.any fun t => decide (t + min1 (d.fld 0xA110 7 0) * 1000000 ≤ d.now)

/-- The times of a drive's command timeouts within the last second, with the one of now. -/
def Dev.timeoutsNow (d : Dev) (port : Nat) : List Nat := d.now :: (d.drive port).timeouts.filter fun t => d.now < t + 1000000000

/-- A command of a drive is aborted and counted, and what it served goes on from the other members of the stripe. -/
def Dev.abortIo (port lba : Nat) (y : DriveIo) (d : Dev) : Dev :=
  (((((d.putDrive port { d.drive port with io := (d.drive port).io.erase y, timeouts := d.timeoutsNow port }).emit
    (.drive port (.abort lba (y.cmd != .read lba)))).driveIssue port).bump (Reg.dtp port) 0x048 1).readLost port y)

theorem Dev.driveTimeout_overdue {d : Dev} {port blk : Nat} {y : DriveIo} (h : d.overdueIo port blk = some y) :
    d.driveTimeout port blk =
      if (d.timeoutsNow port).length ≥ 3 then (d.abortIo port (blk / 14 * 16) y).failDrive port 3 else d.abortIo port (blk / 14 * 16) y := by
  unfold Dev.driveTimeout
  dsimp only
  split
  next hnone => exact absurd (h.symm.trans hnone) (by simp)
  next y' hfound =>
    obtain rfl : y = y' := Option.some.inj (h.symm.trans hfound)
    rfl

/-- Settles O20: a fill, an eviction and a writeback by the entry that the event finds and its state; the other events by their guard. -/
theorem tierEventsTakeEffect : Obligations.TierEventsTakeEffect := by
  intro s p b sd t hi drive retire
  refine ⟨fun fl hfill hout => ⟨fun k hfree => ?takesFrame, fun k hfree hstay hvictim => ?evicts⟩, fun gs i k hfill => ?fillDone,
    fun k f hframe hstate => ⟨fun hfree => ?recalled, fun hheld => ?held⟩,
    fun gs k f hnone hframe hvalid hidle hdirty hasked => ?writeback, fun gs w hw hsent hsnap => ?sends, fun w hw hsent => ?written,
    fun d w hevict hlimit => Dev.wbEnd_evicted hevict hlimit, fun hon habove => ?cleaner, fun hdue => ?age, fun y hy => ?timeout,
    fun removed => rfl, rfl, fun c => rfl⟩
  all_goals refine congrArg (Obl.dev s) ?_
  case takesFrame => exact Dev.tryFrame_takes hfill hout hfree
  case evicts => exact Dev.tryFrame_evicts hfill hout hfree hstay hvictim
  case fillDone => exact Dev.fillDone_withFrame gs hfill
  case recalled => exact Dev.evictRecalled_recalled hframe hstate hfree
  case held => exact Dev.evictRecalled_held hframe hstate hheld
  case writeback => exact Dev.writeback_begins gs hnone hframe hvalid hidle hdirty hasked
  case sends => exact (Dev.writeback_underWay hw gs).trans (Dev.wbStep_sends hw gs hsent hsnap)
  case written => exact Dev.wbDone_sent hw hsent
  case cleaner => exact Dev.cleanerStart_above hon habove
  case age => exact Dev.ageStep_due hdue
  case timeout => exact Dev.driveTimeout_overdue hy

end Sys2Proof.Machine
end

section
/-! PROOFS. The events of the DDR channels: refresh, mode register 4, the scheduler, neighbour refreshes, parity recovery and calibration. -/

namespace Sys2Proof.Machine

/-! ### What the rank of a channel that keeps its DIMM refreshed is due (R212, R213, R217, R229) -/

theorem Dev.chan_modChan (c : Nat) (f : DdrChan → DdrChan) (d : Dev) : (d.modChan c f).chan c = f (d.chan c) :=
  (Tbl.get_set _ c _ d.ddr c).trans (if_pos rfl)

section
variable {d : Dev} {c r : Nat} (htrained : d.chanTrained c = true) (hrank : r < d.rankCount c)
include htrained hrank

theorem Dev.windowClear_over (hdue : (d.rank c r).windowAt ≤ d.now) :
    let x := d.rank c r
    d.windowClear c r = (d.setRank c r { x with windowAt := d.now + (if x.fast then 16000000 else 32000000) }).modRankBanks c r fun b =>
      { b with acts := [], floor := 0 } :=
  if_neg (by simp [htrained, hrank, hdue])

variable (hrun : (d.chan c).recover = false)
include hrun

theorem Dev.calibrate_impedance (hdue : (d.rank c r).calAt + 128000000 ≤ d.now) :
    d.calibrate c r false = (d.record c (.calibrate r false)).setRank c r { d.rank c r with calAt := d.now } :=
  if_neg (by simp [htrained, hrank, hrun, hdue])

theorem Dev.calibrate_tracking (hdue : (d.rank c r).trackAt + 16000000 ≤ d.now) :
    d.calibrate c r true = (d.record c (.calibrate r true)).setRank c r { d.rank c r with trackAt := d.now } :=
  if_neg (by simp [htrained, hrank, hrun, hdue])

variable (hdue : (d.rank c r).dueAt ≤ d.now)
include hdue

/-- A refresh that is due, whether it is at its limit or may be postponed, outside panic or in it. -/
theorem Dev.refreshDue_due : d.refreshDue c r =
    let x := d.rank c r
    if d.mustRefresh c r then d.refreshRank c r
    else if d.inPanic c then (d.setRank c r { x with debt := x.debt + 1, dueAt := x.dueAt + trefi x }).bump (Reg.ddr c) 0x048 1
    else if d.nbrQueued c r then d
    else d.refreshRank c r :=
  if_neg (by simp [htrained, hrank, hrun, hdue])

theorem Dev.refreshDue_refreshes (h : d.mustRefresh c r = true ∨ (d.inPanic c = false ∧ d.nbrQueued c r = false)) :
    d.refreshDue c r = d.refreshRank c r := by
  rw [Dev.refreshDue_due htrained hrank hrun hdue]
  rcases h with hlimit | ⟨hcalm, hfree⟩
  · exact if_pos hlimit
  · by_cases hlimit : d.mustRefresh c r = true
    · exact if_pos hlimit
    · exact (if_neg hlimit).trans ((if_neg (ne_true_of_eq_false hcalm)).trans (if_neg (ne_true_of_eq_false hfree)))

theorem Dev.refreshDue_postpones (hlimit : d.mustRefresh c r = false) (hpanic : d.inPanic c = true) :
    let x := d.rank c r
    d.refreshDue c r = (d.setRank c r { x with debt := x.debt + 1, dueAt := x.dueAt + trefi x }).bump (Reg.ddr c) 0x048 1 := by
  rw [Dev.refreshDue_due htrained hrank hrun hdue]
  exact (if_neg (ne_true_of_eq_false hlimit)).trans (if_pos hpanic)

end

/-! ### Mode register 4 (R212, R214) -/

/-- Mode register 4 of a rank gives the rate of its refresh; a temperature above the rated range is reported. -/
def Dev.applyMr4 (c : Nat) (hot : List Mr4) (r : Nat) (d : Dev) : Dev :=
  let h := hot.getD r .normal
  let d := (d.record c (.mr4 r)).setRank c r { d.rank c r with fast := h != .normal }
  if h = .above then (d.cause (Reg.ddr c) 2).logChan c 2 (c + r * 32) 5 else d

theorem Dev.mr4Poll_due {d : Dev} {c : Nat} (hot : List Mr4) (htrained : d.chanTrained c = true) (hrun : (d.chan c).recover = false)
    (hdue : (d.chan c).mr4At ≤ d.now) :
    let d1 := foldN (d.rankCount c) (Dev.applyMr4 c hot) (d.modChan c fun x => { x with mr4At := d.now + 4000000 })
    d.mr4Poll c hot =
      d1.setFld (Dev.ddrA c + 0x100) 4 4 (if (List.range (d1.rankCount c)).any fun r => (d1.rank c r).fast then 1 else 0) :=
  if_neg (by simp [htrained, hrun, hdue])

/-! ### The scheduler (R207 to R211) -/

/-- The channel with the note whether a batch of writes runs. -/
def Dev.noteBatch (c : Nat) (d : Dev) : Dev := d.modChan c fun x => { x with batch := d.batchNow c }

/-- A write that a batch issues leaves the buffer, and what waits at the home agent may take its entry. -/
def Dev.serveWrite (c : Nat) (w : ChanReq) (d : Dev) : Dev :=
  ((d.modChan c fun x => { x with wr := x.wr.erase w, batch := decide (16 ≤ (x.wr.erase w).length) }).modChan c DdrChan.readmit).issue c w true

/-- The write that a running batch may issue next. -/
def Dev.batchWrite (d : Dev) (c : Nat) : Option ChanReq := if d.batchNow c then (d.noteBatch c).pickWrite c else none

/-- The read that is next while CHECK makes no read wait. -/
def Dev.readyRead (d : Dev) (c : Nat) : Option (Bool × ChanReq) := if (d.chan c).cmdWaits then none else d.nextRead c

section
variable {d : Dev} {c : Nat} (hactive : d.chanActive c = true) (hrun : (d.chan c).recover = false)
include hactive hrun

theorem Dev.schedule_write {w : ChanReq} (hwrite : d.batchWrite c = some w) : d.schedule c = (d.noteBatch c).serveWrite c w := by
  unfold Dev.batchWrite Dev.noteBatch at hwrite
  unfold Dev.schedule
  rw [if_neg (by simp [hactive, hrun])]
  dsimp only
  rw [hwrite]
  rfl

theorem Dev.schedule_read {latency : Bool} {q : ChanReq} (hwrite : d.batchWrite c = none)
    (hread : (d.noteBatch c).readyRead c = some (latency, q)) :
    d.schedule c = ((d.noteBatch c).rrStep c latency).serveRead c latency q := by
  unfold Dev.batchWrite Dev.noteBatch at hwrite
  unfold Dev.readyRead Dev.noteBatch at hread
  unfold Dev.schedule
  rw [if_neg (by simp [hactive, hrun])]
  dsimp only
  rw [hwrite]
  dsimp only
  rw [hread]
  rfl

end

theorem Dev.batchWrite_running {d : Dev} {c : Nat} (hbatch : d.batchNow c = true) : d.batchWrite c = (d.noteBatch c).pickWrite c := if_pos hbatch

theorem Dev.batchWrite_none {d : Dev} {c : Nat} (h : d.batchNow c = false ∨ (d.noteBatch c).pickWrite c = none) : d.batchWrite c = none := by
  rcases h with hnone | hpick
  · exact if_neg (ne_true_of_eq_false hnone)
  · exact (ite_congr rfl (fun _ => hpick) fun _ => rfl).trans (ite_self none)

theorem Dev.readyRead_noteBatch {d : Dev} {c : Nat} (hcheck : (d.chan c).cmdWaits = false) :
    (d.noteBatch c).readyRead c = (d.noteBatch c).nextRead c :=
  if_neg (by simp [Dev.noteBatch, Dev.chan_modChan, hcheck])

/-! ### Neighbour refreshes (R218, R219, R225) -/

theorem Dev.neighbourRefresh_runs {d : Dev} {c k row : Nat} {l : List Nat} (hqueue : (d.bank c k).nbr = row :: l)
    (hrun : (d.chan c).recover = false) (hlimit : d.mustRefresh c (rankOf k) = false)
    (hroom : d.actsLeft c k (d.neighbours c row).length = true) :
    let rows := d.neighbours c row
    let d1 := d.precharge c k
    let b := d1.bank c k
    d.neighbourRefresh c k = (rows.foldl (fun d x => d.record c (.neighbour k x))
      ((d1.setBank c k { b with nbr := l, raa := b.raa + rows.length }).bump (Reg.ddr c) 0x050 1)).manage c k := by
  unfold Dev.neighbourRefresh
  rw [hqueue]
  exact (if_neg (by simp [hrun, hlimit])).trans (if_neg (by simp [hroom]))

/-! ### Parity recovery (R221, R222, R224) -/

/-- The commands of a channel that an alert of now makes count as not executed, the last first. -/
def Dev.cutBack (d : Dev) (c : Nat) : List ChanCmd :=
  (d.chan c).retry.filter fun q => decide (d.ddrClock ≤ q.time + d.fld (Dev.ddrA c + 0x110) 7 0)

/-- A channel that an alert stops: what it issued in the window counts as not executed, and every bank is precharged. -/
def DdrChan.stopped (back : List ChanCmd) (x : DdrChan) : DdrChan :=
  ({ x with recover := true, alerts := 1, window := back.reverse, reopen := back.foldl (fun rows q => rowsBefore q rows) x.openRows }).setRows []

/-- A channel whose retraining met one more alert: no access of it waits any more. -/
def DdrChan.givenUp (x : DdrChan) : DdrChan :=
  { x with recover := false, window := [], reopen := [], retrained := true, lat := [], bulk := [], wr := [], waits := [] }

section
variable {d : Dev} {c : Nat} (hactive : d.chanActive c = true)
include hactive

theorem Dev.parityAlert_stops (hrun : (d.chan c).recover = false) :
    d.parityAlert c = (d.modChan c (DdrChan.stopped (d.cutBack c))).bump (Reg.ddr c) 0x060 1 :=
  (if_neg (not_not.mpr hactive)).trans
    (congrArg (fun x => (d.setChan c x).bump (Reg.ddr c) 0x060 1) (if_neg (ne_true_of_eq_false hrun)))

variable (hrecover : (d.chan c).recover = true)
include hrecover

theorem Dev.parityAlert_again :
    d.parityAlert c = (d.modChan c fun x => { x with alerts := x.alerts + 1 }).bump (Reg.ddr c) 0x060 1 :=
  (if_neg (not_not.mpr hactive)).trans (congrArg (fun x => (d.setChan c x).bump (Reg.ddr c) 0x060 1) (if_pos hrecover))

theorem Dev.parityReplay_replays (hfew : (d.chan c).alerts < 3) : d.parityReplay c = d.replayDone c :=
  if_pos ⟨hrecover, hfew, hactive⟩

variable (hmany : 3 ≤ (d.chan c).alerts)
include hmany

theorem Dev.caRetrain_replays : d.caRetrain c false = (d.modChan c fun x => { x with retrained := true }).replayDone c :=
  (if_neg (not_not.mpr ⟨hrecover, hmany, hactive⟩)).trans (if_neg Bool.false_ne_true)

theorem Dev.caRetrain_fails : d.caRetrain c true =
    (((((d.bump (Reg.ddr c) 0x060 1).modChan c DdrChan.givenUp).setFld (Dev.ddrA c + 0x100) 1 0 2).setFld (Dev.ddrA c + 0x100) 5 5 0).cause
      (Reg.ddr c) 3).logChan c 2 c 6 :=
  (if_neg (not_not.mpr ⟨hrecover, hmany, hactive⟩)).trans (if_pos rfl)

end

/-- Settles O21: an event of a rank by what is due, the scheduler by its choice, an alert by whether the channel is in recovery, and the end of a
recovery by the number of its alerts. -/
theorem ddrEventsTakeEffect : Obligations.DdrEventsTakeEffect := by
  intro s c d x cfg banks
  refine ⟨fun htrained => ⟨fun r hrank => ⟨fun hrun hdue h => ?refreshes, fun hrun hdue hlimit hpanic => ?postpones, fun hdue => ?window,
      fun hrun hdue => ?impedance, fun hrun hdue => ?tracking⟩, fun hot hrun hdue => ?mr4⟩,
    fun hactive hrun => ⟨fun w hbatch hpick => ?write, fun latency q hnone hcheck hnext => ?read⟩,
    fun k row l hqueue hrun hlimit hroom => ?neighbours,
    fun hactive => ⟨fun hrun => ?alert, fun hrecover => ⟨?again, fun hfew => ?replay, fun hmany => ⟨?retrained, ?failed⟩⟩⟩⟩
  all_goals refine congrArg (Obl.dev s) ?_
  case refreshes => exact Dev.refreshDue_refreshes htrained hrank hrun hdue h
  case postpones => exact Dev.refreshDue_postpones htrained hrank hrun hdue hlimit hpanic
  case window => exact Dev.windowClear_over htrained hrank hdue
  case impedance => exact Dev.calibrate_impedance htrained hrank hrun hdue
  case tracking => exact Dev.calibrate_tracking htrained hrank hrun hdue
  case mr4 => exact Dev.mr4Poll_due hot htrained hrun hdue
  case write => exact Dev.schedule_write hactive hrun ((Dev.batchWrite_running hbatch).trans hpick)
  case read =>
    exact Dev.schedule_read hactive hrun (Dev.batchWrite_none hnone) ((Dev.readyRead_noteBatch hcheck).trans hnext)
  case neighbours => exact Dev.neighbourRefresh_runs hqueue hrun hlimit hroom
  case alert => exact Dev.parityAlert_stops hactive hrun
  case again => exact Dev.parityAlert_again hactive hrecover
  case replay => exact Dev.parityReplay_replays hactive hrecover hfew
  case retrained => exact Dev.caRetrain_replays hactive hrecover hmany
  case failed => exact Dev.caRetrain_fails hactive hrecover hmany

end Sys2Proof.Machine
end

section
/-! PROOFS. The commands of DDR.TRAIN_CMD and of RAS.CMD. -/

namespace Sys2Proof.Machine

/-! ### Commands of TRAIN_CMD (R68, R228, R233) -/

section
variable {f : Dev → Option Status × Dev} {d d' : Dev} {c : Nat} (hbusy : d.busy (Dev.ddrA c + 0x118) = false)
include hbusy

theorem Dev.trainCmd_ends {st : Status} (h : f (d.cmdBegin (Dev.ddrA c + 0x118)) = (some st, d')) :
    d.trainCmd c f = d'.cmdEnd (Reg.ddr c) (Dev.ddrA c + 0x118) 1 st := by
  unfold Dev.trainCmd
  rw [if_neg (ne_true_of_eq_false hbusy), h]

theorem Dev.trainCmd_waits (h : f (d.cmdBegin (Dev.ddrA c + 0x118)) = (none, d')) : d.trainCmd c f = d' := by
  unfold Dev.trainCmd
  rw [if_neg (ne_true_of_eq_false hbusy), h]

end

theorem Dev.trainCheck_active {d : Dev} {c : Nat} (h : d.chanActive c = true) :
    d.trainCheck c = (none, d.modChan c fun x => { x with cmdWaits := true }) := if_pos h

theorem Dev.trainCheck_inactive {d : Dev} {c : Nat} (h : ¬ d.chanActive c = true) : d.trainCheck c = (some .stateConflict, d) := if_neg h

/-- The stored results of the channels when those of a channel are saved under the serial number of its DIMM. -/
def State.savedTraining (s : State) (c : Nat) : Tbl (BitVec 32 × List Byte) :=
  match (s.dev.chan c).dimm with
  | some m => Tbl.put c (m.serial, (s.dev.chan c).results) s.nv.training
  | none => s.nv.training

section
variable {s : State} {c : Nat} (hbusy : s.dev.busy (Dev.ddrA c + 0x118) = false)
include hbusy

theorem State.trainSave_active (h : s.dev.chanActive c = true) : s.trainSave c =
    { s with nv := { s.nv with training := s.savedTraining c }
             dev := (s.dev.cmdBegin (Dev.ddrA c + 0x118)).cmdEnd (Reg.ddr c) (Dev.ddrA c + 0x118) 1 .ok } :=
  (if_neg (ne_true_of_eq_false hbusy)).trans (if_pos h)

theorem State.trainSave_inactive (h : s.dev.chanActive c = false) : s.trainSave c =
    { s with dev := (s.dev.cmdBegin (Dev.ddrA c + 0x118)).cmdEnd (Reg.ddr c) (Dev.ddrA c + 0x118) 1 .stateConflict } :=
  (if_neg (ne_true_of_eq_false hbusy)).trans (if_neg (ne_true_of_eq_false h))

end

/-! ### Commands of RAS.CMD (R68, R265) -/

/-- How a command of RAS goes on after its effect: a status ends it. -/
def Dev.rasEnd (h : Half) (r : Option Status × Dev) : Dev :=
  match r.1 with
  | some st => r.2.cmdEnd (Reg.ras h) (Reg.ras h * 4096 + 0x104) 1 st
  | none => r.2

theorem Dev.rasCmd_idle {h : Half} {f : Dev → Option Status × Dev} {d : Dev} {r : Option Status × Dev}
    (hbusy : d.busy (Reg.ras h * 4096 + 0x104) = false) (hf : f (d.cmdBegin (Reg.ras h * 4096 + 0x104)) = r) :
    d.rasCmd h f = Dev.rasEnd h r := by
  subst hf
  unfold Dev.rasCmd Dev.rasEnd
  rw [if_neg (ne_true_of_eq_false hbusy)]
  generalize f (d.cmdBegin (Reg.ras h * 4096 + 0x104)) = r
  obtain ⟨_ | st, e⟩ := r <;> rfl

/-- The next state when the effect of a RAS command has answered. -/
def State.afterRas (s : State) (h : Half) (r : Option Status × Dev) : Host.Outcome State Fault Refusal := Obl.dev s (Dev.rasEnd h r)

/-- A record of the log of a half counts as read. -/
def Dev.markRead (h : Half) (e : LogRec) (d : Dev) : Dev :=
  { d with ras := d.ras.set h { d.ras.at h with log := (d.ras.at h).log.map fun x => if x.seq = e.seq then { x with read := true } else x } }

section
variable {d : Dev} {h : Half}

theorem Dev.rasLogRead_found {e : LogRec} (he : ((d.ras.at h).log.find? fun e => e.seq.toNat == d.rasData h 0) = some e) :
    d.rasLogRead h = (some .ok, (d.markRead h e).setData (Reg.ras h * 4096 + 0x120) 16 e.view.toNat) := by
  unfold Dev.rasLogRead
  dsimp only
  rw [he]
  rfl

theorem Dev.rasLogRead_absent (he : ((d.ras.at h).log.find? fun e => e.seq.toNat == d.rasData h 0) = none) :
    d.rasLogRead h = (some .stateConflict, d) := by
  unfold Dev.rasLogRead
  dsimp only
  rw [he]

/-- A retirement that is accepted is noted, and ends when the frames that it waits for are gone (R258). -/
def Dev.beginRetire (h : Half) (x : Nat × Nat × Bool) (d : Dev) : Dev :=
  ({ d with ras := d.ras.mod h fun r => { r with retire := some x } } : Dev).tryRetire h

section
variable (hown : d.rasChan h = none)
include hown

theorem Dev.markCmd_foreign : d.markCmd h = (some .malformed, d) := by
  unfold Dev.markCmd
  rw [hown]

theorem Dev.retireRow_foreign : d.retireRow h = (some .malformed, d) := by
  unfold Dev.retireRow
  rw [hown]

theorem Dev.retireBank_foreign : d.retireBank h = (some .malformed, d) := by
  unfold Dev.retireBank
  rw [hown]

end

section
variable {c : Nat} (hown : d.rasChan h = some c)
include hown

theorem Dev.markCmd_own : d.markCmd h =
    let v := d.rasData h 0
    if bits v 11 8 > 9 ∨ bits v 6 5 ≥ d.rankCount c then (some .malformed, d)
    else if (Tbl.get ⟨none, 0, 0⟩ (d.chan c).marks (bits v 6 5 * 2 + bits v 7 7)).marked.isSome = true then (some .stateConflict, d)
    else (some .ok, d.markDevice c (bits v 6 5) (bits v 7 7) (bits v 11 8)) := by
  unfold Dev.markCmd
  rw [hown]

theorem Dev.retireRow_own : d.retireRow h =
    let row := d.rasData h 1
    if row ≥ d.tier.rows then (some .malformed, d) else if row ≥ d.tier.mapFirst then (some .stateConflict, d)
    else if (d.chan c).retRows.length ≥ 256 then (some .quota, d) else (none, d.beginRetire h (c, row, false)) := by
  unfold Dev.retireRow
  rw [hown]
  rfl

theorem Dev.retireBank_own : d.retireBank h =
    let v := d.rasData h 0
    if bits v 6 5 ≥ d.rankCount c then (some .malformed, d) else if (d.chan c).retBanks.length ≥ 4 then (some .quota, d)
    else (none, d.beginRetire h (c, bits v 6 5 * 32 + bits v 11 10 * 8 + bits v 9 7, true)) := by
  unfold Dev.retireBank
  rw [hown]
  rfl

end

end

/-- Settles O22: SAVE and CHECK by the state of the channel, LOG_READ by the record it finds, the others by the channel that DATA0 names and then
their conditions in order. -/
theorem trainingAndRasCommandsTakeEffect : Obligations.TrainingAndRasCommandsTakeEffect := by
  refine ⟨fun s c => ?train, fun s c pass hwaits => congrArg (Obl.dev s) (if_pos hwaits), fun s h => ?ras⟩
  case train =>
    intro a hbusy
    refine ⟨fun hactive => congrArg Host.Outcome.next (State.trainSave_active hbusy hactive),
      fun hinactive => congrArg Host.Outcome.next (State.trainSave_inactive hbusy hinactive), congrArg (Obl.dev s) ?_⟩
    split
    next hactive => exact Dev.trainCmd_waits hbusy (Dev.trainCheck_active hactive)
    next hinactive => exact Dev.trainCmd_ends hbusy (Dev.trainCheck_inactive hinactive)
  case ras =>
    intro sts hbusy d r v w c rank ends retires
    have hrun {f : Dev → Option Status × Dev} {y : Option Status × Dev} (hf : f d = y) : Obl.dev s (s.dev.rasCmd h f) = s.afterRas h y :=
      congrArg (Obl.dev s) (Dev.rasCmd_idle hbusy hf)
    refine ⟨fun e he => hrun (Dev.rasLogRead_found he), fun he => hrun (Dev.rasLogRead_absent he), fun hforeign => ?foreign, fun hown => ?own,
      hrun rfl⟩
    case foreign =>
      have hchan : d.rasChan h = none := if_neg hforeign
      exact ⟨hrun (Dev.markCmd_foreign hchan), hrun (Dev.retireRow_foreign hchan), hrun (Dev.retireBank_foreign hchan)⟩
    case own =>
      have hchan : d.rasChan h = some c := if_pos hown
      refine ⟨(hrun (Dev.markCmd_own hchan)).trans ?_, (hrun (Dev.retireRow_own hchan)).trans ?_,
        (hrun (Dev.retireBank_own hchan)).trans ?_⟩
      · exact ite_transport (s.afterRas h) Iff.rfl (fun _ => rfl) fun _ => ite_transport (s.afterRas h) Iff.rfl (fun _ => rfl) fun _ => rfl
      · exact ite_transport (s.afterRas h) Iff.rfl (fun _ => rfl) fun _ => ite_transport (s.afterRas h) Iff.rfl (fun _ => rfl) fun _ =>
          ite_transport (s.afterRas h) Iff.rfl (fun _ => rfl) fun _ => rfl
      · exact ite_transport (s.afterRas h) Iff.rfl (fun _ => rfl) fun _ => ite_transport (s.afterRas h) Iff.rfl (fun _ => rfl) fun _ => rfl

end Sys2Proof.Machine
end

section
/-! PROOFS. What DRAM_READ_DATA finds at each of its sites, and the scrubber. -/

namespace Sys2Proof.Machine

/-! ### A line of DRAM (R242 to R245, R248 to R251) -/

/-- The number of the DRAM line at an address of a channel. -/
def dramKey (c a : Nat) : Nat := memKey c (a % 2 ^ 38) / 64

/-- Whether a reader is to be told of an uncorrectable line. -/
def toldOfLoss : Reader → Bool
  | .host _ _ => true
  | .merge _ _ => true
  | .operation _ => true
  | _ => false

/-- What a read finds is acted on, and a reader that is to be told of an uncorrectable line finds it marked. -/
def Dev.foundFor (k : Nat) (x : Decoded) (reader : Reader) (d : Dev) : Dev :=
  let t := d.found k x reader false
  if x.out = .uncorrectable ∧ toldOfLoss reader = true ∧ (t.mem.bad k = true ∨ t.moving k = true) then
    { t with mem := { t.mem with unc := NSet.insert k t.mem.unc } }
  else t

section
variable {d : Dev} {c a : Nat} (flips : BitVec 640) (hactive : d.chanActive c = true) (hrow : a / 4096 < d.tier.rows)
  (hkept : d.retired (dramKey c a) = false) (hcut : d.readCut c a = false)
include hactive hrow hkept hcut

/-- Nothing discards the read: its line exists and no alert has cut it. -/
theorem Dev.dramRead_counts :
    ¬ (¬ d.chanActive c = true ∨ a / 4096 ≥ d.tier.rows ∨ d.retired (dramKey c a) = true ∨ d.readCut c a = true) := by
  simp [hactive, hrow, hkept, hcut]

theorem Dev.dramData_correction : d.dramData c a flips .correction = d.reread (dramKey c a) flips :=
  if_neg (Dev.dramRead_counts hactive hrow hkept hcut)

theorem Dev.dramData_decoded {reader : Reader} (hreader : reader ≠ .correction) :
    d.dramData c a flips reader = d.foundFor (dramKey c a) (d.decodeLine (dramKey c a) flips) reader := by
  refine (if_neg (Dev.dramRead_counts hactive hrow hkept hcut)).trans ?_
  cases reader with
  | correction => exact absurd rfl hreader
  | host | merge | operation | tag | map | none => rfl

end

/-- The home of a line takes up the reread that it was asked for. -/
def Dev.takeReread (k : Nat) (d : Dev) : Dev :=
  { d with ras := d.ras.mod (halfOfChan (keyChan k)) fun r => { r with rereads := NSet.erase k r.rereads } }

/-- A line that its home has reread: one that still corrects is written back, one in transition is skipped and counted. -/
def Dev.rereadDone (k : Nat) (flips : BitVec 640) (d : Dev) : Dev :=
  let x := d.decodeLine k flips
  if d.moving k then d.bump (Reg.ras (halfOfChan (keyChan k))) 0x070 1
  else match x.out with
    | .corrected => (d.store k x.data).noteWrite k (some x.data)
    | .uncorrectable => d.found k x .none false
    | _ => d

theorem Dev.reread_asked {d : Dev} {k : Nat} (flips : BitVec 640) (hasked : (d.ras.at (halfOfChan (keyChan k))).rereads.contains k = true) :
    d.reread k flips = (d.takeReread k).rereadDone k flips :=
  if_neg (by simpa using hasked)

/-! ### Lines on the mesh (R250) -/

section
variable {d : Dev} {line : LineNo} {flips : List WordFlip} {h : Half} {e : Ext} {syn : List Byte}

theorem Dev.meshError_corrected (write : Bool) (hread : d.meshRead line flips = some (h, e, .corrected, syn)) :
    d.meshError line write flips = Obl.meshRecord h e line syn 1 0 (d.bump (Reg.ras h) 0x040 (syn.filter (· != (0 : Byte))).length) := by
  unfold Dev.meshError
  rw [hread]
  rfl

theorem Dev.meshError_uncorrectable (write : Bool) (hread : d.meshRead line flips = some (h, e, .uncorrectable, syn)) :
    d.meshError line write flips = Obl.meshRecord h e line syn 3 1
      { d with mem := if write then { d.mem with wrBad := NSet.insert line.toNat d.mem.wrBad }
                      else { d.mem with rdBad := NSet.insert line.toNat d.mem.rdBad } } := by
  unfold Dev.meshError
  rw [hread]
  rfl

end

/-! ### Words of the arrays (R250, R254, R255) -/

theorem Dev.coreError_live {d : Dev} {c : Nat} {flip : WordFlip} (hlive : d.coreLive c = true) :
    let d1 := d.logSram (halfOfCore c) (wordFinding flip) (blockOf (Reg.nmc (c / 16)))
    d.coreError c flip = if wordFinding flip = .uncorrectable then
      (d1.failOnCore c).modOpq fun o => { o with refill := if o.refill.contains c then o.refill else o.refill ++ [c] } else d1 :=
  if_neg (by simp [hlive])

theorem Dev.tagError_kept (h : Half) (place : Nat) {flip : WordFlip} (d : Dev) (hfound : wordFinding flip ≠ .uncorrectable) :
    d.tagError h place flip = d.arrayError h 2 (place / 16) (place % 16) 0 (wordFinding flip) := by
  unfold Dev.tagError
  dsimp only
  rw [if_neg hfound]

theorem Dev.tagError_reread {h : Half} {place tag : Nat} {flip : WordFlip} {d : Dev} (hfound : wordFinding flip = .uncorrectable)
    (htag : (d.tier.tags.at h)[place]? = some tag) :
    d.tagError h place flip = (foldN 8 (fun j (d : Dev) => d.noteRead false (Config.tagPlace tag + j)) d).arrayError h 2 (place / 16) (place % 16) 0
      (wordFinding flip) := by
  unfold Dev.tagError
  dsimp only
  rw [if_pos hfound, htag]

/-- What the lost words of a directory entry do: with both copies of word 0 the entry is lost, with word 1 its sharers. -/
def Dev.dirWordsLost (line : Nat) (ent : DirEnt) (first second sharers : WordFlip) (d : Dev) : Dev :=
  if wordFinding first = .uncorrectable ∧ wordFinding second = .uncorrectable then d.dirLost line
  else if wordFinding sharers = .uncorrectable then d.sharersLost line ent
  else d

theorem Dev.dirError_entry {d : Dev} {line : LineNo} {ent : DirEnt} (way : Nat) (first second sharers : WordFlip)
    (hent : d.dirEnt line.toNat = some ent) :
    let h := d.lineHalf line.toNat
    let set := (Config.dirSet line).toNat
    let d1 := d.dirWordsLost line.toNat ent first second sharers
    let d2 := ((d1.arrayError h 0 set way 0 (wordFinding first)).arrayError h 0 set way 1 (wordFinding second)).arrayError h 0 set way 2
      (wordFinding sharers)
    d.dirError line way first second sharers =
      if (d2.ras.at h).waysOff.length = (d1.ras.at h).waysOff.length then d2 else d2.clearDirWay line.toNat := by
  unfold Dev.dirError
  rw [hent]
  rfl

/-! ### The scrubber (R226, R247, R248) -/

/-- A request of a subchannel. -/
def DdrChan.wants (x : DdrChan) (sub : Nat) : Bool := (x.lat ++ x.bulk ++ x.wr).any fun q => bits q.line 6 6 == sub

/-- The number of a subchannel. -/
def subNo (sub : Bool) : Nat := if sub then 1 else 0

/-- The address of RAS.SCRUB_CFG of the half of a channel. -/
def scrubCfg (c : Nat) : Nat := Reg.ras (halfOfChan c) * 4096 + 0x108

/-- The scrubber may read a line of a subchannel: its channel is in service, it is on, no request waits, its pass is not over, and its gap is. -/
structure Dev.ScrubMay (d : Dev) (c : Nat) (sub : Bool) : Prop where
  active : d.chanActive c = true
  on : d.fld (scrubCfg c) 0 0 = 1
  run : (d.chan c).recover = false
  check : (d.chan c).cmdWaits = false
  idle : (d.chan c).wants (subNo sub) = false
  left : (d.chan c).lapSubs.at (Dev.subHalf sub) = false
  gap : (d.chan c).scrubBusy.at (Dev.subHalf sub) + min1 (d.fld (scrubCfg c) 15 8) * 25 ≤ d.now

/-- None of what holds the scrubber back is there. -/
theorem Dev.ScrubMay.not_held {d : Dev} {c : Nat} {sub : Bool} (h : d.ScrubMay c sub) :
    let x := d.chan c
    let mine (l : List ChanReq) : Bool := l.any fun q => bits q.line 6 6 == subNo sub
    ¬ (¬ d.chanActive c = true ∨ d.fld (scrubCfg c) 0 0 = 0 ∨ x.recover = true ∨ x.cmdWaits = true ∨
      mine x.lat = true ∨ mine x.bulk = true ∨ mine x.wr = true ∨ x.lapSubs.at (Dev.subHalf sub) = true ∨
      d.now < x.scrubBusy.at (Dev.subHalf sub) + min1 (d.fld (scrubCfg c) 15 8) * 25) := by
  obtain ⟨hactive, hon, hrun, hcheck, hidle, hleft, hgap⟩ := h
  simp only [DdrChan.wants, List.any_append, Bool.or_eq_false_iff] at hidle
  obtain ⟨⟨hlat, hbulk⟩, hwr⟩ := hidle
  intro x mine
  have hgap' : ¬ d.now < x.scrubBusy.at (Dev.subHalf sub) + min1 (d.fld (scrubCfg c) 15 8) * 25 := Nat.not_lt.mpr hgap
  simp only [hactive, hon, x, mine, hrun, hcheck, hlat, hbulk, hwr, hleft, hgap', not_true, one_ne_zero, Bool.false_eq_true, or_self,
    not_false_iff]

/-- The line that the scrubber reads next. -/
def Dev.scrubNext (d : Dev) (c : Nat) (sub : Bool) : Nat := d.skipRetired c (subNo sub) ((d.chan c).scrubAt.at (Dev.subHalf sub))

/-- The request of a scrubber read. -/
def Dev.scrubReq (d : Dev) (c : Nat) (sub : Bool) : ChanReq := ⟨Dev.scrubAddr (subNo sub) (d.scrubNext c sub), d.now, none⟩

/-- The scrubber has read line i of a subchannel of some lines. -/
def Dev.scrubbed (c : Nat) (sub : Bool) (i total : Nat) (d : Dev) : Dev :=
  d.modChan c fun x => { x with
    scrubAt := x.scrubAt.set (Dev.subHalf sub) (i + 1), scrubBusy := x.scrubBusy.set (Dev.subHalf sub) d.now
    lapSubs := if i + 1 ≥ total then x.lapSubs.set (Dev.subHalf sub) true else x.lapSubs }

/-- A pass ends when both subchannels are done. -/
def Dev.lapChecked (c : Nat) (d : Dev) : Dev :=
  if (d.chan c).lapSubs.west = true ∧ (d.chan c).lapSubs.east = true then d.lapEnd c else d

theorem Dev.scrubRead_reads {d : Dev} {c : Nat} {sub : Bool} (flips : BitVec 640) (hmay : d.ScrubMay c sub)
    (hline : d.scrubNext c sub < d.tier.rows * 32) (hissue : d.issuable c (d.scrubReq c sub) = true)
    (hrefresh : d.now < (d.rank c (rankOf (d.bankOf c (d.scrubReq c sub).line).1)).dueAt) :
    let i := d.scrubNext c sub
    let d1 := (d.issue c (d.scrubReq c sub) false).scrubbed c sub i (d.tier.rows * 32)
    let k := memKey c (Dev.scrubAddr (subNo sub) i) / 64
    d.scrubRead c sub flips = (d1.found k (d1.decodeLine k flips) .none true).lapChecked c := by
  intro i d1 k
  have hwaits : ¬ (i < d.tier.rows * 32 ∧ ((!d.issuable c (d.scrubReq c sub)) = true ∨
      (d.rank c (rankOf (d.bankOf c (d.scrubReq c sub).line).1)).dueAt ≤ d.now)) := by
    simp [hissue, hrefresh]
  refine (if_neg hmay.not_held).trans ((if_neg hwaits).trans ?_)
  unfold Dev.scrubNext subNo at hline
  simp only [if_pos hline]
  rfl

theorem Dev.lapAlarm_late {d : Dev} {c : Nat} (hset : d.fld (scrubCfg c) 31 16 ≠ 0) (hactive : d.chanActive c = true)
    (hfirst : (d.chan c).lapAlarm = false) (hlate : (d.chan c).lapStart + d.fld (scrubCfg c) 31 16 * 3600000000000 < d.now) :
    d.lapAlarm c = (d.modChan c fun x => { x with lapAlarm := true }).cause (Reg.ras (halfOfChan c)) 3 :=
  if_pos ⟨hset, hactive, by simp [hfirst], hlate⟩

/-- Settles O23: a DRAM line by its reader, a line on the mesh by what its words decode to, an entry of an array by what its model function does,
and a scrubber read by its conditions. -/
theorem dramReadsAndScrubTakeEffect : Obligations.DramReadsAndScrubTakeEffect := by
  intro s d
  refine ⟨fun c a flips reader => ?dram, fun line flips h e syn => ?mesh, fun c w flip => ?core, fun c p flip => rfl, fun h set way flip => rfl,
    fun h p flip hfound => ?tagKept, fun h p flip x hfound htag => ?tagReread, fun line way a b w ent hent => ?dir, fun c sub flips => ?scrub,
    fun c => ?alarm⟩
  case dram =>
    intro k hactive hrow hkept hcut x t told
    refine ⟨fun hreader => congrArg (Obl.dev s) ?_, fun hreader hasked => congrArg (Obl.dev s) ?_⟩
    · exact Dev.dramData_decoded flips hactive hrow hkept hcut hreader
    · subst hreader
      exact (Dev.dramData_correction flips hactive hrow hkept hcut).trans (Dev.reread_asked flips hasked)
  case mesh =>
    refine ⟨fun hread => ⟨?_, ?_⟩, fun hread => ⟨?_, ?_⟩⟩ <;> refine congrArg (Obl.dev s) ?_
    · exact Dev.meshError_corrected false hread
    · exact Dev.meshError_corrected true hread
    · exact Dev.meshError_uncorrectable false hread
    · exact Dev.meshError_uncorrectable true hread
  case core => exact fun hlive => congrArg (Obl.dev s) (Dev.coreError_live hlive)
  case tagKept => exact congrArg (Obl.dev s) (Dev.tagError_kept h p.val d hfound)
  case tagReread => exact congrArg (Obl.dev s) (Dev.tagError_reread hfound htag)
  case dir => exact congrArg (Obl.dev s) (Dev.dirError_entry way.val a b w hent)
  case scrub =>
    intro h sn x cfg hactive hon hrun hcheck hidle hleft hgap i q hline hissue hrefresh
    exact congrArg (Obl.dev s) (Dev.scrubRead_reads flips ⟨hactive, hon, hrun, hcheck, hidle, hleft, hgap⟩ hline hissue hrefresh)
  case alarm => exact fun hset hactive hfirst hlate => congrArg (Obl.dev s) (Dev.lapAlarm_late hset hactive hfirst hlate)

end Sys2Proof.Machine
end

section
/-! PROOFS. The steps of the Dawn sequence, and the commands of optical calibration. -/

namespace Sys2Proof.Machine

/-! ### The guard of a step (R570): its event acts at the step, and outside it changes nothing -/

theorem ite_not_of_false {α : Type} {b : Bool} (h : b = false) (x y : α) : (if (!b) = true then x else y) = x := if_pos (by simp [h])

theorem ite_not_of_true {α : Type} {b : Bool} (h : b = true) (x y : α) : (if (!b) = true then x else y) = y := if_neg (by simp [h])

theorem Dev.handoverTimeout_off {d : Dev} (h : d.atStep .handover = false) : d.handoverTimeout = d := if_pos (.inl (by simp [h]))

/-! ### The steps from ROM to ARRAYS (R485, R489, R572, R573, R576) -/

/-- The boot ROM measured, the identity key derived and the chain checked. -/
def Dev.romMeasured (rom chain : Digest) (d : Dev) : Dev :=
  d.modSec fun x => { x with
    measure := Tbl.put 1 rom x.measure, chainOk := chain == Config.chainDigest, idScalar := identityScalar Config.uds
    idPublic := publicKey (identityScalar Config.uds) }

theorem Dev.romStep_at {d : Dev} (h : d.atStep .rom = true) (rom chain : Digest) :
    let e := d.romMeasured rom chain
    d.romStep rom chain = (if (chain == Config.chainDigest) = true then e else e.secLog 10 1 { type := 0, sev := 1, block := 0 }).toStep .verify :=
  ite_not_of_true h _ _

/-- VERIFY goes on with the image of the store, if that is good. -/
def Dev.verifyWith (image : Option Config.Manifest) (d : Dev) : Dev :=
  match image with
  | none => d.imageFail
  | some m => d.verified m

theorem State.imageVerify_at {s : State} (h : s.dev.atStep .verify = true) : s.imageVerify = s.onDev (Dev.verifyWith s.imageInfo) := by
  refine (ite_not_of_true h _ _).trans ?_
  cases s.imageInfo <;> rfl

theorem Dev.powerStep_at {d : Dev} (h : d.atStep .power = true) (west east : Digest) :
    d.powerStep west east = if west = Tbl.get 0 d.sec.measure 2 ∧ east = Tbl.get 0 d.sec.measure 2 then
      (d.modDawn fun w => { w with powered := true }).trainLink.toStep .arrays else d.imageFail :=
  ite_not_of_true h _ _

theorem State.arraysStep_at {s : State} (h : s.dev.atStep .arrays = true) (faults : List ArrayFault) :
    s.arraysStep faults = s.loadCalibration.onDev fun d => (faults.foldl (fun d f => d.wayOff f) d).toStep .selftest :=
  ite_not_of_true h _ _

/-! ### SELFTEST and DDR (R203, R227, R577) -/

/-- The test of a core in wave k: a core of the wave that no fuse marks bad is found, or kept as bad and logged. -/
def Dev.testCore (failed : List CoreFailure) (k : Nat) (d : Dev) (c : Fin 576) : Dev :=
  if c.val / 64 ≠ k ∨ Config.fuseBadCore c = true then d
  else match failed.find? fun f => f.core == c with
    | some f =>
      (d.modDawn fun w => { w with testBad := w.testBad ++ [c.val] }).log (halfOfCore c.val)
        { type := 0x14, sev := 1, block := blockOf (Reg.nmc (c.val / 16)),
          detail := [(40, 2, c.val), (42, 1, c.val / 16), (43, 1, k), (44, 1, f.part.val + 1)] }
    | none => d.setCore c.val { coreReset with found := true }

theorem Dev.selftestWave_at {d : Dev} (h : d.atStep .selftest = true) (failed : List CoreFailure) :
    let k := d.dawn.waves
    let e := ((List.finRange 576).foldl (Dev.testCore failed k) d).modDawn fun w => { w with waves := k + 1 }
    d.selftestWave failed = if k + 1 < 9 then e else if e.untrained = true then e.toStep .ddr else e.logMismatch.toStep .fill :=
  ite_not_of_true h _ _

/-- What training found at a channel. -/
def resultOf (results : List TrainResult) (c : Nat) : Option TrainResult := results.find? fun r => r.ch.val == c

/-- Whether the stored results belong to the DIMMs of all channels. -/
def State.storedFit (s : State) (results : List TrainResult) : Bool :=
  (List.range 24).all fun c => match Tbl.find s.nv.training c, resultOf results c with
    | some t, some r => t.1 == r.dimm.serial
    | _, _ => false

/-- Training of a channel: one that is FAILED stays so. -/
def Dev.trainOne (stored : Nat → Option (List Byte)) (results : List TrainResult) (c : Nat) (d : Dev) : Dev :=
  if d.chanFailed c then d.trainFail c 7 else d.trainChan c (stored c) (resultOf results c)

/-- N is the size of the smallest DIMM. -/
def Dev.takeRows (d : Dev) : Dev :=
  let rows := (List.range 24).filterMap fun c => (d.chan c).dimm.map dimmRows
  let n := rows.foldl min (rows.headD 0)
  { d with tier := { d.tier with rows := n, pinRows := n - n / 2048 } }

theorem State.ddrTraining_at {s : State} (h : s.dev.atStep .ddr = true) (results : List TrainResult) :
    let stored (c : Nat) : Option (List Byte) := if s.storedFit results then (Tbl.find s.nv.training c).map (·.2) else none
    s.ddrTraining results = s.onDev fun d => (foldN 24 (Dev.trainOne stored results) d).takeRows.logMismatch.toStep .fill :=
  ite_not_of_true h _ _

/-! ### FILL and HANDOVER (R579, R582 to R584) -/

theorem Dev.fillStep_at {d : Dev} (h : d.atStep .fill = true) :
    d.fillStep = if d.dawn.failedCh = true ∨ ((List.range 24).any fun c => d.fld (Dev.ddrA c + 0x100) 1 0 != 1) = true then d.stop
      else d.fillMemory.toStep .handover :=
  ite_not_of_true h _ _

/-- A failed round of a core is counted; the third fences it. -/
def Dev.failRound (d : Dev) (c : Nat) : Dev :=
  if (d.core c).found = false ∨ (d.core c).fenced = true then d
  else
    let n := Tbl.get 0 d.dawn.rounds c + 1
    let d := d.modDawn fun w => { w with rounds := Tbl.put c n w.rounds }
    if n < 3 then d
    else (d.setCore c { d.core c with fenced := true }).log (halfOfCore c) { type := 0x19, sev := 2, block := blockOf (Reg.nmc (c / 16)) }

theorem Dev.repairRound_at {d : Dev} (h : d.atStep .fill = true) (failed : List Nat) : d.repairRound failed = failed.foldl Dev.failRound d := by
  refine (ite_not_of_true h _ _).trans (congrArg (fun f => failed.foldl f d) ?_)
  funext d c
  exact ite_transport id (by simp) (fun _ => rfl) fun _ => rfl

/-- The cores mapped: GLB shows their number, and the heartbeat of each counts from now. -/
def Dev.mapCores (d : Dev) : Dev :=
  d.coreMap.foldl (fun d x => d.setCore x.2 { d.core x.2 with beatAt := d.now })
    ((({ d with lmap := d.coreMap } : Dev).setFld 0x104 9 0 d.coreMap.length).modDawn fun w => { w with mapped := true })

theorem Dev.handover_at {d : Dev} (h : d.atStep .handover = true) :
    let e := d.mapCores
    d.handover = if e.ctl.faultAt.isSome = true then
        if (e.cplx e.strapHalf).role = .standby then ((e.modCtl fun c => { c with taken := true }).activate e.strapHalf false).enterService else e
      else e.claim e.strapHalf :=
  ite_not_of_true h _ _

theorem Dev.handoverTimeout_at {d : Dev} (h : d.atStep .handover = true) :
    d.handoverTimeout = if d.now < d.dawn.stepAt + 1000000000 ∨ d.orders = true then d else d.stop.logFirmware d.strapHalf Reg.glb :=
  ite_transport id (by simp [h]) (fun _ => rfl) fun _ => rfl

/-! ### Commands of CAL_CMD (R596, R674) -/

section
variable {f : Dev → Option Status × Dev} {d d' : Dev} (hbusy : d.busy 0x18C = false)
include hbusy

theorem Dev.calCmd_early (hearly : d.dawn.step ≠ .service) : d.calCmd f = (d.cmdBegin 0x18C).cmdEnd Reg.glb 0x18C 2 .stateConflict :=
  (if_neg (ne_true_of_eq_false hbusy)).trans (if_pos hearly)

variable (hservice : d.dawn.step = .service)
include hservice

theorem Dev.calCmd_ends {st : Status} (h : f (d.cmdBegin 0x18C) = (some st, d')) : d.calCmd f = d'.cmdEnd Reg.glb 0x18C 2 st := by
  unfold Dev.calCmd
  rw [if_neg (ne_true_of_eq_false hbusy), if_neg (not_not.mpr hservice), h]

theorem Dev.calCmd_waits (h : f (d.cmdBegin 0x18C) = (none, d')) : d.calCmd f = d' := by
  unfold Dev.calCmd
  rw [if_neg (ne_true_of_eq_false hbusy), if_neg (not_not.mpr hservice), h]

end

section
variable {s : State} (hbusy : s.dev.busy 0x18C = false)
include hbusy

theorem State.optSave_early (hearly : s.dev.dawn.step ≠ .service) :
    s.optSave = { s with dev := (s.dev.cmdBegin 0x18C).cmdEnd Reg.glb 0x18C 2 .stateConflict } :=
  (if_pos (.inr hearly)).trans (congrArg (fun d => { s with dev := d }) (Dev.calCmd_early hbusy hearly))

theorem State.optSave_saves (hservice : s.dev.dawn.step = .service) :
    s.optSave = { s with nv := { s.nv with optical := .saved () }, dev := (s.dev.cmdBegin 0x18C).cmdEnd Reg.glb 0x18C 2 .ok } :=
  (if_neg (by simp [hbusy, hservice])).trans
    (congrArg (fun d => { s with nv := { s.nv with optical := .saved () }, dev := d }) (Dev.calCmd_ends hbusy hservice rfl))

end

/-- Settles O46: the guard of each step, then what the step does; a command of CAL_CMD by the step of the sequence and its own condition. -/
theorem dawnStepsTakeEffect : Obligations.DawnStepsTakeEffect := by
  intro s d failed
  refine ⟨fun h a b => ?rom, fun h => ?verify, fun h a b => ?power, fun h a => ?arrays, fun h a => ?selftest, fun h a => ?ddr,
    fun h a => ⟨?fill, ?repair⟩, fun h => ⟨?handover, ?timeout⟩, fun rom chain h => ?romAt, fun h => ?verifyAt, fun w e h => ?powerAt,
    fun f h => ?arraysAt, fun l h => ?selftestAt, fun l h => ?ddrAt, fun h => ⟨?fillAt, fun l => ?repairAt⟩, fun h => ⟨?handoverAt, ?timeoutAt⟩,
    fun hbusy => ⟨fun hearly e => ?early, fun hservice => ⟨?nop, fun e => ?recal, ?save⟩⟩, ?recalDone⟩
  case rom | power | selftest | fill | repair | handover => exact congrArg (Obl.dev s) (ite_not_of_false h _ _)
  case timeout => exact congrArg (Obl.dev s) (Dev.handoverTimeout_off h)
  case verify | arrays | ddr => exact congrArg Host.Outcome.next (ite_not_of_false h _ _)
  case romAt => exact congrArg (Obl.dev s) (Dev.romStep_at h rom chain)
  case verifyAt =>
    refine (congrArg Host.Outcome.next (State.imageVerify_at h)).trans (congrArg (Obl.dev s) ?_)
    cases s.imageInfo <;> rfl
  case powerAt => exact congrArg (Obl.dev s) (Dev.powerStep_at h w e)
  case arraysAt => exact congrArg Host.Outcome.next (State.arraysStep_at h f)
  case selftestAt => exact congrArg (Obl.dev s) (Dev.selftestWave_at h l)
  case ddrAt => exact congrArg Host.Outcome.next (State.ddrTraining_at h l)
  case fillAt => exact congrArg (Obl.dev s) (Dev.fillStep_at h)
  case repairAt => exact congrArg (Obl.dev s) (Dev.repairRound_at h l)
  case handoverAt => exact congrArg (Obl.dev s) (Dev.handover_at h)
  case timeoutAt =>
    exact (congrArg (Obl.dev s) (Dev.handoverTimeout_at h)).trans (ite_transport (Obl.dev s) Iff.rfl (fun _ => rfl) fun _ => rfl)
  case early =>
    simp only [List.forall_mem_cons, List.not_mem_nil, false_implies, implies_true, and_true]
    exact ⟨congrArg (Obl.dev s) (Dev.calCmd_early hbusy hearly), congrArg (Obl.dev s) (Dev.calCmd_early hbusy hearly),
      congrArg Host.Outcome.next (State.optSave_early hbusy hearly)⟩
  case nop => exact congrArg (Obl.dev s) (Dev.calCmd_ends hbusy hservice rfl)
  case recal =>
    refine congrArg (Obl.dev s) ?_
    split
    next henabled => exact Dev.calCmd_ends hbusy hservice (if_pos henabled)
    next hfree => exact Dev.calCmd_waits hbusy hservice (if_neg hfree)
  case save => exact congrArg Host.Outcome.next (State.optSave_saves hbusy hservice)
  case recalDone => exact ite_transport (Obl.dev s) Iff.rfl (fun _ => rfl) fun _ => rfl

end Sys2Proof.Machine
end

section
/-! PROOFS. The events of the operation front end: contexts, descriptors, starts, units, budgets, completion records, resets and refills. -/

namespace Sys2Proof.Machine

/-! ### CONTEXT_RELOAD (R275, R276) -/

/-- The answer of the home that holds a spilled context: the queue is restored from it, or is LOST. -/
def Dev.contextRead (qid : QueueId) : Option (Status × List Byte) × Dev → Dev
  | (none, d) => d
  | (some (.ok, b), d) =>
    (((d.modQueue qid fun q => { Dev.ofSpill b q with onChip := true, usedAt := d.opq.lastUse + 1 }).modOpq fun o =>
      { o with lastUse := o.lastUse + 1 }).bump Reg.opq 0x068 1).reloaded qid
  | (some _, d) => (d.loseQueue qid).reloaded qid

/-- With room on chip, the context of a queue is read from the spill area of its partition. -/
def Dev.loadContext (qid : QueueId) (q : Queue) : Bool × Dev → Dev
  | (false, d) => d
  | (true, d) =>
    match d.spillOff q with
    | none => (d.loseQueue qid).reloaded qid
    | some off => Dev.contextRead qid (d.engLocal (.front qid.toNat 4) q.part off .read)

section
variable {d : Dev} {qid : QueueId} (hload : d.opq.loading.contains qid = true)
include hload

theorem Dev.contextReload_absent (hq : d.queue? qid = none) : d.contextReload qid = d.reloaded qid := by
  refine (ite_not_of_true hload _ _).trans ?_
  rw [hq]

variable {q : Queue} (hq : d.queue? qid = some q)
include hq

theorem Dev.contextReload_onChip (hchip : q.onChip = true) : d.contextReload qid = d.reloaded qid := by
  refine (ite_not_of_true hload _ _).trans ?_
  rw [hq]
  exact if_pos hchip

variable (hoff : q.onChip = false)
include hoff

theorem Dev.contextReload_spills (hspill : d.opq.spills.contains qid = true) : d.contextReload qid = (d.spillQueue qid q).2 := by
  refine (ite_not_of_true hload _ _).trans ?_
  rw [hq]
  exact (if_neg (by simp [hoff])).trans (if_pos hspill)

theorem Dev.contextReload_loads (hspill : d.opq.spills.contains qid = false) :
    d.contextReload qid = Dev.loadContext qid q (d.makeRoom q.half qid) := by
  refine (ite_not_of_true hload _ _).trans ?_
  rw [hq]
  exact (if_neg (by simp [hoff])).trans (if_neg (ne_true_of_eq_false hspill))

end

/-! ### DESCRIPTOR_FETCH (R271, R281, R297) -/

/-- SQ_HEAD moves past a descriptor that was read: it completes CANCELLED in a reset, and else is counted and checked, or refused when it could not
be read. -/
def Dev.descriptorRead (qid : QueueId) (q : Queue) (r : Except Status (List Byte)) (d : Dev) : Dev :=
  let mark := if q.drainMark = some q.sqHead then none else q.drainMark
  let above := q.state == .draining && mark.isNone
  let e := d.modQueue qid fun x => { x with sqHead := q.sqHead + 1, drainMark := mark }
  match r with
  | .error st =>
    if q.state = .resetting then (e.endMembers qid [⟨q.sqHead, [], [], [], [], above, none⟩] false fun _ => .cancelled).resetCheck qid
    else e.takeMember qid ⟨q.sqHead, [], [], [], [], above, some st⟩
  | .ok b =>
    if q.state = .resetting then
      ((e.bump Reg.opq 0x040 1).endMembers qid [⟨q.sqHead, b, [], [], [], above, none⟩] false fun _ => .cancelled).resetCheck qid
    else ((e.bump Reg.opq 0x040 1).modQueue qid fun x => { x with fetched := b, trace := [], fetch := none }).checkOn qid

section
variable {d : Dev} {qid : QueueId} {q : Queue} (hq : d.queue? qid = some q) (hlive : q.state ≠ .lost)
include hq hlive

theorem Dev.descriptorFetch_offChip (hoff : q.onChip = false) (hload : d.opq.loading.contains qid = false) (hmore : q.sqHead ≠ q.sqTail) :
    d.descriptorFetch qid = d.modOpq fun o => { o with loading := o.loading ++ [qid] } := by
  unfold Dev.descriptorFetch
  rw [hq]
  exact (if_neg hlive).trans ((ite_not_of_false hoff _ _).trans (if_neg (not_or.mpr ⟨ne_true_of_eq_false hload, hmore⟩)))

variable (hchip : q.onChip = true)
include hchip

theorem Dev.descriptorFetch_checks (hfetched : q.fetched ≠ []) : d.descriptorFetch qid = d.checkOn qid := by
  unfold Dev.descriptorFetch
  rw [hq]
  exact (if_neg hlive).trans ((ite_not_of_true hchip _ _).trans (ite_not_of_false (List.isEmpty_eq_false_iff.mpr hfetched) _ _))

theorem Dev.descriptorFetch_reads (hnone : q.fetched = []) (hmore : q.sqHead ≠ if q.state = .resetting then q.resetMark else q.sqTail)
    (hfence : q.state = .resetting ∨ d.fenceOpen qid = false) {r : Except Status (List Byte)} {d1 : Dev}
    (hread : Dev.readDesc qid q q.sqHead d = (some r, d1)) : d.descriptorFetch qid = Dev.descriptorRead qid q r d1 := by
  have hopen : ¬ (q.state ≠ .resetting ∧ d.fenceOpen qid = true) := by simpa [or_iff_not_imp_left] using hfence
  unfold Dev.descriptorFetch
  rw [hq]
  refine (if_neg hlive).trans ((ite_not_of_true hchip _ _).trans ((ite_not_of_true (List.isEmpty_iff.mpr hnone) _ _).trans
    ((if_neg (not_or.mpr ⟨hmore, hopen⟩)).trans ?_)))
  rw [hread]
  cases r <;> rfl

end

/-! ### OPERATION_START, UNIT_TAKE and TIME_BUDGET_EXPIRY (R283 to R287, R383) -/

/-- An operation of a queue starts: the round robin has served the queue once more, and the first tiles of each stream are to be walked. -/
def Dev.started (id : Nat) (o : Op) (p : Part) (q : Queue) (d : Dev) : Dev :=
  let left := if p.rrQueue = o.queue.toNat ∧ p.rrLeft > 0 then p.rrLeft - 1 else q.weight - 1
  (d.modPart o.part fun p => { p with rrQueue := o.queue.toNat, rrLeft := left }).modOp id fun o =>
    { o with state := .running, startAt := d.now, late := o.late || o.waitsPast d.gtc.count.toNat,
             streams := o.streams.map fun s => { s with wanted := min s.count (if s.depth = 0 then 4 else s.depth) } }

section
variable {d : Dev} {id : Nat} {o : Op} {p : Part} (ho : d.op? id = some o) (hp : d.part? o.part = some p)
include ho

theorem Dev.launchReached_launch (hlaunch : o.launch.isSome = true) : d.launchReached id = d.operationStart id := by
  unfold Dev.launchReached
  rw [ho]
  exact if_pos hlaunch

theorem Dev.budgetExpiry_over (hstarted : o.state ≠ .armed) (hfence : (o.members.any fun m => Desc.op m.desc == 0x30) = false)
    (hdue : o.startAt + o.budget * 1000 ≤ d.now) : d.budgetExpiry id = d.endAll id .timeout := by
  unfold Dev.budgetExpiry
  rw [ho]
  exact if_pos ⟨hstarted, by rw [hfence]; rfl, hdue⟩

include hp

theorem Dev.operationStart_next {q : Queue} (hq : d.queue? o.queue = some q) (hstart : d.canStart o = true)
    (hnext : d.nextQueue p o.part = some o.queue) : d.operationStart id = d.started id o p q := by
  unfold Dev.operationStart
  rw [ho]
  dsimp only
  rw [hp, hq]
  exact if_neg (by simp [hstart, hnext])

/-- The cap of an operation on its cores, 0 for none. -/
def Op.coreCap (o : Op) : Nat :=
  match o.members.head? with
  | some m => Desc.u16 m.desc 4
  | none => 0

/-- Whether an operation may use a core of its partition: one that it has used, or one more within its cap. -/
def Op.CapAllows (o : Op) (p : Part) (c : Fin 512) : Prop :=
  let live := o.cores.filter fun x => p.cores.contains x
  o.coreCap = 0 ∨ live.contains c = true ∨ live.length < o.coreCap

theorem Dev.unitTake_takes {c : Fin 512} {ph u : Nat} (hph : d.phys c.val = some ph) (hu : o.nextUnit = some u) (hrunning : o.state = .running)
    (hunits : o.unitRun = true) (hcore : p.cores.contains c = true) (hruns : d.coreRuns ph = true) (hcap : o.CapAllows p c)
    (hpass : o.passReady u = true) (hslots : (d.coreUse c).2 < 32)
    (hsram : (d.coreUse c).1 + min 458752 (Desc.needAll (o.run.map fun m => m.desc) o.shapes) ≤ 458752) :
    d.unitTake id c = d.modOp id fun o =>
      { o with cores := if o.cores.contains c then o.cores else o.cores ++ [c], units := Tbl.put u ⟨c, .compute, 0, [], none, [], [], [], [], false⟩ o.units } := by
  have hroom : (o.coreCap == 0 || (o.cores.filter fun x => p.cores.contains x).contains c ||
      decide ((o.cores.filter fun x => p.cores.contains x).length < o.coreCap)) = true := by
    rw [Bool.or_eq_true, Bool.or_eq_true, beq_iff_eq, decide_eq_true_iff, or_assoc]
    exact hcap
  unfold Dev.unitTake
  rw [ho]
  dsimp only
  rw [hp, hph, hu]
  exact if_pos ⟨hrunning, hunits, hcore, hruns, hroom, hpass, hslots, hsram⟩

end

/-! ### COMPLETION_RECORD_WRITE and HEAD_LINE_POLL (R293 to R295) -/

/-- The place of the next record of a queue in its CQ. -/
def Dev.recordOff (q : Queue) : Nat := q.cqBase + 32 * (q.cqTail.toNat % 2 ^ q.sizeLog2)

/-- The write of a record into its half of the line. -/
def Dev.recordWriteOf (q : Queue) (h : Held) : EngKind :=
  .merge (lineOf (if Dev.recordOff q % 64 ≥ 32 then List.replicate 32 0 ++ Dev.recordBytes q h else Dev.recordBytes q h ++ List.replicate 32 0))
    (if Dev.recordOff q % 64 ≥ 32 then 0xFFFFFFFF00000000 else 0x00000000FFFFFFFF)

/-- A record stands in the CQ: CQ_TAIL moves on, and a failure is counted for the next FENCE. -/
def Dev.recordStands (qid : QueueId) (h : Held) (l : List Held) (n : Nat) (d : Dev) : Dev :=
  (d.bump Reg.opq 0x048 1).modQueue qid fun q =>
    { q with held := l, cqTail := q.cqTail + 1, lap := if (q.cqTail.toNat + 1) % n = 0 then !q.lap else q.lap,
             failures := if h.status ≠ .ok ∧ h.counts = true then q.failures + 1 else q.failures }

/-- The write of a record has failed: the record is dropped and logged, and the queue stops. -/
def Dev.recordDropped (qid : QueueId) (q : Queue) (l : List Held) (st : Status) (d : Dev) : Dev :=
  ((d.bump Reg.opq 0x050 1).modQueue qid fun q =>
      { q with held := l, dropped := satAdd q.dropped 1, state := if q.state = .resetting then .resetting else .stopped }).log q.half
    { type := 0x0A, sev := 1, block := blockOf Reg.opq, part := some q.part, node := some d.nodeId, status := st.code.toNat,
      addr := d.fabAddr (Dev.recordOff q / 64 * 64), detail := [(40, 1, 8), (42, 2, qid.toNat)] }

/-- What follows a record that was written or dropped: the interrupt of the queue, and the end of a drain or a reset. -/
def Dev.recordEnded (qid : QueueId) (q : Queue) (d : Dev) : Dev :=
  let e := d.modQueue qid fun q => Dev.noteFull d.now q
  ((if q.vecEn then e.arriveVec q.vec.toNat else e).drainCheck qid).resetCheck qid

/-- A CQ_HEAD that was read is taken when it is good. -/
def Dev.headRead (qid : QueueId) (q : Queue) (st : Status) (data : List Byte) (d : Dev) : Dev :=
  let v : BitVec 16 := BitVec.ofNat 16 (leAt data 0 2)
  d.modQueue qid fun r =>
    let r := { r with cqHead := if st = Status.ok ∧ (q.cqTail - v).toNat ≤ 2 ^ q.sizeLog2 then v else r.cqHead }
    Dev.noteFull d.now { r with polledAt := if Dev.cqFull r then d.now + 1000 else 0 }

section
variable {d d1 : Dev} {qid : QueueId} {q : Queue} {st : Status} {data : List Byte} (hq : d.queue? qid = some q)
include hq

theorem Dev.recordWrite_answered {h : Held} {l : List Held} (hheld : q.held = h :: l) (hroom : Dev.cqFull q = false) (hchip : q.onChip = true)
    (hwrites : d.inFlight h.writes = false)
    (hwrite : d.engLocal (.front qid.toNat 2) q.part (Dev.recordOff q) (Dev.recordWriteOf q h) = (some (st, data), d1)) :
    d.recordWrite qid = Dev.recordEnded qid q
      (if st = .ok then d1.recordStands qid h l (2 ^ q.sizeLog2) else d1.recordDropped qid q l st) := by
  unfold Dev.recordWrite
  rw [hq]
  dsimp only
  rw [hheld]
  dsimp only
  refine (if_neg (by simp [hroom, hchip, hwrites])).trans ?_
  unfold Dev.recordWriteOf Dev.recordOff at hwrite
  rw [hwrite]
  rfl

theorem Dev.headPoll_answered (hfull : Dev.cqFull q = true) (hchip : q.onChip = true) (hdue : q.polledAt ≤ d.now)
    (hread : d.engLocal (.front qid.toNat 3) q.part q.headLine .read = (some (st, data), d1)) :
    d.headPoll qid = Dev.headRead qid q st data d1 := by
  unfold Dev.headPoll
  rw [hq]
  dsimp only
  refine (if_neg (by simp [hfull, hchip, hdue])).trans ?_
  rw [hread]
  rfl

/-! ### RESET_RECORD_TIMEOUT and QUEUE_STALL (R297, R298) -/

theorem Dev.resetTimeout_over (hreset : q.state = .resetting) (hdue : q.resetAt + 1000000 ≤ d.now) (hfull : Dev.cqFull q = true) :
    d.resetTimeout qid = ((d.bump Reg.opq 0x050 q.held.length).modQueue qid fun q =>
      { q with dropped := satAdd q.dropped q.held.length, held := [], fullSince := none }).resetCheck qid := by
  unfold Dev.resetTimeout
  rw [hq]
  exact if_pos ⟨hreset, hdue, hfull⟩

theorem Dev.queueStall_over {t : Nat} (hsince : q.fullSince = some t) (hdue : t + 50000000 ≤ d.now) (hheld : q.held ≠ [])
    (hfull : Dev.cqFull q = true) (hreset : q.state ≠ .resetting) (hlive : q.state ≠ .lost) :
    d.queueStall qid = (((d.bump Reg.opq 0x070 1).cause Reg.opq 3).logPolicy q.half 5 0 qid.toNat q.part none .ok).resetQueue qid .stall := by
  unfold Dev.queueStall
  rw [hq]
  dsimp only
  rw [hsince]
  exact if_pos ⟨hdue, by simp [hheld], hfull, hreset, hlive⟩

end

/-! ### CORE_REFILL_DONE (R246, R303) -/

/-- The mover still writes for a unit on a core. -/
def Dev.moverWrites (c : Nat) (d : Dev) : Bool :=
  d.opq.ops.any fun o => o.units.any fun u => u.2.phase == .writing && d.phys u.2.core.val == some c

/-- CORE_RELEASE waits for the refill of a core. -/
def Dev.coreLeaves (c : Nat) (d : Dev) : Bool :=
  match d.opq.leaves with
  | some l => l.contains c
  | none => false

theorem Dev.coreLeaves_eq_false {c : Nat} {d : Dev} (h : ∀ l, d.opq.leaves = some l → l.contains c = false) : d.coreLeaves c = false := by
  unfold Dev.coreLeaves
  split
  next l hl => exact h l hl
  next => rfl

/-- The SRAM of the physical core of a logical core has been refilled. -/
def Dev.refilled (d : Dev) (x : Fin 512) : Bool :=
  match d.phys x.val with
  | some y => !d.opq.refill.contains y
  | none => true

theorem Dev.refilled_eq_all (d : Dev) : d.refilled = fun x => (d.phys x.val).all fun y => !d.opq.refill.contains y := by
  funext x
  unfold Dev.refilled
  cases d.phys x.val <;> rfl

/-- CORE_ASSIGN ends with the refill of its last core. -/
def Dev.joinsEnd (d : Dev) : Dev :=
  match d.opq.joins with
  | some (p, l) =>
    if l.all d.refilled = true then
      ((d.modPart p fun x => { x with cores := (List.finRange 512).filter fun k => x.cores.contains k || l.contains k }).modOpq fun o =>
        { o with joins := none }).cmdEnd Reg.opq 0x7104 1 .ok
    else d
  | none => d

/-- CORE_RELEASE ends with the refill of its last core. -/
def Dev.leavesEnd (d : Dev) : Dev :=
  match d.opq.leaves with
  | some l =>
    if (l.all fun x => !d.opq.refill.contains x) = true then (d.modOpq fun o => { o with leaves := none }).cmdEnd Reg.opq 0x7104 1 .ok else d
  | none => d

theorem Dev.coreRefilled_ends {c : Nat} {d : Dev} (hrefill : d.opq.refill.contains c = true)
    (hwritten : d.moverWrites c = false ∨ ∀ l, d.opq.leaves = some l → l.contains c = false) :
    d.coreRefilled c = (d.modOpq fun o => { o with refill := o.refill.filter fun x => x != c }).joinsEnd.leavesEnd.partResetCheck := by
  have hmay : ¬ ((!d.opq.refill.contains c) = true ∨ (d.moverWrites c && d.coreLeaves c) = true) := by
    rw [hrefill]
    rcases hwritten with h | h
    · simp [h]
    · simp [Dev.coreLeaves_eq_false h]
  exact if_neg hmay

/-- Settles O27: each event by its lemma; the context of CONTEXT_RELOAD by the answer of its home, and the commands that wait for a refill in turn. -/
theorem opqEventsTakeEffect : Obligations.OpqEventsTakeEffect := by
  intro s qid
  refine ⟨fun hload => ⟨fun hthere => ?there, fun q hq hoff => ⟨fun hspill => ?spills, fun hspill => ⟨fun d1 hroom => ?noRoom, fun d1 hroom harea => ?noArea,
      fun d1 off r d2 hroom harea hread => ?reads⟩⟩⟩,
    fun q hq hlive => ⟨fun hoff hload hmore => ?fetchOffChip, fun hchip hfetched => ?fetchChecks,
      fun r d1 hchip hnone hmore hfence hread => ?fetchReads⟩,
    fun id o p q ho hp hq hstart hnext => ⟨?start, fun hlaunch => ?launch⟩,
    fun id c o p ph u ho hp hph hu hrunning hunits hcore hruns hcap hpass hslots hsram => ?take,
    fun id o ho hstarted hfence hdue => ?budget,
    fun q h l st data d1 hq hheld hroom hchip hwrites hwrite => ?record,
    fun q st data d1 hq hfull hchip hdue hread => ?poll,
    fun q hq hreset hdue hfull => ?resetTimeout,
    fun q t hq hsince hdue hheld hfull hreset hlive => ?stall,
    fun c hrefill hwritten => ?refill⟩
  all_goals refine congrArg (Obl.dev s) ?_
  case there =>
    rcases hthere with hq | ⟨q, hq, hchip⟩
    · exact Dev.contextReload_absent hload hq
    · exact Dev.contextReload_onChip hload hq hchip
  case spills => exact Dev.contextReload_spills hload hq hoff hspill
  case noRoom =>
    rw [Dev.contextReload_loads hload hq hoff hspill, hroom]
    rfl
  case noArea => rw [Dev.contextReload_loads hload hq hoff hspill, hroom, Dev.loadContext, harea]
  case reads =>
    rw [Dev.contextReload_loads hload hq hoff hspill, hroom, Dev.loadContext, harea]
    dsimp only
    rw [hread]
    rcases r with _ | ⟨st, b⟩
    · rfl
    · cases st <;> rfl
  case fetchOffChip => exact Dev.descriptorFetch_offChip hq hlive hoff hload hmore
  case fetchChecks => exact Dev.descriptorFetch_checks hq hlive hchip hfetched
  case fetchReads => exact (Dev.descriptorFetch_reads hq hlive hchip hnone hmore hfence hread).trans (by cases r <;> rfl)
  case start => exact Dev.operationStart_next ho hp hq hstart hnext
  case launch => exact (Dev.launchReached_launch ho hlaunch).trans (Dev.operationStart_next ho hp hq hstart hnext)
  case take => exact Dev.unitTake_takes ho hp hph hu hrunning hunits hcore hruns hcap hpass hslots hsram
  case budget => exact Dev.budgetExpiry_over ho hstarted hfence hdue
  case record => exact Dev.recordWrite_answered hq hheld hroom hchip hwrites hwrite
  case poll => exact Dev.headPoll_answered hq hfull hchip hdue hread
  case resetTimeout => exact Dev.resetTimeout_over hq hreset hdue hfull
  case stall => exact Dev.queueStall_over hq hsince hdue hheld hfull hreset hlive
  case refill =>
    refine (Dev.coreRefilled_ends hrefill hwritten).trans ?_
    unfold Dev.leavesEnd Dev.joinsEnd
    rewrite [Dev.refilled_eq_all]
    rfl

end Sys2Proof.Machine
end

section
/-! PROOFS. Interrupts, vectors, heartbeats, fetch traps and reloads of the cores, the island watchdog and the register timeout. -/

namespace Sys2Proof.Machine

/-! ### Vectors and DELIVER (R550 to R552) -/

theorem Dev.arriveVec_sends {d : Dev} {v : Nat} (hmask : (d.vec v).mask = false) (hleave : d.msiMayLeave = true) :
    d.arriveVec v = d.sendVec v := if_pos ⟨hmask, hleave⟩

theorem Dev.arriveVec_pends {d : Dev} {v : Nat} (h : (d.vec v).mask = true ∨ d.msiMayLeave = false) :
    d.arriveVec v = (d.bump Reg.irq 0x058 1).setVec v { d.vec v with pend := true, cnt := satAdd (d.vec v).cnt 1 } :=
  if_neg (not_and_or.mpr (h.imp ne_false_of_eq_true ne_true_of_eq_false))

/-- Every core is offered what is pending, and then the unmasked pending vectors are sent. -/
def Dev.deliverPending (d : Dev) : Dev :=
  let f := foldN 4 (fun c d => (d.irqOffer .west c).irqOffer .east c) d
  f.irq.vectors.foldl (fun d x => if x.2.pend && !x.2.mask && d.msiMayLeave then d.sendVec x.1 else d) f

theorem Dev.writeDeliver_eq (v : Word32) (d : Dev) : d.writeDeliver v =
    if d.fld 0x5100 0 0 = 1 ∨ v.getLsbD 0 = false then d.setReg 0x5100 (v &&& 1) else (d.setReg 0x5100 (v &&& 1)).deliverPending := by
  unfold Dev.writeDeliver Dev.deliverPending
  exact if_congr (or_congr Iff.rfl (not_iff_false _)) rfl rfl

/-! ### Cores (R252, R556) -/

/-- The unit of an operation that is in its compute phase on a core fails the operation. -/
def Dev.failUnitOn (k : Fin 512) (d : Dev) (o : Op) : Dev :=
  match o.units.find? fun x => x.2.core == k && x.2.phase != UnitPhase.writing with
  | some x => d.failUnit o.id x.2.member x.1 .uncorrectable
  | none => d

section
variable {d : Dev} {c : Nat}

theorem Dev.failOnCore_unmapped (h : d.logicalOf c = none) : d.failOnCore c = d := by
  unfold Dev.failOnCore
  rw [h]

theorem Dev.failOnCore_mapped {k : Fin 512} (h : d.logicalOf c = some k) : d.failOnCore c = d.opq.ops.foldl (Dev.failUnitOn k) d := by
  unfold Dev.failOnCore
  rw [h]
  rfl

theorem Dev.heartbeat_dead (hdead : d.coreLive c = false) : d.heartbeat c = d := if_neg (ne_true_of_eq_false hdead)

theorem Dev.heartbeatTimeout_dead (hdead : d.coreLive c = false) : d.heartbeatTimeout c = d := if_pos (.inl (by simp [hdead]))

theorem Dev.fetchTrap_dead (hdead : d.coreLive c = false) : d.fetchTrap c = d := ite_not_of_false hdead _ _

variable (hlive : d.coreLive c = true)
include hlive

theorem Dev.heartbeat_live : d.heartbeat c = d.setCore c { d.core c with beatAt := d.now } := if_pos hlive

theorem Dev.heartbeatTimeout_live : d.heartbeatTimeout c =
    if d.orders = false ∨ d.now < max (d.core c).beatAt (d.dom (c / 16)).at_ + 10000000 then d
    else ((d.bump Reg.ctl 0x058 1).bump (Reg.nmc (c / 16)) 0x058 1).resetCore c :=
  ite_transport id (by simp [hlive]) (fun _ => rfl) fun _ => rfl

theorem Dev.fetchTrap_live : d.fetchTrap c =
    ((((d.bump (Reg.nmc (c / 16)) 0x050 1).cause (Reg.nmc (c / 16)) 1).log (halfOfCore c)
      { type := 0x07, sev := 2, block := blockOf (Reg.nmc (c / 16)) }).failOnCore c).resetCore c :=
  ite_not_of_true hlive _ _

end

/-! ### The register timeout (R557) -/

theorem Dev.readTimeout_none {d : Dev} (h : d.cmp.reads = []) : d.readTimeout = d := by
  unfold Dev.readTimeout
  rw [h]

theorem Dev.readTimeout_waits {d : Dev} {r : RegRead} {l : List RegRead} (h : d.cmp.reads = r :: l) : d.readTimeout =
    if d.now < r.time + 50000 then d
    else ((({ d with cmp := { d.cmp with reads := l } }).bump Reg.ctl 0x070 1).bump Reg.cmp 0x050 1).emit (.reg .companion .timeout 0xFFFFFFFF) := by
  unfold Dev.readTimeout
  rw [h]

/-- Settles O44: arrivals, ends and writes of the vectors as the controllers take them; an event of a core by whether it is live; a watchdog or
timeout by its time. -/
theorem interruptsAndCoresTakeEffect : Obligations.InterruptsAndCoresTakeEffect := by
  intro s h d
  refine ⟨fun src => rfl, fun c src => rfl, fun v => ⟨fun hmask hleave => ?sends, fun hstays => ?pends⟩, fun path v => ⟨rfl, ?deliver⟩,
    fun c => ⟨fun hdead => ?dead, fun hlive => ⟨?beat, ?beatTimeout, ?trap⟩, ?reloaded⟩, ?island, ?readTimeout⟩
  case sends => exact congrArg (Obl.dev s) (Dev.arriveVec_sends hmask hleave)
  case pends => exact congrArg (Obl.dev s) (Dev.arriveVec_pends hstays)
  case deliver => exact congrArg (fun f => Obl.dev s (d.accept path Reg.irq 0x100 f)) (funext fun e => Dev.writeDeliver_eq v e)
  case dead =>
    simp only [List.forall_mem_cons, List.not_mem_nil, false_implies, implies_true, and_true]
    exact ⟨congrArg (Obl.dev s) (Dev.heartbeat_dead hdead), congrArg (Obl.dev s) (Dev.heartbeatTimeout_dead hdead),
      congrArg (Obl.dev s) (Dev.fetchTrap_dead hdead)⟩
  case beat => exact congrArg (Obl.dev s) (Dev.heartbeat_live hlive)
  case beatTimeout =>
    exact (congrArg (Obl.dev s) (Dev.heartbeatTimeout_live hlive)).trans (apply_ite _ _ _ _)
  case trap =>
    refine congrArg (Obl.dev s) ((Dev.fetchTrap_live hlive).trans (congrArg (Dev.resetCore c.val) ?_))
    split
    next hnone => exact Dev.failOnCore_unmapped hnone
    next k hsome => exact Dev.failOnCore_mapped hsome
  case reloaded => exact ite_transport (Obl.dev s) Iff.rfl (fun _ => rfl) fun _ => rfl
  case island => exact ite_transport (Obl.dev s) (or_congr Iff.rfl (not_iff_false _)) (fun _ => rfl) fun _ => rfl
  case readTimeout =>
    split
    next hnone => exact congrArg (Obl.dev s) (Dev.readTimeout_none hnone)
    next r l hreads => exact (congrArg (Obl.dev s) (Dev.readTimeout_waits hreads)).trans (apply_ite _ _ _ _)

end Sys2Proof.Machine
end

section
/-! PROOFS. The commands of OPQ on queues, partitions and cores. -/

namespace Sys2Proof.Machine

/-! ### Commands of OPQ (R68, R275, R303) -/

/-- How a command of OPQ goes on after its effect: a status ends it, and without one it waits. -/
def Dev.opqEnd (r : Option Status × Dev) : Dev :=
  match r.1 with
  | some st => r.2.cmdEnd Reg.opq 0x7104 1 st
  | none => r.2

theorem Dev.opqCmd_idle (f : Dev → Option Status × Dev) (d : Dev) (h : d.busy 0x7104 = false) :
    d.opqCmd f = Dev.opqEnd (f (d.cmdBegin 0x7104)) := by
  unfold Dev.opqCmd Dev.opqEnd
  rw [h]
  rfl

/-- The next state when the effect of a command of OPQ has answered. -/
def State.afterOpq (s : State) (r : Option Status × Dev) : Host.Outcome State Fault Refusal := Obl.dev s (Dev.opqEnd r)

theorem State.opqCmd_idle {s : State} {f : Dev → Option Status × Dev} {r : Option Status × Dev} (hidle : s.dev.busy 0x7104 = false)
    (hf : f (s.dev.cmdBegin 0x7104) = r) : next (s.onDev (Dev.opqCmd f)) = s.afterOpq r :=
  congrArg (Obl.dev s) ((Dev.opqCmd_idle f s.dev hidle).trans (congrArg Dev.opqEnd hf))

theorem State.afterOpq_waits (s : State) (d : Dev) : s.afterOpq (none, d) = Obl.dev s d := rfl

/-! ### Commands on a queue (R275, R296, R297, R303) -/

/-- A command waits for the context of its queue, which is being loaded (R275). -/
def Dev.awaitContext (code : Nat) (qid : QueueId) (part : PartId) (x : Nat) (d : Dev) : Dev :=
  d.modOpq fun o => { o with waitCmd := some (code, qid, part, x),
                             loading := if o.loading.contains qid then o.loading else o.loading ++ [qid] }

/-- A queue is freed: its fetch and its operations are forgotten, and the doorbells that it held back are tried again. -/
def Dev.freeQueue (qid : QueueId) (q : Queue) (d : Dev) : Dev :=
  (((d.opsOf qid).foldl (fun d o => d.dropOp o.id) (q.fetch.elim d fun a => d.dropAcc a)).modOpq fun o =>
    { o with queues := Tbl.drop qid.toNat o.queues }).tryBells

/-- To forget an access takes no operation away. -/
theorem Dev.opsOf_dropAcc (a : Nat) (qid : QueueId) (d : Dev) : (d.dropAcc a).opsOf qid = d.opsOf qid := rfl

/-- Q_ENABLE looks up the partition of its queue before the command goes to the queue (R499). -/
def Dev.qEnableCmd (qid : QueueId) (d : Dev) : Option Status × Dev :=
  match d.queue? qid with
  | some q => d.unlessConf q.part fun d => d.onQueue 4 qid 0
  | none => (some .stateConflict, d)

section
variable {d : Dev} {qid : QueueId}

section
variable (hq : d.queue? qid = none)
include hq

theorem Dev.onQueue_absent (code : Nat) (part : PartId) : d.onQueue code qid part = d.queueCmd code qid part d.opqData := by
  unfold Dev.onQueue Dev.queueWith
  rw [hq]

/-- Every command but Q_CREATE refuses a queue that does not exist. -/
theorem Dev.queueCmd_absent {code : Nat} (hcode : code ≠ 1) (part : PartId) (x : Nat) :
    d.queueCmd code qid part x = (some .stateConflict, d) := by
  unfold Dev.queueCmd
  split
  · exact absurd rfl hcode
  · rw [Dev.qRead, hq]
  · rw [Dev.qDrain, hq]
  · rw [Dev.qEnable, hq]
  · rw [Dev.qReset, hq]
  · rw [Dev.qDestroy, hq]

theorem Dev.onQueue_refused {code : Nat} (hcode : code ≠ 1) (part : PartId) : d.onQueue code qid part = (some .stateConflict, d) :=
  (Dev.onQueue_absent hq code part).trans (Dev.queueCmd_absent hq hcode part _)

theorem Dev.qEnableCmd_absent : d.qEnableCmd qid = (some .stateConflict, d) := by
  rw [Dev.qEnableCmd, hq]

end

variable {q : Queue} (hq : d.queue? qid = some q)
include hq

theorem Dev.qEnableCmd_found : d.qEnableCmd qid = d.unlessConf q.part (Dev.onQueue 4 qid 0) := by
  rw [Dev.qEnableCmd, hq]

theorem Dev.onQueue_onChip (hchip : q.onChip = true) (code : Nat) (part : PartId) :
    d.onQueue code qid part = d.queueCmd code qid part d.opqData := by
  unfold Dev.onQueue Dev.queueWith
  rw [hq]
  exact if_pos hchip

theorem Dev.onQueue_offChip (hoff : q.onChip = false) (code : Nat) (part : PartId) :
    d.onQueue code qid part = (none, d.awaitContext code qid part d.opqData) := by
  unfold Dev.onQueue Dev.queueWith
  rw [hq]
  exact if_neg (ne_true_of_eq_false hoff)

theorem Dev.qRead_found : d.qRead qid = (some .ok, d.setData 0x7110 8 (Dev.queueImage q)) := by
  rw [Dev.qRead, hq]

theorem Dev.qDrain_found : d.qDrain qid =
    if q.state = .active then
      (some .ok, (d.modQueue qid fun q => { q with state := .draining, drainMark := some q.sqTail }).drainCheck qid)
    else (some .stateConflict, d) := by
  rw [Dev.qDrain, hq]
  exact ite_not _ _ _

theorem Dev.qEnable_found : d.qEnable qid =
    if q.state = .stopped then (some .ok, d.modQueue qid fun q => { q with state := .active, dropped := 0 })
    else (some .stateConflict, d) := by
  rw [Dev.qEnable, hq]
  exact ite_not _ _ _

theorem Dev.qReset_found : d.qReset qid =
    if q.state = .resetting ∨ q.state = .lost then (some .stateConflict, d)
    else (none, (d.modOpq fun o => { o with waitQueue := some qid }).resetQueue qid .command) := by
  rw [Dev.qReset, hq]

theorem Dev.qDestroy_found : d.qDestroy qid =
    if q.state = .stopped ∨ q.state = .lost then (some .ok, d.freeQueue qid q) else (some .stateConflict, d) := by
  unfold Dev.qDestroy Dev.freeQueue
  rw [hq]
  dsimp only
  rcases q.fetch with _ | a
  · rfl
  · rw [Dev.opsOf_dropAcc, Option.elim_some]

end

/-! ### Q_CREATE (R272, R273, R303) -/

/-- The image x of a new queue has a field outside its range. -/
def Dev.QueueMalformed (x : Nat) : Prop :=
  bits (bits x 63 0) 4 0 < 4 ∨ bits (bits x 63 0) 4 0 > 15 ∨ bits (bits x 63 0) 11 8 = 0 ∨ bits (bits x 63 0) 63 49 ≠ 0 ∨
    bits (bits x 127 64) 11 8 ≠ 0 ∨ bits (bits x 127 64) 63 60 ≠ 0 ∨ bits (bits x 191 128) 5 0 ≠ 0 ∨ bits (bits x 191 128) 63 60 ≠ 0

/-- The submission ring, the completion ring and the head line of the image x are pinned lines of a partition (R268). -/
structure Dev.RingsPinned (d : Dev) (p : PartId) (x : Nat) : Prop where
  submission : d.pinnedRange p (bits (bits x 63 0) 47 12 * 4096) (128 * 2 ^ bits (bits x 63 0) 4 0) = true
  completion : d.pinnedRange p (bits (bits x 127 64) 47 12 * 4096) (32 * 2 ^ bits (bits x 63 0) 4 0) = true
  head : d.pinnedRange p (bits (bits x 191 128) 47 6 * 64) 64 = true

/-- The half that the image x of a new queue names. -/
def Dev.imageHalf (x : Nat) : Half := if bits (bits x 63 0) 48 48 = 1 then .east else .west

/-- The lowest slot of the spill extent that no queue of the partition has. -/
def Dev.freeSlot (d : Dev) (p : PartId) : Nat :=
  let slots := (d.queuesOf p).map fun y => y.2.slot
  ((List.range (slots.length + 1)).find? fun i => !slots.contains i).getD 0

/-- The queue that the image x describes, ACTIVE and empty. -/
def Dev.newQueue (p : PartId) (x : Nat) (d : Dev) : Queue :=
  let w0 := bits x 63 0
  let w1 := bits x 127 64
  let w2 := bits x 191 128
  { state := .active, part := p, half := Dev.imageHalf x, sizeLog2 := bits w0 4 0, weight := bits w0 11 8, sqBase := bits w0 47 12 * 4096,
    maxInflight := bits w1 7 0, cqBase := bits w1 47 12 * 4096, headLine := bits w2 47 6 * 64, vec := BitVec.ofNat 11 (bits w2 58 48),
    vecEn := bits w2 59 59 = 1, sqHead := 0, sqTail := 0, cqTail := 0, cqHead := 0, lap := true, dropped := 0, drainMark := none,
    resetMark := 0, resetAt := 0, resetWhy := none, slot := d.freeSlot p, onChip := true, usedAt := d.opq.lastUse + 1, held := [],
    fullSince := none, polledAt := 0, failures := 0, aborting := false, chain := [], fetched := [], trace := [], fetch := none }

/-- With room on chip the new queue is listed; else its creation waits for room (R275). -/
def Dev.listQueue (qid : QueueId) (p : PartId) (x : Nat) : Bool × Dev → Option Status × Dev
  | (false, d) => (none, d.modOpq fun o => { o with waitCmd := some (1, qid, p, x), loading := o.loading ++ [qid] })
  | (true, d) => (some .ok, d.modOpq fun o => { o with queues := Tbl.put qid.toNat (d.newQueue p x) o.queues, lastUse := o.lastUse + 1 })

theorem Dev.qCreate_accepted {d : Dev} {qid : QueueId} {p : PartId} {x : Nat} {r : Part} (hformed : ¬ Dev.QueueMalformed x)
    (hp : d.part? p = some r) (hspill : r.spill.isSome = true) (hfree : d.queue? qid = none) (hpinned : d.RingsPinned p x)
    (hquota : (d.queuesOf p).length < r.quota.toNat) :
    d.qCreate qid p x = Dev.listQueue qid p x (d.makeRoom (Dev.imageHalf x) qid) := by
  obtain ⟨hsq, hcq, hhead⟩ := hpinned
  refine (if_neg hformed).trans ?_
  rw [hp]
  refine (if_neg (by simp [hfree, hsq, hcq, hhead, Option.ne_none_iff_isSome.mpr hspill])).trans ?_
  exact if_neg (Nat.not_le.mpr hquota)

/-! ### Commands on partitions and their cores (R286, R299, R300, R303) -/

/-- An entry can hold the spilled contexts of a partition: ACTIVE, pinned, of the partition, with its permissions, and of 4 MiB (R274). -/
def Dev.SpillFits (d : Dev) (p : PartId) (e : Ext) : Prop :=
  e.state = .active ∧ e.tiered = false ∧ e.part = p ∧ bits (d.perm e) 4 3 = 3 ∧ 2 ^ 22 ≤ e.size

/-- The spill extent that DATA0 of PART_SET names, if its valid bit is set. -/
def Dev.spillOfData (x : Nat) : Option ExtIdx := if bits x 15 15 = 1 then some (BitVec.ofNat 15 (bits x 14 0)) else none

/-- A logical core can join a partition: unassigned, in the map, and its physical core is not fenced off. -/
def Dev.CoreFree (d : Dev) (c : Fin 512) : Prop :=
  d.coreAssigned c = false ∧ c.val < d.fld 0x104 9 0 ∧ ∃ ph, d.phys c.val = some ph ∧ (d.core ph).fenced = false

/-- PART_RESET at a queue of the partition: it is reset, or loaded first when its context is not on chip (R299). -/
def Dev.resetInPart (d : Dev) (x : Nat × Queue) : Dev :=
  let q : QueueId := BitVec.ofNat 16 x.1
  if x.2.state = .lost ∨ x.2.state = .resetting then d
  else if x.2.onChip = true then d.resetQueue q .partition
  else if d.opq.loading.contains q then d else d.modOpq fun o => { o with loading := o.loading ++ [q] }

/-- The fault records of a partition are freed with outcome 4 (R299). -/
def Dev.freeRecordsOf (p : PartId) (d : Dev) : Dev :=
  ((d.xlt.records.filter fun r => r.2.part == p).map (·.1)).foldl (fun d r => d.freeRecord r 4) d

section
variable {d : Dev} {p : PartId} {x : Nat} {r : Part} (hp : d.part? p = some r)
include hp

theorem Dev.partSet_accepted (hrange : bits x 47 32 ≤ 32768) (hfits : bits x 15 15 = 1 → d.SpillFits p (d.ext (bits x 14 0)))
    (hmoves : Dev.spillOfData x ≠ r.spill → (d.queuesOf p).length = 0 ∧ r.quiet.on = false)
    (hquota : (d.queuesOf p).length ≤ bits x 47 32) :
    d.partSet p x = (some .ok, d.modPart p fun p =>
      { p with spill := Dev.spillOfData x, spillIx := BitVec.ofNat 15 (bits x 14 0), quota := BitVec.ofNat 16 (bits x 47 32) }) := by
  refine (if_neg (Nat.not_lt.mpr hrange)).trans ?_
  rw [hp]
  refine if_neg ?_
  rintro (hbad | ⟨hchanges, hused | hquiet⟩ | hlow)
  · by_cases hvalid : bits x 15 15 = 1
    · obtain ⟨hactive, htier, hpart, hperm, hsize⟩ := hfits hvalid
      simp [hactive, htier, hpart, hperm, hsize, -Nat.reducePow] at hbad
    · simp [hvalid] at hbad
  · exact hused (hmoves hchanges).1
  · exact ne_true_of_eq_false (hmoves hchanges).2 hquiet
  · exact absurd hquota (Nat.not_le.mpr hlow)

theorem Dev.partRead_found : d.partRead p = (some .ok, d.setData 0x7110 3 (r.spillIx.toNat + (if r.spill.isSome = true then 2 ^ 15 else 0) +
    r.quota.toNat * 2 ^ 32 + ((d.queuesOf p).length + r.cores.length * 2 ^ 16) * 2 ^ 64)) := by
  rw [Dev.partRead, hp]

variable {l : List (Fin 512)}

theorem Dev.coreAssign_accepted (hl : Dev.coreRange x = some l) (hfree : ∀ c ∈ l, d.CoreFree c) :
    let ph := l.filterMap fun c => d.phys c.val
    d.coreAssign p x = (none, (d.modXlt fun t => { t with micro := t.micro.filter fun x => !ph.contains x.1 }).modOpq fun o =>
      { o with joins := some (p, l), refill := o.refill ++ ph }) := by
  unfold Dev.coreAssign
  rw [hl]
  refine if_neg ?_
  rw [hp]
  simp only [Option.isNone_some, Bool.false_eq_true, false_or, List.any_eq_true, not_exists, not_and]
  intro c hc
  obtain ⟨hun, hmapped, ph, hph, hlive⟩ := hfree c hc
  simp [hun, hmapped, hph, hlive]

theorem Dev.coreRelease_accepted (hl : Dev.coreRange x = some l) (hown : ∀ c ∈ l, c ∈ r.cores) :
    let d1 := l.foldl (fun d c => d.leaveCore c) (d.modPart p fun p => { p with cores := p.cores.filter fun c => !l.contains c })
    let ph := l.filterMap fun c => d1.phys c.val
    d.coreRelease p x = (none, (d1.modOpq fun o => { o with leaves := some ph, refill := o.refill ++ ph }).cancelCoreless p) := by
  unfold Dev.coreRelease
  rw [hl]
  dsimp only
  rw [hp]
  exact if_neg (by simpa using hown)

theorem Dev.partReset_found :
    let d2 := ((d.queuesOf p).foldl Dev.resetInPart (d.modOpq fun o => { o with waitPart := some p })).freeRecordsOf p
    let ph := r.cores.filterMap fun c => d2.phys c.val
    d.partReset p = (none, (d2.modOpq fun o => { o with refill := o.refill ++ ph.filter fun c => !o.refill.contains c }).partResetCheck) := by
  unfold Dev.partReset
  rw [hp]
  rfl

end

/-- Settles O26: an idle OPQ runs the command's effect on the device with BUSY set; a command on a queue by whether its context is on chip and then
by the queue's state, the others by their conditions. -/
theorem opqCommandsTakeEffect : Obligations.OpqCommandsTakeEffect := by
  intro s qid p hidle d x ends waits
  have hrun {f : Dev → Option Status × Dev} {y : Option Status × Dev} (hf : f d = y) : next (s.onDev (Dev.opqCmd f)) = s.afterOpq y :=
    State.opqCmd_idle hidle hf
  have henable {q : Queue} {y : Option Status × Dev} (hq : d.queue? qid = some q) (hy : d.unlessConf q.part (Dev.onQueue 4 qid 0) = y) :
      exec (.qEnable qid) s = s.afterOpq y := hrun ((Dev.qEnableCmd_found hq).trans hy)
  refine ⟨fun q hq hchip => ?onChip, fun q hq hoff => ?offChip, fun hq => ?absent, ?create,
    fun r hp => ⟨fun hopen hrange hfits hmoves hquota => ?partSet, ?partRead, fun l hl hfree => ?assign, fun l hl hown => ?release, ?partReset⟩⟩
  case onChip =>
    have hcmd (code : Nat) : d.onQueue code qid 0 = d.queueCmd code qid 0 x := Dev.onQueue_onChip hq hchip code 0
    refine ⟨hrun ((hcmd 2).trans (Dev.qRead_found hq)), (hrun ((hcmd 3).trans (Dev.qDrain_found hq))).trans ?drain, ?enable,
      (hrun ((hcmd 5).trans (Dev.qReset_found hq))).trans ?reset, (hrun ((hcmd 6).trans (Dev.qDestroy_found hq))).trans ?destroy⟩
    case drain | reset | destroy => exact ite_transport s.afterOpq Iff.rfl (fun _ => rfl) fun _ => rfl
    case enable =>
      by_cases hopen : d.conf q.part = false
      · refine (henable hq ((Dev.unlessConf_open _ _ d hopen).trans ((hcmd 4).trans (Dev.qEnable_found hq)))).trans ?_
        exact ite_transport s.afterOpq (by simp [hopen]) (fun _ => rfl) fun _ => rfl
      · refine (henable hq (Dev.unlessConf_confidential _ _ d (by simpa using hopen))).trans ?_
        exact (if_neg (not_and_of_not_left _ hopen)).symm
  case offChip =>
    have hcmd (code : Nat) : d.onQueue code qid 0 = (none, d.awaitContext code qid 0 x) := Dev.onQueue_offChip hq hoff code 0
    exact ⟨hrun (hcmd 2), hrun (hcmd 3), fun hopen => henable hq ((Dev.unlessConf_open _ _ d hopen).trans (hcmd 4)), hrun (hcmd 5), hrun (hcmd 6)⟩
  case absent =>
    simp only [List.forall_mem_cons, List.not_mem_nil, false_implies, implies_true, and_true]
    have hcmd (code : Nat) (hcode : code ≠ 1) : d.onQueue code qid 0 = (some .stateConflict, d) := Dev.onQueue_refused hq hcode 0
    exact ⟨hrun (hcmd 2 (by decide)), hrun (hcmd 3 (by decide)), hrun (Dev.qEnableCmd_absent hq), hrun (hcmd 5 (by decide)),
      hrun (hcmd 6 (by decide))⟩
  case create =>
    rintro w0 w1 w2 r rfl rfl rfl n h1 h2 h3 h4 h5 h6 h7 h8 hopen hp hspill hfree hsq hcq hhead hquota half
    have hformed : ¬ Dev.QueueMalformed x := by
      simp only [Dev.QueueMalformed, not_or, not_lt, ne_eq, not_not]
      exact ⟨h1, h2, h3, h4, h5, h6, h7, h8⟩
    have hcreate : exec (.qCreate qid p) s = s.afterOpq (Dev.listQueue qid p x (d.makeRoom half qid)) :=
      hrun ((Dev.unlessConf_open p _ d hopen).trans ((Dev.onQueue_absent hfree 1 p).trans
        (Dev.qCreate_accepted hformed hp hspill hfree ⟨hsq, hcq, hhead⟩ hquota)))
    refine ⟨fun d1 hfull => ?_, fun d1 hroom => ?_⟩
    · rw [hcreate, hfull]
      rfl
    · rw [hcreate, hroom]
      rfl
  case partSet =>
    exact hrun (f := fun d => d.unlessConf p (Dev.partSet p d.opqData))
      ((Dev.unlessConf_open p _ d hopen).trans (Dev.partSet_accepted hp hrange hfits hmoves hquota))
  case partRead => exact hrun (Dev.partRead_found hp)
  case assign => exact hrun (f := fun d => d.coreAssign p d.opqData) (Dev.coreAssign_accepted hp hl hfree)
  case release => exact (hrun (f := fun d => d.coreRelease p d.opqData) (Dev.coreRelease_accepted hp hl hown)).trans (s.afterOpq_waits _)
  case partReset => exact (hrun (Dev.partReset_found hp)).trans (s.afterOpq_waits _)

end Sys2Proof.Machine
end

section
/-! PROOFS. The micro-operations of MAP: which value each writes to its register, and that it writes nothing else. -/

namespace Sys2Proof.Machine

/-! ### One register is written (R327) -/

/-- A register read after the write of a register. -/
theorem Micro.r_set (m : Micro) (i j : Fin 16) (v : Word32) : (m.set i v).r j = if j = i then v else m.r j :=
  (Tbl.get_set 0 i.val v m.regs j.val).trans (if_congr Fin.val_inj rfl rfl)

theorem Micro.r_set_same (m : Micro) (i : Fin 16) (v : Word32) : (m.set i v).r i = v := (m.r_set i i v).trans (if_pos rfl)

theorem Micro.r_set_other {i j : Fin 16} (h : j ≠ i) (m : Micro) (v : Word32) : (m.set i v).r j = m.r j := (m.r_set i j v).trans (if_neg h)

@[simp] theorem Obl.micro_dev_micro (s : State) (d : Fin 16) (v : Word32) : (Obl.micro s d v).dev.micro = s.dev.micro.set d v := rfl

/-- Settles O6: the registers are a table, of which a write sets one place. -/
theorem microRegisterReadsBack : Obligations.MicroRegisterReadsBack := by
  intro s d v
  simp only [Obl.micro_dev_micro]
  exact ⟨Micro.r_set_same _ d v, fun i hi => Micro.r_set_other hi _ v, rfl, rfl, rfl⟩

/-- A micro-operation that writes `v` to register `d` leads to the state that differs in that register only. What it writes may rest on the
device, as the key of HASH does. -/
theorem State.onMicro_set {s : State} {f : Dev → Micro → Micro} {d : Fin 16} {v : Word32}
    (hf : f s.dev s.dev.micro = s.dev.micro.set d v) : next (s.onDev fun dev => dev.onMicro (f dev)) = next (Obl.micro s d v) :=
  congrArg (fun m => next { s with dev := { s.dev with micro := m } }) hf

/-- A number written by case is the number of the case, written. -/
theorem Micro.ite_set (m : Micro) (d : Fin 16) (c : Prop) [Decidable c] (v w : Word32) :
    (if c then m.set d v else m.set d w) = m.set d (if c then v else w) := (apply_ite (fun u => m.set d u) c v w).symm

/-! ### Order (R328, R360) -/

section
variable {m : Micro} {t : OrdType} {a b : Fin 16} (hord : m.anyNan t a b = false) (d : Fin 16)
include hord

theorem Micro.min_ordered : m.min t d a b = m.set d (if m.less t b a then m.r b else m.r a) := if_neg (ne_true_of_eq_false hord)

theorem Micro.max_ordered : m.max t d a b = m.set d (if m.less t a b then m.r b else m.r a) := if_neg (ne_true_of_eq_false hord)

end

/-- The condition of CMP, from whether A is below B and B below A. -/
def Micro.condHolds (k : MicroCond) (lt gt : Bool) : Bool :=
  match k with
  | .eq => !lt && !gt | .ne => lt || gt | .lt => lt | .le => !gt | .gt => gt | .ge => !lt

/-- What CMP finds: its condition of ordered operands, and a free value for NaN (log 14). -/
def Micro.cmpFinds (t : OrdType) (k : MicroCond) (a b : Fin 16) (m : Micro) : Bool :=
  if m.anyNan t a b then Config.cmpNan (Micro.condCode k) (m.r a) (m.r b) else Micro.condHolds k (m.less t a b) (m.less t b a)

theorem Micro.cmpFinds_ordered {m : Micro} {t : OrdType} {a b : Fin 16} (hord : m.anyNan t a b = false) (k : MicroCond) :
    m.cmpFinds t k a b = Micro.condHolds k (m.less t a b) (m.less t b a) := if_neg (ne_true_of_eq_false hord)

theorem Micro.cmp_writes (t : OrdType) (k : MicroCond) (d a b : Fin 16) (m : Micro) :
    m.cmp t k d a b = m.set d (if m.cmpFinds t k a b then 1 else 0) :=
  congrArg (m.set d) (apply_ite (BitVec.ofNat 32) (m.cmpFinds t k a b = true) 1 0)

/-- Operands are ordered unless one is NaN in FP32. -/
theorem Micro.anyNan_eq_false {m : Micro} {t : OrdType} {a b : Fin 16}
    (h : t = .f32 → (m.x a).isNan = false ∧ (m.x b).isNan = false) : m.anyNan t a b = false := by
  cases t with
  | f32 =>
    obtain ⟨ha, hb⟩ := h rfl
    simp [Micro.anyNan, ha, hb]
  | i32 | u32 => rfl

/-- Settles O4: CMP writes what it finds, and of ordered operands that is its condition. -/
theorem microCompareResults : Obligations.MicroCompareResults := by
  intro s t k d a b m lt gt
  have hcmp : exec (.cmp t k d a b) s = next (Obl.micro s d (if m.cmpFinds t k a b then 1 else 0)) :=
    State.onMicro_set (Micro.cmp_writes t k d a b m)
  refine ⟨fun hnan => ?_, _, hcmp⟩
  rw [hcmp, Micro.cmpFinds_ordered (Micro.anyNan_eq_false hnan)]
  rfl

/-! ### Integers (R328) -/

/-- SEL by the spelling that asks for zero first. -/
theorem Micro.sel_writes (d a b c : Fin 16) (m : Micro) : m.sel d a b c = m.set d (if m.r a = 0 then m.r c else m.r b) :=
  congrArg (m.set d) (ite_not ..)

/-- Settles O3: each of these operations writes the register named; integers are never NaN, so MIN and MAX choose by order. -/
theorem microIntegerResults : Obligations.MicroIntegerResults := by
  intro s d a b c r
  have hint : s.dev.micro.anyNan .i32 a b = false := Micro.anyNan_eq_false nofun
  have huint : s.dev.micro.anyNan .u32 a b = false := Micro.anyNan_eq_false nofun
  exact ⟨rfl,
    State.onMicro_set rfl, State.onMicro_set rfl, State.onMicro_set rfl,
    State.onMicro_set (Micro.min_ordered hint d), State.onMicro_set (Micro.min_ordered huint d),
    State.onMicro_set (Micro.max_ordered hint d), State.onMicro_set (Micro.max_ordered huint d),
    State.onMicro_set rfl, State.onMicro_set rfl,
    State.onMicro_set (Micro.sel_writes d a b c _),
    State.onMicro_set rfl, State.onMicro_set rfl, fun _ => State.onMicro_set rfl⟩

/-! ### FP32 (R328, R360) -/

section
variable (d a b : Fin 16) (m : Micro)

theorem Micro.min_f32 : m.min .f32 d a b = m.set d (if (m.x a).isNan || (m.x b).isNan then BitVec.ofNat 32 Ff.fp32.nanCode
    else if (m.x b).lt (m.x a) then m.r b else m.r a) := m.ite_set d ..

theorem Micro.max_f32 : m.max .f32 d a b = m.set d (if (m.x a).isNan || (m.x b).isNan then BitVec.ofNat 32 Ff.fp32.nanCode
    else if (m.x a).lt (m.x b) then m.r b else m.r a) := m.ite_set d ..

theorem Micro.abs_f32 : m.abs .f32 d a =
    m.set d (if (m.x a).isNan then BitVec.ofNat 32 Ff.fp32.nanCode else m.r a &&& 0x7FFFFFFF) := m.ite_set d ..

theorem Micro.neg_f32 : m.neg .f32 d a =
    m.set d (if (m.x a).isNan then BitVec.ofNat 32 Ff.fp32.nanCode else m.r a ^^^ 0x80000000) := m.ite_set d ..

end

section
variable {m : Micro} {a : Fin 16} (d : Fin 16)

/-! CVT to INT32 and FLOOR, by what the operand is. -/

theorem Micro.cvt_nan (h : m.x a = .nan) (q : CvtRound) : m.cvt (.f32ToI32 q) d a = m.set d 0 := by
  unfold Micro.cvt
  rw [h]

theorem Micro.floor_nan (h : m.x a = .nan) : m.floor d a = m.set d (BitVec.ofNat 32 Ff.fp32.nanCode) := by
  unfold Micro.floor
  rw [h]
  rfl

theorem Micro.cvt_inf {neg : Bool} (h : m.x a = .inf neg) (q : CvtRound) :
    m.cvt (.f32ToI32 q) d a = m.set d (if neg then 0x80000000 else 0x7FFFFFFF) := by
  unfold Micro.cvt
  rw [h]

theorem Micro.floor_inf {neg : Bool} (h : m.x a = .inf neg) : m.floor d a = m.set d (m.r a) := by
  unfold Micro.floor
  rw [h]

variable {neg : Bool} {mm : Nat} {e : Int} (h : m.x a = .fin neg mm e)
include h

theorem Micro.cvt_fin (q : CvtRound) : m.cvt (.f32ToI32 q) d a = m.set d (if Micro.toInt q neg mm e ≥ 2 ^ 31 then 0x7FFFFFFF
    else if Micro.toInt q neg mm e < -(2 ^ 31) then 0x80000000 else BitVec.ofInt 32 (Micro.toInt q neg mm e)) := by
  unfold Micro.cvt
  rw [h]

theorem Micro.floor_fin : m.floor d a =
    m.set d (if mm = 0 then m.r a else BitVec.ofNat 32 (rn32 (.ofInt (Micro.toInt .floor neg mm e)))) := by
  unfold Micro.floor
  rw [h]
  exact m.ite_set d ..

end

/-- Settles O5: a choice between two values written is the write of the value chosen; CVT to INT32 and FLOOR go by what the operand is. -/
theorem microFloatResults : Obligations.MicroFloatResults := by
  intro s d a b c m r x nan
  refine ⟨State.onMicro_set rfl, State.onMicro_set rfl, State.onMicro_set rfl, State.onMicro_set rfl,
    State.onMicro_set (m.min_f32 d a b), State.onMicro_set (m.max_f32 d a b), State.onMicro_set (m.abs_f32 d a), State.onMicro_set (m.neg_f32 d a),
    State.onMicro_set rfl, State.onMicro_set rfl, State.onMicro_set rfl, fun q => ?toI32, ?floor,
    State.onMicro_set rfl, State.onMicro_set rfl, State.onMicro_set rfl, State.onMicro_set rfl⟩
  case toI32 =>
    split
    next h => exact State.onMicro_set (Micro.cvt_nan d h q)
    next neg h => exact State.onMicro_set (Micro.cvt_inf d h q)
    next neg mm e h => exact State.onMicro_set (Micro.cvt_fin d h q)
  case floor =>
    split
    next h => exact State.onMicro_set (Micro.floor_nan d h)
    next neg h => exact State.onMicro_set (Micro.floor_inf d h)
    next neg mm e h => exact State.onMicro_set (Micro.floor_fin d h)

end Sys2Proof.Machine
end

section
/-! Exact accumulators (R350 to R352). Entering a term commutes with merging on the left, so the fold that enters a list of terms
starts from a merge as well as from zero: a list split in two is a merge, and order and grouping follow from the laws of merging. -/

namespace Sys2Proof.Machine

namespace Acc

/-! ### Saturating counts (R350) -/

theorem sat_count_assoc (m n k : Nat) : sat (sat (m + n) + k) = sat (m + sat (n + k)) := by
  unfold sat
  omega

/-! ### Merging (R352) -/

theorem merge_comm (a b : Acc) : a.merge b = b.merge a := by
  simp only [merge, Int.add_comm, Nat.add_comm]

theorem merge_assoc (a b c : Acc) : (a.merge b).merge c = a.merge (b.merge c) := by
  simp only [merge, sat_count_assoc, Int.add_assoc]

theorem merge_left_comm (a b c : Acc) : a.merge (b.merge c) = b.merge (a.merge c) := by
  rw [← merge_assoc, merge_comm a b, merge_assoc]

/-- A term may enter either before or after a merge: V adds, and a count that the term steps saturates to the same number. -/
theorem merge_add (a b : Acc) (t : XV) : (a.merge b).add t = a.merge (b.add t) := by
  cases t with
  | nan => simp only [add, merge, sat_count_assoc]
  | inf s => cases s <;> simp [add, merge, sat_count_assoc]
  | fin s m e =>
    by_cases hbig : m ≠ 0 ∧ (m.log2 : Int) + e ≥ 256
    · cases s <;> simp [add, hbig, merge, sat_count_assoc]
    · simp only [add, if_neg hbig, merge, Int.add_assoc]

/-! ### Lists of terms (R351, R352) -/

/-- The terms of a list enter a merge as they enter its second part. -/
theorem foldl_add_merge (a b : Acc) (l : List XV) : l.foldl add (a.merge b) = a.merge (l.foldl add b) :=
  List.foldl_hom a.merge (merge_add a)

/-- Counts of a list of terms are saturated already, so merging with zero changes nothing. -/
theorem ofTerms_merge_zero (l : List XV) : (ofTerms l).merge zero = ofTerms l := by
  rw [merge_comm]
  exact (foldl_add_merge zero zero l).symm

theorem ofTerms_append (k l : List XV) : ofTerms (k ++ l) = (ofTerms k).merge (ofTerms l) :=
  calc ofTerms (k ++ l) = l.foldl add (ofTerms k) := List.foldl_append
    _ = l.foldl add ((ofTerms k).merge zero) := by rw [ofTerms_merge_zero]
    _ = (ofTerms k).merge (ofTerms l) := foldl_add_merge (ofTerms k) zero l

theorem ofTerms_cons (t : XV) (l : List XV) : ofTerms (t :: l) = (ofTerms [t]).merge (ofTerms l) := ofTerms_append [t] l

theorem ofTerms_perm {k l : List XV} (h : k.Perm l) : ofTerms k = ofTerms l := by
  induction h with
  | nil => rfl
  | cons t _ ih => rw [ofTerms_cons, ih, ← ofTerms_cons]
  | swap t u l => rw [ofTerms_cons u, ofTerms_cons t, merge_left_comm, ← ofTerms_cons u, ← ofTerms_cons t]
  | trans _ _ ihk ihl => exact ihk.trans ihl

/-- Merging the groups' accumulators in turn, from that of the terms k, enters k and then every group. -/
theorem foldl_merge_ofTerms (k : List XV) (g : List (List XV)) :
    (g.map ofTerms).foldl merge (ofTerms k) = ofTerms (k ++ g.flatten) := by
  induction g generalizing k with
  | nil => simp
  | cons l g ih => rw [List.map_cons, List.foldl_cons, ← ofTerms_append, ih, List.flatten_cons, List.append_assoc]

/-- The accumulator of a grouping of terms is that of the terms. -/
theorem foldl_merge_groups (g : List (List XV)) : (g.map ofTerms).foldl merge zero = ofTerms g.flatten := foldl_merge_ofTerms [] g

end Acc

/-- Settles O60: a grouping has the accumulator of its terms, and that accumulator does not depend on their order. -/
theorem accumulatorsMergeInAnyOrder : Obligations.AccumulatorsMergeInAnyOrder := by
  refine ⟨fun a b => ⟨rfl, rfl, rfl, rfl⟩, Acc.merge_comm, Acc.merge_assoc, Acc.ofTerms_append, fun _ _ => Acc.ofTerms_perm, ?grouping⟩
  case grouping =>
    intro g h hperm x y
    have hxy : x = y := calc
      x = Acc.ofTerms g.flatten := Acc.foldl_merge_groups g
      _ = Acc.ofTerms h.flatten := Acc.ofTerms_perm hperm
      _ = y := (Acc.foldl_merge_groups h).symm
    rw [hxy]
    exact ⟨rfl, .rfl, .rfl, .rfl⟩

end Sys2Proof.Machine
end

section
/-! PROOFS. What time alone does: counting clocks changes counters only, and what waits is tried again only where something waits. -/

namespace Sys2Proof.Machine

/-! ### Counting clocks (R234, R439) -/

/-- The device `t` is the device `d` but for its counters. -/
def Dev.Counted (d t : Dev) : Prop := ∃ ctrs, t = { d with regs := { d.regs with ctrs := ctrs } }

theorem Dev.Counted.refl (d : Dev) : d.Counted d := ⟨d.regs.ctrs, rfl⟩

theorem Dev.Counted.bump (d : Dev) (page off n : Nat) : d.Counted (d.bump page off n) := ⟨_, rfl⟩

theorem Dev.Counted.trans {d t u : Dev} (hdt : d.Counted t) (htu : t.Counted u) : d.Counted u := by
  obtain ⟨_, rfl⟩ := hdt
  obtain ⟨ctrs, rfl⟩ := htu
  exact ⟨ctrs, rfl⟩

/-- Steps that count, one for each channel or port. -/
theorem Dev.Counted.foldl {f : Dev → Nat → Dev} (hf : ∀ (d : Dev) i, d.Counted (f d i)) (l : List Nat) (d : Dev) : d.Counted (l.foldl f d) := by
  induction l generalizing d with
  | nil => exact .refl d
  | cons i l ih => exact (hf d i).trans (ih (f d i))

theorem Dev.counted_countPanic (d : Dev) : d.Counted d.countPanic := by
  refine .foldl (fun x c => ?_) _ d
  split
  · exact .bump ..
  · exact .refl x

theorem Dev.counted_countReplay (d : Dev) : d.Counted d.countReplay := by
  refine .foldl (fun x p => ?_) _ d
  split
  · exact .bump ..
  · exact .refl x

/-- One nanosecond: the time, the global count and the counters (R369, R370, R379). -/
theorem Dev.tick_eq (d : Dev) : ∃ ctrs, d.tick = { d with
    now := d.now + 1
    gtc := if d.gtc.running = true ∧ d.gtc.freeze ≤ d.now then { d.gtc with count := d.gtc.count + 1 } else d.gtc
    regs := { d.regs with ctrs := ctrs } } := by
  obtain ⟨ctrs, h⟩ := d.counted_countReplay.trans (Dev.counted_countPanic _)
  refine ⟨ctrs, ?_⟩
  unfold tick countNs
  rw [h]
  dsimp only
  split
  · rfl
  · rfl

/-! ### What waits (R587, R670) -/

theorem Dev.spreadStep_none (fuses : Fuses) (d : Dev) (h : d.fw.spread = none) : d.spreadStep fuses = d := by
  unfold spreadStep
  rw [h]

theorem Dev.runMsgs_none (d : Dev) (h : d.sec.msgs = []) : d.runMsgs = d := by
  have hsec : { d.sec with msgs := [] } = d.sec := congrArg (fun m => { d.sec with msgs := m }) h.symm
  unfold runMsgs
  rw [h]
  exact congrArg (fun x => { d with sec := x }) hsec

/-- Settles O2: the step is one nanosecond, and where nothing waits, nothing is tried again. -/
theorem idleStepLetsOneNanosecondPass : Obligations.IdleStepLetsOneNanosecondPass := by
  intro s h
  obtain ⟨ctrs, htick⟩ := s.dev.tick_eq
  have hstep : step s = .next { s with dev := (s.dev.tick.spreadStep s.nv.fuses).runMsgs } := by
    unfold step
    split
    · rfl
    · next hfront => exact absurd (hfront.symm.trans h) (List.cons_ne_nil _ _)
  refine ⟨s.dev.tick, hstep, fun hspread hmsgs => ?_, ?_⟩
  · have hspread' : s.dev.tick.fw.spread = none := by rw [htick]; exact hspread
    have hmsgs' : s.dev.tick.sec.msgs = [] := by rw [htick]; exact hmsgs
    rw [hstep, Dev.spreadStep_none _ _ hspread', Dev.runMsgs_none _ hmsgs']
  · rw [htick]
    exact ⟨rfl, rfl, rfl, rfl, rfl, rfl⟩

end Sys2Proof.Machine
end

section
/-! PROOFS. What a command may change beside the device: not the commands that wait, the fuses only upwards, and the fuses and the store only by a
command that saves, blows or writes an image. -/

namespace Sys2Proof.Machine

/-! ### Fuses (R486, R490) -/

theorem Fuses.Grow.refl (f : Fuses) : Fuses.Grow f f := ⟨le_rfl, id, fun _ => rfl⟩

theorem Fuses.Grow.trans {f g h : Fuses} (hfg : Fuses.Grow f g) (hgh : Fuses.Grow g h) : Fuses.Grow f h := by
  obtain ⟨hsvn, hoff, hown⟩ := hfg
  obtain ⟨hsvn', hoff', hown'⟩ := hgh
  refine ⟨hsvn.trans hsvn', hoff' ∘ hoff, fun h0 => ?_⟩
  have hsame := hown h0
  exact (hown' (hsame ▸ h0)).trans hsame

/-! ### From a state to the next -/

/-- What lies between a state and the next of a command: the commands that wait are the same, the fuses have grown, and, where the command is none
that may write the store (`w`), the fuses and the store are the same. -/
structure State.Advances (w : Bool) (s t : State) : Prop where
  pending : t.pending = s.pending
  fuses : Fuses.Grow s.nv.fuses t.nv.fuses
  store : w = false → t.nv = s.nv

namespace State.Advances

variable {w : Bool} {s t u : State}

theorem refl (w : Bool) (s : State) : Advances w s s := ⟨rfl, .refl _, fun _ => rfl⟩

/-- A change of the device changes nothing else. -/
theorem onDev (w : Bool) (f : Dev → Dev) (s : State) : Advances w s (s.onDev f) := ⟨rfl, .refl _, fun _ => rfl⟩

/-- A writer of the store that blows no fuse. -/
theorem ofStore (hpending : t.pending = s.pending) (hfuses : t.nv.fuses = s.nv.fuses) : Advances true s t :=
  ⟨hpending, hfuses ▸ .refl _, nofun⟩

theorem trans (hst : Advances w s t) (htu : Advances w t u) : Advances w s u :=
  ⟨htu.pending.trans hst.pending, hst.fuses.trans htu.fuses, fun h => (htu.store h).trans (hst.store h)⟩

theorem thenDev (h : Advances w s t) (f : Dev → Dev) : Advances w s (t.onDev f) := h.trans (onDev w f t)

theorem ite {c : Prop} [Decidable c] (ht : c → Advances w s t) (hu : ¬ c → Advances w s u) : Advances w s (if c then t else u) := by
  split
  · exact ht ‹_›
  · exact hu ‹_›

end State.Advances

/-! ### Saving and loading calibration and training (R593, R596, R626, R627) -/

theorem State.advances_thermSave (s : State) : Advances true s s.thermSave :=
  .ite (fun _ => .onDev ..) fun _ => .ite (fun _ => .onDev ..) fun _ => .ofStore rfl rfl

theorem State.advances_psenseSave (s : State) : Advances true s s.psenseSave := by
  refine .ite (fun _ => .onDev ..) fun _ => ?_
  split
  · refine .ite (fun _ => .onDev ..) fun _ => ?_
    split
    · exact .onDev ..
    · exact .ofStore rfl rfl
  · exact .onDev ..

theorem State.advances_trainSave (c : Nat) (s : State) : Advances true s (s.trainSave c) :=
  .ite (fun _ => .ofStore rfl rfl) fun _ => .ite (fun _ => .ofStore rfl rfl) fun _ => .ofStore rfl rfl

theorem State.advances_optSave (s : State) : Advances true s s.optSave :=
  .ite (fun _ => .onDev ..) fun _ => .ofStore rfl rfl

theorem State.advances_loadCalibration (w : Bool) (s : State) : Advances w s s.loadCalibration := by
  unfold loadCalibration
  split
  exact .onDev ..

/-! ### Blowing fuses (R486, R490, R498) -/

theorem State.advances_svnDone (s : State) : Advances true s s.svnDone :=
  .ite (fun _ => ⟨rfl, ⟨le_max_left _ _, id, fun _ => rfl⟩, nofun⟩) fun _ => .refl ..

/-- The owner's hash is programmed only while it is 0. -/
theorem State.advances_ownerSet (i : Nat) (key : BitVec 1064) (s : State) : Advances true s (s.ownerSet i key) :=
  .ite (fun _ => .onDev ..) fun _ => .ite (fun _ => .onDev ..) fun hunset => ⟨rfl, ⟨le_rfl, id, fun hset => absurd hset hunset⟩, nofun⟩

theorem State.advances_debugDisable (i : Nat) (sig : BitVec 1056) (s : State) : Advances true s (s.debugDisable i sig) :=
  .ite (fun _ => .onDev ..) fun _ => .ite (fun _ => .onDev ..) fun _ => ⟨rfl, ⟨le_rfl, fun _ => rfl, fun _ => rfl⟩, nofun⟩

/-! ### The image in the store (R571, R589, R590, R647, R653) -/

theorem State.advances_modImage (f : Image → Image) (s : State) : Advances true s (s.modImage f) := .ofStore rfl rfl

theorem State.advances_eraseImage (s : State) : Advances true s s.eraseImage := s.advances_modImage _

theorem State.advances_checkImage (w : Bool) (act : Word64) (s : State) : Advances w s (s.checkImage act) := .onDev ..

theorem State.advances_imgBegin (s : State) : Advances true s s.imgBegin :=
  .ite (fun _ => .onDev ..) fun _ => .ite (fun _ => .onDev ..) fun _ => s.advances_eraseImage.thenDev _

theorem State.advances_imgWrite (s : State) : Advances true s s.imgWrite :=
  .ite (fun _ => .onDev ..) fun _ => .ite (fun _ => .onDev ..) fun _ => .ite (fun _ => .onDev ..) fun _ => (s.advances_modImage _).thenDev _

/-- The end of an image checks what the store holds, and writes nothing there. -/
theorem State.advances_imgEnd (w : Bool) (s : State) : Advances w s s.imgEnd :=
  .ite (fun _ => .onDev ..) fun _ => .ite (fun _ => .onDev ..) fun _ => (s.advances_checkImage w _).thenDev _

theorem State.advances_receptionStep (w : Bool) (s : State) : Advances w s s.receptionStep := by
  unfold receptionStep
  split
  · exact .ite (fun _ => s.advances_checkImage w _) fun _ => .refl ..
  · exact .refl ..

theorem State.advances_takeFragment (f : Fragment) (s : State) : Advances true s (s.takeFragment f) := by
  unfold takeFragment
  split
  · exact .refl ..
  · refine .ite (fun _ => .refl ..) fun _ => .trans ?_ (advances_receptionStep true _)
    exact .ite (fun _ => ((s.advances_modImage _).thenDev _).thenDev _) fun _ => (s.advances_modImage _).thenDev _

theorem State.advances_fwFrag (f : Fragment) (s : State) : Advances true s (s.fwFrag f) := by
  rw [State.fwFrag_eq]
  refine .ite (fun _ => .refl ..) fun _ => .trans ?_ (advances_takeFragment f _)
  exact .ite (fun _ => s.advances_eraseImage.thenDev _) fun _ => .refl ..

theorem State.advances_fragFetch (i : Nat) (b : Option (List Byte)) (s : State) : Advances true s (s.fragFetch i b) := by
  unfold fragFetch
  split
  · exact .refl ..
  · refine .ite (fun _ => .refl ..) fun _ => ?_
    split
    · exact ((s.advances_modImage _).thenDev _).trans (advances_receptionStep true _)
    · exact .ite (fun _ => .onDev ..) fun _ => .onDev ..

theorem State.advances_fwComponent (s : State) : Advances true s s.fwComponent :=
  .ite (fun _ => .refl ..) fun _ => .ite (fun _ => .onDev ..) fun _ => .ite (fun _ => .onDev ..) fun _ => s.advances_eraseImage.thenDev _

theorem State.advances_fwData (b : List Byte) (s : State) : Advances true s (s.fwData b) :=
  .ite (fun _ => .refl ..) fun _ => (s.advances_modImage _).thenDev _

theorem State.advances_fwVerify (w : Bool) (s : State) : Advances w s s.fwVerify := by
  refine .ite (fun _ => .refl ..) fun _ => .ite (fun _ => .onDev ..) fun _ => .ite (fun _ => .onDev ..) fun _ => ?_
  split
  · exact .onDev ..
  · exact .onDev ..

/-! ### Messages and packets that carry a command (R469, R589, R644, R645) -/

theorem State.advances_pldmRequest (b : List Byte) (s : State) : Advances true s (s.pldmRequest b) := by
  unfold pldmRequest
  split
  case h_2 => exact .refl ..
  case h_1 _ _ type code data =>
    split
    case h_16 => exact s.advances_fwComponent
    case h_17 => exact s.advances_fwData _
    case h_19 => exact s.advances_fwVerify true
    all_goals exact .onDev ..

theorem State.advances_mctpMessage (side : Bool) (type : BitVec 8) (b : List Byte) (s : State) : Advances true s (s.mctpMessage side type b) := by
  refine .ite (fun _ => .refl ..) fun _ => ?_
  extract_lets t
  have hcounted : Advances true s t := .ite (fun _ => .onDev ..) fun _ => .refl ..
  clear_value t
  split
  case h_1 => exact hcounted.thenDev _
  case h_2 => exact .ite (fun _ => hcounted.trans (t.advances_pldmRequest b)) fun _ => hcounted.thenDev _
  case h_3 =>
    split
    · exact hcounted.thenDev _
    · exact hcounted
  case h_4 => exact hcounted
  case h_5 => exact hcounted.thenDev _

theorem State.advances_treeControl (root : NodeId) (b : List Byte) (s : State) : Advances true s (s.treeControl root b) := by
  unfold treeControl
  split
  · exact .onDev ..
  · exact .ite (fun _ => s.advances_fwFrag _) fun _ => .refl ..
  · exact .refl ..

theorem State.advances_mcast (via : Via) (p : Packet) (s : State) : Advances true s (s.mcast via p) := by
  have hcopied : Advances true s (s.onDev (Dev.copyDown (p.dst.toNat % 1024) (pktBytes p))) := .onDev ..
  refine .ite (fun _ => .onDev ..) fun _ => .ite (fun _ => hcopied) fun _ => .ite (fun _ => hcopied.thenDev _) fun _ => ?_
  exact .ite (fun _ => hcopied.trans (advances_treeControl _ _ _)) fun _ => hcopied.thenDev _

theorem State.advances_route (port : Nat) (r : RxItem) (s : State) : Advances true s (s.route port r) := by
  refine .ite (fun _ => .onDev ..) fun _ => ?_
  split
  · exact .onDev ..
  · exact .ite (fun _ => .onDev ..) fun _ => .ite (fun _ => s.advances_mcast _ _) fun _ => .ite (fun _ => .onDev ..) fun _ =>
      .ite (fun _ => .onDev ..) fun _ => .onDev ..

theorem State.advances_fabricPacket (port : Nat) (s : State) : Advances true s (s.fabricPacket port) := by
  unfold fabricPacket
  split
  · exact .refl ..
  · next r d _ => exact (State.Advances.onDev true (fun _ => d) s).trans (advances_route port r _)

/-! ### Register reads (R13, R526, R638, R648) -/

theorem State.advances_readReg (w : Bool) (path : Path) (a : Nat) (s : State) : Advances w s (s.readReg path a).2 := by
  unfold readReg
  split
  · dsimp only
    exact .onDev ..
  · split <;> exact .refl ..

theorem State.advances_answerRead (w : Bool) (path : Path) (a : Word32) (s : State) : Advances w s (s.answerRead path a).2 := by
  unfold answerRead
  dsimp only
  split
  · exact .refl ..
  · split
    · exact .refl ..
    · split
      · exact .refl ..
      · exact s.advances_readReg w path _

theorem State.advances_readPairLow (w : Bool) (path : Path) (a : Nat) (s : State) : Advances w s (s.readPairLow path a) :=
  .ite (fun _ => .refl ..) fun _ => (s.advances_readReg w path a).thenDev _

theorem State.advances_completeRead (w : Bool) (a : Word32) (size : Nat) (s : State) : Advances w s (s.completeRead a size) := by
  unfold completeRead
  dsimp only
  refine .thenDev ?_ _
  split
  · exact .refl ..
  · exact s.advances_answerRead w _ a

theorem State.advances_companionRead (w : Bool) (a : Word32) (size : Nat) (s : State) : Advances w s (s.companionRead a size) :=
  .ite (fun _ => .refl ..) fun _ => .ite (fun _ => .onDev ..) fun _ => s.advances_completeRead w a size

theorem State.advances_sidebandRead (w : Bool) (a : Word32) (s : State) : Advances w s (s.sidebandRead a) :=
  .ite (fun _ => .refl ..) fun _ => .ite (fun _ => .onDev ..) fun _ => (s.advances_answerRead w _ a).thenDev _

/-- Each read that waited is answered in turn. -/
theorem State.advances_answerReads (w : Bool) (l : List RegRead) (s : State) :
    Advances w s (l.foldl (fun s r => (s.answerRead .companion r.addr).2.onDev fun d =>
      (if (s.answerRead .companion r.addr).1.1 = .ok then d else d.bump Reg.cmp 0x050 1).emit
        (.reg .companion (s.answerRead .companion r.addr).1.1 (s.answerRead .companion r.addr).1.2)) s) := by
  induction l generalizing s with
  | nil => exact .refl ..
  | cons r l ih => exact ((s.advances_answerRead w _ r.addr).thenDev _).trans (ih _)

theorem State.advances_answerWaiting (w : Bool) (s : State) : Advances w s s.answerWaiting :=
  .ite (fun _ => .refl ..) fun _ => .trans (.onDev ..) (advances_answerReads w _ _)

/-! ### Register writes (R68, R638, R648, R668, R671) -/

/-- A command answers a next state, and the state has advanced to it. -/
def State.Goes (w : Bool) (s : State) (o : Host.Outcome State Fault Refusal) : Prop := ∃ t, o = next t ∧ s.Advances w t

theorem State.Advances.goes {w : Bool} {s t : State} (h : s.Advances w t) : s.Goes w (next t) := ⟨t, rfl, h⟩

theorem State.goes_onDev (w : Bool) (f : Dev → Dev) (s : State) : s.Goes w (next (s.onDev f)) := (State.Advances.onDev w f s).goes

theorem State.Goes.after {w : Bool} {s : State} {o : Host.Outcome State Fault Refusal} (h : s.Goes w o) : s.Advances w (s.after o) := by
  obtain ⟨t, rfl, ht⟩ := h
  exact ht

/-- The commands that a command register names: those that save or fill the store by their own laws, every other as a change of the device. -/
theorem State.goes_command (ty inst off : Nat) (v : Word32) (s : State) : ∀ o ∈ s.command ty inst off v, s.Goes true o := by
  unfold command
  dsimp only
  split
  case h_2 =>
    rintro _ ⟨⟩
    split
    case h_3 => exact s.advances_optSave.goes
    all_goals exact s.goes_onDev ..
  case h_3 =>
    rintro _ ⟨⟩
    split
    case h_5 => exact s.advances_thermSave.goes
    case h_7 => exact s.advances_psenseSave.goes
    all_goals exact s.goes_onDev ..
  case h_11 =>
    rintro _ ⟨⟩
    split
    case h_2 => exact (s.advances_trainSave _).goes
    all_goals exact s.goes_onDev ..
  case h_15 =>
    rintro _ ⟨⟩
    split
    case h_2 => exact s.advances_imgBegin.goes
    case h_3 => exact s.advances_imgWrite.goes
    case h_4 => exact (s.advances_imgEnd true).goes
    all_goals exact s.goes_onDev ..
  case h_17 => exact fun o h => absurd h (Option.not_mem_none o)
  all_goals
    rintro _ ⟨⟩
    split
    all_goals exact s.goes_onDev ..

theorem State.advances_writeWord (path : Path) (ty inst a off : Nat) (v : Word32) (s : State) :
    Advances true s (s.writeWord path ty inst a off v) := by
  unfold writeWord
  split
  case h_13 => exact .ite (fun _ => .onDev ..) fun _ => .onDev ..
  all_goals exact .onDev ..

theorem State.advances_writeReg (path : Path) (a : Nat) (v : Word32) (s : State) : Advances true s (s.writeReg path a v) := by
  unfold writeReg
  dsimp only
  split
  · exact .ite (fun _ => .onDev ..) fun _ => .refl ..
  · next ty inst _ =>
    refine .ite (fun _ => .onDev ..) fun _ => .ite (fun _ => .onDev ..) fun _ => ?_
    split
    · next o ho => exact (s.goes_command ty inst _ v o ho).after
    · exact s.advances_writeWord path ty inst a _ v

theorem State.advances_putReg (path : Path) (a : Nat) (v : Word32) (s : State) : Advances true s (s.putReg path a v) :=
  .ite (fun _ => .refl ..) fun _ => .ite (fun _ => .onDev ..) fun _ => .ite (fun _ => .refl ..) fun _ =>
    .ite (fun _ => s.advances_writeReg path a v) fun _ => .ite (fun _ => .onDev ..) fun _ => .refl ..

theorem State.advances_companionWrite (a : Word32) (size : Nat) (v : Word32) (s : State) : Advances true s (s.companionWrite a size v) :=
  .ite (fun _ => .refl ..) fun _ => s.advances_putReg ..

theorem State.advances_sidebandWrite (a v : Word32) (s : State) : Advances true s (s.sidebandWrite a v) :=
  .ite (fun _ => .refl ..) fun _ => .ite (fun _ => .onDev ..) fun _ => .ite (fun _ => .onDev ..) fun _ => .ite (fun _ => .onDev ..) fun _ =>
    (s.advances_putReg ..).thenDev _

/-! ### Every command -/

/-- The commands that may write the store or the fuses. -/
def mayWriteStore (c : Instr) : Bool :=
  match c with
  | .thermSave | .psenseSave | .trainSave .. | .optSave | .svnCommitDone | .imgBegin | .imgWrite | .ownerSet .. | .debugDisable .. | .fwFrag ..
  | .fragmentFetch .. | .updateComponent .. | .requestFirmwareData .. | .mctpMessage .. | .fabricPacket .. | .mcast .. | .registerWrite ..
  | .companionRegWrite .. | .pldmRegWrite .. | .pairHighWordWrite .. => true
  | _ => false

/-- Every command answers a next state to which the machine has advanced: the writers of the store by their own laws, the commands that read the
store or registers too, every other as a change of the device. -/
theorem exec_advances (c : Instr) (s : State) : s.Goes (mayWriteStore c) (exec c s) := by
  cases c
  case thermSave => exact s.advances_thermSave.goes
  case psenseSave => exact s.advances_psenseSave.goes
  case trainSave => exact (s.advances_trainSave _).goes
  case optSave => exact s.advances_optSave.goes
  case svnCommitDone => exact s.advances_svnDone.goes
  case ownerSet => exact (s.advances_ownerSet ..).goes
  case debugDisable => exact (s.advances_debugDisable ..).goes
  case imgBegin => exact s.advances_imgBegin.goes
  case imgWrite => exact s.advances_imgWrite.goes
  case imgEnd => exact (s.advances_imgEnd _).goes
  case fwFrag => exact (s.advances_fwFrag _).goes
  case fragmentFetch => exact (s.advances_fragFetch ..).goes
  case updateComponent => exact s.advances_fwComponent.goes
  case requestFirmwareData => exact (s.advances_fwData _).goes
  case verifyComplete => exact (s.advances_fwVerify _).goes
  case mctpMessage => exact (s.advances_mctpMessage ..).goes
  case fabricPacket => exact (s.advances_fabricPacket _).goes
  case mcast => exact (s.advances_mcast ..).goes
  case registerWrite => exact (s.advances_putReg ..).goes
  case companionRegWrite => exact (s.advances_companionWrite ..).goes
  case pldmRegWrite => exact (s.advances_sidebandWrite ..).goes
  case pairHighWordWrite => exact State.Advances.goes (.ite (fun _ => s.advances_putReg ..) fun _ => .refl ..)
  case pairLowWordRead => exact (s.advances_readPairLow ..).goes
  case companionRegRead => exact (s.advances_companionRead ..).goes
  case pldmRegRead => exact (s.advances_sidebandRead ..).goes
  case ridgeFaultTakeover | ridgeClaim | claimWaitExpiry =>
    exact ((State.Advances.onDev _ _ s).trans (State.advances_answerWaiting _ _)).goes
  case imageVerify =>
    refine State.Advances.goes (.ite (fun _ => .refl ..) fun _ => ?_)
    split
    · exact .onDev ..
    · exact .onDev ..
  case arraysStep => exact State.Advances.goes (.ite (fun _ => .refl ..) fun _ => (s.advances_loadCalibration _).thenDev _)
  case ddrTraining => exact State.Advances.goes (.ite (fun _ => .refl ..) fun _ => .onDev ..)
  all_goals exact s.goes_onDev ..

/-- Settles O53: every command goes to a next state, and none changes the queue. -/
theorem everyCommandCompletes : Obligations.EveryCommandCompletes := by
  intro c s
  obtain ⟨t, ht, h⟩ := exec_advances c s
  exact ⟨t, ht, h.pending⟩

/-- Settles O54: a command that is none of those listed leaves the store as it is. -/
theorem onlySaveAndImageCommandsWriteTheStore : Obligations.OnlySaveAndImageCommandsWriteTheStore := by
  intro c s t ht
  obtain ⟨t', ht', h⟩ := exec_advances c s
  obtain rfl : t' = t := Host.Outcome.next.inj (ht'.symm.trans ht)
  have hstore : mayWriteStore c = false → t'.nv = s.nv := h.store
  unfold mayWriteStore at hstore
  split
  case h_21 => simp_all
  all_goals trivial

/-- Settles O55: the fuses of a state grow with the command at the front, and stay while one nanosecond passes. -/
theorem fusesOnlyGrowInEveryStep : Obligations.FusesOnlyGrowInEveryStep := by
  intro f s t hf ht
  unfold step at ht
  split at ht
  case h_1 =>
    cases ht
    exact hf
  case h_2 c rest _ =>
    obtain ⟨t', ht', h⟩ := exec_advances c { s with pending := rest }
    obtain rfl : t' = t := Host.Outcome.next.inj (ht'.symm.trans ht)
    exact hf.trans h.fuses

/-- Settles O1: a queue with a command in front is not empty. -/
theorem stepRunsTheFrontCommand : Obligations.StepRunsTheFrontCommand := by
  intro c rest s h
  unfold step
  rw [h]

end Sys2Proof.Machine
end

section
/-! PROOFS. Sensors, the power measurement and the capping decisions. -/

namespace Sys2Proof.Machine

/-- The two spellings of a test that fails. -/
theorem not_decide_iff {p : Prop} {_ : Decidable p} : (!decide p) = true ↔ ¬ p := by
  rw [Bool.not_eq_true', decide_eq_false_iff_not]

/-! ### Commands of PWR (R68, R630) -/

/-- How a command of PWR goes on after its effect: a status ends it. -/
def Dev.pwrEnd (r : Option Status × Dev) : Dev :=
  match r.1 with
  | some st => r.2.cmdEnd Reg.pwr 0x2104 1 st
  | none => r.2

theorem Dev.pwrCmd_idle (f : Dev → Option Status × Dev) (d : Dev) (h : d.busy 0x2104 = false) :
    d.pwrCmd f = Dev.pwrEnd (f (d.cmdBegin 0x2104)) := by
  refine (if_neg (ne_true_of_eq_false h)).trans ?_
  rcases f (d.cmdBegin 0x2104) with ⟨_ | st, t⟩ <;> rfl

/-- THERM_SAVE on an idle block (R627): only offsets that an accepted point has set are saved. -/
theorem State.thermSave_idle (s : State) (h : s.dev.busy 0x2104 = false) : s.thermSave =
    if s.dev.pwr.offsetsOk = false then s.onDev fun d => (d.cmdBegin 0x2104).cmdEnd Reg.pwr 0x2104 1 .stateConflict
    else { s with nv := { s.nv with thermal := .saved s.dev.pwr.offsets },
                  dev := ((s.dev.cmdBegin 0x2104).setFld 0x2134 16 16 0).cmdEnd Reg.pwr 0x2104 1 .ok } :=
  (if_neg (ne_true_of_eq_false h)).trans (ite_transport id (not_iff_false _) (fun _ => rfl) fun _ => rfl)

/-- Settles O38: samples and decisions by what they find, and the commands of an idle block by their conditions. -/
theorem sensorsAndCappingTakeEffect : Obligations.SensorsAndCappingTakeEffect := by
  intro s d e done
  refine ⟨fun raw => ?temperature, fun m x => ?power, fun est => ?decision, fun n l c => rfl, fun hidle =>
    ⟨?nop, ?thermPoint, ?thermSave, ?psensePoint, ?psenseSave⟩, fun raw => ?pointDone⟩
  case temperature =>
    show Obl.dev s (Dev.tempSample raw d) = _
    rfl
  case power =>
    refine congrArg (Obl.dev s) ?_
    exact ite_transport id (and_congr not_decide_iff Iff.rfl) (fun _ => rfl) fun _ => rfl
  case decision =>
    show Obl.dev s (Dev.decide_ est d) = _
    unfold Dev.decide_
    cases d.pwr.decideAt with
    | none => rfl
    | some t => exact ite_transport (Obl.dev s) Iff.rfl (fun _ => rfl) fun _ => rfl
  case nop => exact congrArg (Obl.dev s) (Dev.pwrCmd_idle _ d hidle)
  case thermPoint =>
    refine (congrArg (Obl.dev s) (Dev.pwrCmd_idle _ d hidle)).trans ?_
    exact ite_transport (fun r => Obl.dev s (Dev.pwrEnd r)) Iff.rfl (fun _ => rfl) fun _ => rfl
  case thermSave =>
    refine (congrArg next (s.thermSave_idle hidle)).trans ?_
    exact apply_ite next _ _ _
  case psensePoint =>
    refine (congrArg (Obl.dev s) (Dev.pwrCmd_idle _ d hidle)).trans ?_
    exact ite_transport (fun r => Obl.dev s (Dev.pwrEnd r)) Iff.rfl (fun _ => rfl) fun _ => rfl
  case psenseSave =>
    refine (congrArg next (if_neg (ne_true_of_eq_false hidle))).trans ?_
    cases d.pwr.points with
    | nil => rfl
    | cons p l =>
      cases l with
      | nil => rfl
      | cons q l =>
        refine ite_transport next Iff.rfl (fun _ => rfl) fun _ => ?_
        cases gainOf p.1 p.2 q.1 q.2 <;> rfl
  case pointDone =>
    show Obl.dev s (Dev.psensePointDone raw d) = _
    unfold Dev.psensePointDone
    cases d.pwr.point with
    | none => rfl
    | some p => exact apply_ite (Obl.dev s) _ _ _

end Sys2Proof.Machine
end

section
/-! PROOFS. Power domains: votes, the entry into Dusk mode and Midnight, and the return. -/

namespace Sys2Proof.Machine

/-! ### The entry into Midnight (R601, R605, R608) -/

/-- What the start of a Midnight entry does to the domain itself, before the device behind it is shut down. -/
def Dev.beginEntry (n step : Nat) (d : Dev) : Dev :=
  ((d.voteDone n).modDom n fun x => { x with state := .entering true step false, at_ := (d.voteDone n).now, wake := false }).bump Reg.pwr 0x058 1

/-- Of the domains, an optical port begins its shutdown and the companion's lines are recalled. -/
theorem Dev.startMidnight_eq (n step : Nat) (hn : n ≤ 76) (d : Dev) : d.startMidnight n step =
    if 36 ≤ n ∧ n < 60 then (d.beginEntry n step).beginShutdown (n - 36)
    else if n = 76 then (d.beginEntry n step).recallCompanion else d.beginEntry n step := by
  unfold Dev.startMidnight
  change (if n < 36 then d.beginEntry n step else if n < 60 then (d.beginEntry n step).beginShutdown (n - 36)
    else if n < 76 then d.beginEntry n step else (d.beginEntry n step).recallCompanion) = _
  generalize d.beginEntry n step = g
  by_cases hport : 36 ≤ n ∧ n < 60
  · rw [if_neg (by omega), if_pos hport.2, if_pos hport]
  · by_cases hlink : n = 76
    · rw [if_neg (by omega), if_neg (by omega), if_neg (by omega), if_neg hport, if_pos hlink]
    · rw [if_neg hport, if_neg hlink]
      by_cases hcluster : n < 36
      · rw [if_pos hcluster]
      · rw [if_neg hcluster, if_neg (by omega), if_pos (by omega)]

theorem Dev.midnightEntry_eq (n : Nat) (d : Dev) : d.midnightEntry n =
    if d.voted n = true then d else if (d.dom n).state = .on then d.startMidnight n 1
    else if (d.dom n).state = .dusk then d.startMidnight n 3 else d := by
  unfold Dev.midnightEntry
  refine ite_congr rfl (fun _ => rfl) fun _ => ?_
  cases (d.dom n).state <;> rfl

/-- An entry step finds no entry under way. -/
theorem Dev.entryStep_none {n : Nat} {d : Dev} (h : ∀ m step u, (d.dom n).state ≠ .entering m step u) : d.entryStep n = d := by
  unfold Dev.entryStep
  split
  · next hst => exact absurd hst (h _ _ _)
  · rfl

section
variable {n step : Nat} {m u : Bool} {d : Dev} (hst : (d.dom n).state = .entering m step u)
include hst

theorem Dev.entryStep_cluster (hn : n < 36) : d.entryStep n = d.clusterStep n m step u := by
  unfold Dev.entryStep
  rw [hst]
  exact if_pos hn

/-- An optical port is in Midnight once it is OFF; wanted again before, it is ON (R608). -/
theorem Dev.entryStep_port (hlo : 36 ≤ n) (hhi : n < 60) : d.entryStep n =
    if (d.port (n - 36)).state = .off then d.modDom n fun y => { y with state := .midnight, at_ := d.now }
    else if d.voted n = true then
      ((((d.modPort (n - 36) fun x => { x with drainAt := none }).pump (n - 36)).modDom n fun y => { y with state := .on }).bump Reg.pwr 0x060 1)
    else d := by
  unfold Dev.entryStep
  rw [hst]
  exact (if_neg (by omega)).trans (if_pos hhi)

theorem Dev.entryStep_wanted (hlo : 60 ≤ n) (hvote : d.voted n = true) :
    d.entryStep n = (d.modDom n fun y => { y with state := .on }).bump Reg.pwr 0x060 1 := by
  unfold Dev.entryStep
  rw [hst]
  exact (if_neg (by omega)).trans ((if_neg (by omega)).trans (if_pos hvote))

/-- A root port is in Midnight once no command of its drive is out. -/
theorem Dev.entryStep_root (hlo : 60 ≤ n) (hhi : n < 76) (hvote : d.voted n = false) : d.entryStep n =
    if ((d.drive (n - 60)).io.any fun c => c.issued.isSome) = true then d
    else (d.rootLink (n - 60) 0).modDom n fun y => { y with state := .midnight, at_ := (d.rootLink (n - 60) 0).now } := by
  unfold Dev.entryStep
  rw [hst]
  exact (if_neg (by omega)).trans ((if_neg (by omega)).trans ((if_neg (by simp [hvote])).trans (if_pos hhi)))

/-- The companion link is in Midnight once every line has been recalled. -/
theorem Dev.entryStep_link (hlo : 76 ≤ n) (hvote : d.voted n = false) : d.entryStep n =
    if d.companionHolds = true then d else (d.linkOff 0).modDom n fun y => { y with state := .midnight, at_ := (d.linkOff 0).now } := by
  unfold Dev.entryStep
  rw [hst]
  exact (if_neg (by omega)).trans ((if_neg (by omega)).trans ((if_neg (by simp [hvote])).trans (if_neg (by omega))))

end

/-! ### The return (R609) -/

/-- The domain is the first in order of those that wait, and its spacing after the last start is over. -/
def Dev.ReturnsNext (d : Dev) (n : Nat) : Prop :=
  d.returnWaits n = true ∧ (∀ m < 77, d.returnWaits m = true → Dev.returnRank n ≤ Dev.returnRank m) ∧
    ∀ m t, d.pwr.returned = some (m, t) → t + Dev.returnGap m n ≤ d.now

theorem Dev.returnsNext_iff (d : Dev) (n : Nat) :
    (d.returnWaits n && ((List.range 77).all fun m => !(d.returnWaits m && decide (Dev.returnRank m < Dev.returnRank n))) &&
      (match d.pwr.returned with | some (m, t) => decide (t + Dev.returnGap m n ≤ d.now) | none => true)) = true ↔ d.ReturnsNext n := by
  rw [Bool.and_eq_true, Bool.and_eq_true, and_assoc]
  refine and_congr Iff.rfl (and_congr ?_ ?_)
  · simp only [List.all_eq_true, List.mem_range, Bool.not_eq_true', Bool.and_eq_false_imp, decide_eq_false_iff_not, not_lt]
  · cases d.pwr.returned with
    | none => simp
    | some x => simp [Prod.ext_iff]

theorem Dev.domainReturn_next {n : Nat} {d : Dev} (h : d.ReturnsNext n) : d.domainReturn n =
    ((d.modDom n fun y => { y with state := .returning, at_ := d.now, wake := false }).modPwr fun p => { p with returned := some (n, d.now) }).voteDone n :=
  if_pos ((d.returnsNext_iff n).mpr h)

theorem Dev.domainReturn_waits {n : Nat} {d : Dev} (h : ¬ d.ReturnsNext n) : d.domainReturn n = d :=
  if_neg (mt (d.returnsNext_iff n).mp h)

/-- Settles O39: votes by what the domain does, an entry by its step, and the events by their guards. -/
theorem powerDomainsTakeEffect : Obligations.PowerDomainsTakeEffect := by
  intro s d e x done start
  have hstart (n step : Nat) (hn : n ≤ 76) : d.startMidnight n step = start n step := Dev.startMidnight_eq n step hn d
  refine ⟨fun hidle => ⟨⟨fun hn => ?noDomain, fun hn hcast => ?cast, fun hn hcast => ?withdrawn⟩, fun p => ?policy⟩,
    fun n => ⟨?duskEntry, ?sample, ?resume⟩, fun n => ⟨?midnight, fun h => ?noEntry, fun m step u hst hn => ⟨fun hu => ?undo, fun hu hnow => ?early, fun hu hnow => ?step⟩,
      fun m step u hst hn => ⟨fun hhi => ?port, fun hlo hvote => ?wanted, fun hlo hhi hvote => ?root, fun hlo hvote => ?link⟩, ⟨fun h => ?first, fun h => ?notFirst⟩,
      fun h => ?notReturning, fun h => ?usable⟩, fun p => ?shutdown⟩
  case noDomain =>
    refine (congrArg (Obl.dev s) (Dev.pwrCmd_idle _ d hidle)).trans ?_
    exact congrArg (fun r => Obl.dev s (Dev.pwrEnd r)) (if_pos hn)
  case cast =>
    refine (congrArg (Obl.dev s) (Dev.pwrCmd_idle _ d hidle)).trans ?_
    refine (congrArg (fun r => Obl.dev s (Dev.pwrEnd r)) ((if_neg (Nat.not_lt.mpr hn)).trans (if_pos hcast))).trans ?_
    refine ite_transport (fun r => Obl.dev s (Dev.pwrEnd r)) Iff.rfl (fun _ => rfl) fun _ => ?_
    exact ite_transport (fun r => Obl.dev s (Dev.pwrEnd r)) Iff.rfl (fun _ => rfl) fun _ => rfl
  case withdrawn =>
    have hno : ¬ bits x 8 8 = 1 := by rw [hcast]; decide
    refine (congrArg (Obl.dev s) (Dev.pwrCmd_idle _ d hidle)).trans ?_
    refine (congrArg (fun r => Obl.dev s (Dev.pwrEnd r)) ((if_neg (Nat.not_lt.mpr hn)).trans (if_neg hno))).trans ?_
    exact ite_transport (fun r => Obl.dev s (Dev.pwrEnd r)) (and_congr Iff.rfl (not_iff_false _)) (fun _ => rfl) fun _ => rfl
  case policy =>
    refine (congrArg (Obl.dev s) (Dev.pwrCmd_idle _ d hidle)).trans ?_
    refine (congrArg (fun r => Obl.dev s (Dev.pwrEnd r)) (ite_not_true _ _ _)).trans ?_
    exact ite_transport (fun r => Obl.dev s (Dev.pwrEnd r)) Iff.rfl (fun _ => rfl) fun _ => rfl
  case duskEntry =>
    refine ite_transport (Obl.dev s) ?_ (fun _ => rfl) fun _ => rfl
    simp only [Bool.and_eq_true, beq_iff_eq, Bool.not_eq_true', decide_eq_true_eq, and_assoc, Dev.clusterEmpty]
    exact Iff.rfl
  case sample =>
    refine ite_transport (Obl.dev s) (and_congr Iff.rfl (and_congr (not_iff_false _) Iff.rfl)) (fun _ => ?_) fun _ => rfl
    refine ite_transport (Obl.dev s) Iff.rfl (fun _ => rfl) fun _ => ?_
    exact ite_transport (Obl.dev s) (not_iff_false _) (fun _ => congrArg (Obl.dev s) (hstart n.val 3 (by omega))) fun _ => rfl
  case resume => exact apply_ite (Obl.dev s) _ _ _
  case midnight =>
    refine (congrArg (Obl.dev s) (Dev.midnightEntry_eq n.val d)).trans ?_
    rw [hstart n.val 1 (by omega), hstart n.val 3 (by omega)]
    refine ite_transport (Obl.dev s) Iff.rfl (fun _ => rfl) fun _ => ?_
    refine ite_transport (Obl.dev s) Iff.rfl (fun _ => rfl) fun _ => ?_
    exact apply_ite (Obl.dev s) _ _ _
  case noEntry => exact congrArg (Obl.dev s) (Dev.entryStep_none h)
  case undo =>
    refine (congrArg (Obl.dev s) ((Dev.entryStep_cluster hst hn).trans (if_pos hu))).trans ?_
    exact apply_ite (Obl.dev s) _ _ _
  case early =>
    refine congrArg (Obl.dev s) ((Dev.entryStep_cluster hst hn).trans ?_)
    exact (if_neg (ne_true_of_eq_false hu)).trans (if_pos hnow)
  case step =>
    refine congrArg (Obl.dev s) ((Dev.entryStep_cluster hst hn).trans ?_)
    refine ((if_neg (ne_true_of_eq_false hu)).trans (if_neg (Nat.not_lt.mpr hnow))).trans ?_
    refine ite_transport id Iff.rfl (fun _ => rfl) fun _ => ?_
    refine ite_transport id (and_congr Iff.rfl (and_congr (not_iff_false _) Iff.rfl)) (fun _ => rfl) fun _ => ?_
    exact ite_transport id Iff.rfl (fun _ => rfl) fun _ => rfl
  case port =>
    refine (congrArg (Obl.dev s) (Dev.entryStep_port hst hn hhi)).trans ?_
    refine ite_transport (Obl.dev s) Iff.rfl (fun _ => rfl) fun _ => ?_
    exact apply_ite (Obl.dev s) _ _ _
  case wanted => exact congrArg (Obl.dev s) (Dev.entryStep_wanted hst hlo hvote)
  case root =>
    refine (congrArg (Obl.dev s) (Dev.entryStep_root hst hlo hhi hvote)).trans ?_
    exact apply_ite (Obl.dev s) _ _ _
  case link =>
    refine (congrArg (Obl.dev s) (Dev.entryStep_link hst hlo hvote)).trans ?_
    exact apply_ite (Obl.dev s) _ _ _
  case first => exact congrArg (Obl.dev s) (Dev.domainReturn_next h)
  case notFirst => exact congrArg (Obl.dev s) (Dev.domainReturn_waits h)
  case notReturning => exact congrArg (Obl.dev s) (if_neg fun k => h k.1)
  case usable =>
    intro wait d1 d2
    rw [← ite_not]
    exact ite_transport (Obl.dev s) ((and_iff_right h).trans Nat.not_lt.symm) (fun _ => rfl) fun _ => rfl
  case shutdown => exact ite_transport (Obl.dev s) (or_congr Iff.rfl (not_iff_false _)) (fun _ => rfl) fun _ => rfl

end Sys2Proof.Machine
end

section
/-! PROOFS. The tables of the router and the shaper. -/

namespace Sys2Proof.Machine

theorem Dev.shpCmd_idle (f : Dev → Status × Dev) (d : Dev) (h : d.busy 0xC104 = false) :
    d.shpCmd f = (f (d.cmdBegin 0xC104)).2.cmdEnd Reg.shp 0xC104 1 (f (d.cmdBegin 0xC104)).1 :=
  if_neg (ne_true_of_eq_false h)

/-- Settles O35: an idle block runs a command's effect and ends it; a write is refused for the values that the statement lists. -/
theorem routerTablesTakeEffect : Obligations.RouterTablesTakeEffect := by
  intro s d x e y n v r rte shp
  let rteAfter (r : Option Status × Dev) : Host.Outcome State Fault Refusal := Obl.dev s (Dev.rteEnd r)
  let shpAfter (r : Status × Dev) : Host.Outcome State Fault Refusal := Obl.dev s (r.2.cmdEnd Reg.shp 0xC104 1 r.1)
  refine ⟨fun hidle => ?router, fun hidle => ⟨?shpNop, fun p c => ⟨?meterRead, ?meterWrite⟩⟩⟩
  case router =>
    have hrun (f : Dev → Option Status × Dev) : Obl.dev s (s.dev.rteCmd f) = rteAfter (f d) := congrArg (Obl.dev s) (Dev.rteCmd_idle f s.dev hidle)
    refine ⟨hrun _, hrun _, (hrun _).trans ?routeWrite, hrun _, (hrun _).trans ?treeWrite⟩
    case routeWrite =>
      refine ite_transport rteAfter ?_ (fun _ => rfl) fun _ => rfl
      simp only [Bool.or_eq_true, decide_eq_true_eq, bne_iff_ne, or_assoc]
      exact Iff.rfl
    case treeWrite => exact ite_transport rteAfter Iff.rfl (fun _ => rfl) fun _ => rfl
  case shpNop => exact congrArg (Obl.dev s) (Dev.shpCmd_idle _ s.dev hidle)
  case meterRead =>
    refine (congrArg (Obl.dev s) (Dev.shpCmd_idle _ s.dev hidle)).trans ?_
    exact ite_transport shpAfter Iff.rfl (fun _ => rfl) fun _ => rfl
  case meterWrite =>
    refine (congrArg (Obl.dev s) (Dev.shpCmd_idle _ s.dev hidle)).trans ?_
    exact ite_transport shpAfter Iff.rfl (fun _ => rfl) fun _ => rfl

end Sys2Proof.Machine
end

section
/-! PROOFS. The frames of circuits and their acknowledgements. -/

namespace Sys2Proof.Machine

/-- A circuit frame at its destination that the meter lets pass (R465, R505): opened if it is protected, and its lines queued. -/
def Dev.acceptFrame (f : CktFrame) (c : Circuit) (o : Option (List Byte × Option (BitVec 13)) × Dev) : Dev :=
  match o.1 with
  | none => (o.2.bump Reg.sec 0x050 1).sendCktAck c f.ftag .keyError 0
  | some (plain, key) =>
    match Dev.cktLines f plain with
    | none => o.2.bump Reg.rte 0x088 1
    | some ls => (o.2.modCoh fun x => { x with posted := x.posted ++ [⟨c.srcNode, some c.part, key, ls, .ok, some (c.srcCkt, f.ftag)⟩] }).tryPosted

/-- The meter of a frame's partition, where its line lies in an extent (R472). -/
def Dev.meterFrame (f : CktFrame) (d : Dev) : Colour × Nat × Dev :=
  match d.extAt (f.line.toNat * 64) with
  | some r => d.shape r.2.part 2 8 f.payload.length
  | none => (.green, 0, d)

/-- The payload of a frame in the clear and the key that it came under (R505). -/
def Dev.openFrame (f : CktFrame) (c : Circuit) (d : Dev) : Option (List Byte × Option (BitVec 13)) × Dev :=
  if f.enc = true then
    match d.openEnc ((Dev.cktBytes { f with label := 0 }).take 8) f.payload c.srcNode none with
    | (some (b, i), d) => (some (b, some i), d)
    | (none, d) => (none, d)
  else (some (f.payload, none), d)

/-- A circuit frame at its destination, by its colour (R465, R474, R505). -/
def Dev.judgeFrame (f : CktFrame) (c : Circuit) (m : Colour × Nat × Dev) : Dev :=
  if m.1 = .red then m.2.2.sendCktAck c f.ftag .policed m.2.1 else Dev.acceptFrame f c (m.2.2.openFrame f c)

/-- The last step of the model's circuit frame, by how it was opened. -/
theorem Dev.acceptFrame_eq (f : CktFrame) (c : Circuit) (d : Dev) :
    (let (opened, d) := if f.enc then
        (match d.openEnc ((Dev.cktBytes { f with label := 0 }).take 8) f.payload c.srcNode none with
          | (some (x, i), d) => (some (x, some i), d)
          | (none, d) => (none, d))
      else (some (f.payload, none), d)
    match opened with
    | none => (d.bump Reg.sec 0x050 1).sendCktAck c f.ftag .keyError 0
    | some (plain, key) =>
      match Dev.cktLines f plain with
      | none => d.bump Reg.rte 0x088 1
      | some ls => (d.modCoh fun x => { x with posted := x.posted ++ [⟨c.srcNode, some c.part, key, ls, .ok, some (c.srcCkt, f.ftag)⟩] }).tryPosted) =
    Dev.acceptFrame f c (d.openFrame f c) := by
  unfold Dev.openFrame
  rcases f.enc with _ | _
  · rfl
  · rcases d.openEnc ((Dev.cktBytes { f with label := 0 }).take 8) f.payload c.srcNode none with ⟨_ | ⟨b, i⟩, t⟩ <;> rfl

section
variable {p : Nat} {f : CktFrame} {d : Dev}

theorem Dev.cktFrame_dropped (h : (d.ckt f.label.toNat).state ≠ .opened ∨ (d.ckt f.label.toNat).inPort ≠ some (Dev.portNo p) ∨
    (d.ckt f.label.toNat).role = .source) : d.cktFrame p f = d.bump Reg.rte 0x088 1 := by
  unfold Dev.cktFrame
  by_cases hclosed : (d.ckt f.label.toNat).state ≠ .opened ∨ (d.ckt f.label.toNat).inPort ≠ some (Dev.portNo p)
  · exact if_pos hclosed
  · have hrole : (d.ckt f.label.toNat).role = .source := (or_assoc.mpr h).resolve_left hclosed
    refine (if_neg hclosed).trans ?_
    rw [hrole]

variable (hstate : (d.ckt f.label.toNat).state = .opened) (hport : (d.ckt f.label.toNat).inPort = some (Dev.portNo p))
include hstate hport

theorem Dev.cktFrame_transit (hrole : (d.ckt f.label.toNat).role = .transit) :
    d.cktFrame p f = d.pushFrame f.label.toNat (Dev.cktBytes { f with label := (d.ckt f.label.toNat).outLabel }) := by
  unfold Dev.cktFrame
  refine (if_neg (by simp [hstate, hport])).trans ?_
  rw [hrole]

theorem Dev.cktFrame_dest (hrole : (d.ckt f.label.toNat).role = .dest) :
    d.cktFrame p f = Dev.judgeFrame f (d.ckt f.label.toNat) (d.meterFrame f) := by
  unfold Dev.cktFrame
  refine (if_neg (by simp [hstate, hport])).trans ?_
  rw [hrole]
  unfold Dev.meterFrame
  rcases d.extAt (f.line.toNat * 64) with _ | ⟨x, r⟩
  case none => exact ite_transport id Iff.rfl (fun _ => rfl) fun _ => Dev.acceptFrame_eq f _ d
  case some =>
    dsimp only
    rcases d.shape r.part 2 8 f.payload.length with ⟨colour, hint, e⟩
    exact ite_transport id Iff.rfl (fun _ => rfl) fun _ => Dev.acceptFrame_eq f _ e

end

section
variable {k : Packet} {d : Dev}

/-- The source entry that an acknowledgement names (R465). -/
def Dev.ackEntry (k : Packet) : Nat := bits k.word.toNat 27 18

/-- The frame without an answer that an acknowledgement names (R465). -/
def Dev.ackFrame (k : Packet) (d : Dev) : Option CktSent :=
  (d.ckt (Dev.ackEntry k)).sent.find? fun x => x.ftag == BitVec.ofNat 10 (bits k.word.toNat 17 8)

theorem Dev.cktAck_unmatched (h : (d.ckt (Dev.ackEntry k)).state ≠ .opened ∨ (d.ckt (Dev.ackEntry k)).role ≠ .source ∨
    (d.ckt (Dev.ackEntry k)).dstNode ≠ k.src ∨ d.ackFrame k = none) : d.cktAck k = d := by
  unfold Dev.cktAck
  by_cases hentry : (d.ckt (Dev.ackEntry k)).state = .opened ∧ (d.ckt (Dev.ackEntry k)).role = .source ∧ (d.ckt (Dev.ackEntry k)).dstNode = k.src
  · have hnone : d.ackFrame k = none := by
      obtain ⟨hstate, hrole, hdst⟩ := hentry
      simpa [hstate, hrole, hdst] using h
    refine (if_pos hentry).trans ?_
    change (match d.ackFrame k with | none => d | some _ => _) = d
    rw [hnone]
  · exact if_neg hentry

theorem Dev.cktAck_matched {x : CktSent} (hstate : (d.ckt (Dev.ackEntry k)).state = .opened) (hrole : (d.ckt (Dev.ackEntry k)).role = .source)
    (hdst : (d.ckt (Dev.ackEntry k)).dstNode = k.src) (hframe : d.ackFrame k = some x) : d.cktAck k =
    let l := Dev.ackEntry k; let c := d.ckt l; let ftag : BitVec 10 := BitVec.ofNat 10 (bits k.word.toNat 17 8); let st := Status.ofCode (BitVec.ofNat 8 k.word.toNat)
    if x.again.isSome = true then d
    else if st = .policed then d.setCkt l { c with sent := c.sent.map fun y =>
      if y.ftag = ftag then { y with again := some (d.now + max 1 (bits k.word.toNat 43 28) * 100) } else y }
    else (((d.setCkt l { c with sent := c.sent.filter fun y => y.ftag != ftag }).endAcc x.acc st []).cktPump l).cktCloseStep l := by
  unfold Dev.cktAck
  refine (if_pos ⟨hstate, hrole, hdst⟩).trans ?_
  change (match d.ackFrame k with | none => d | some _ => _) = _
  rw [hframe]
  refine ite_transport id Iff.rfl (fun _ => rfl) fun _ => ?_
  cases hst : Status.ofCode (BitVec.ofNat 8 k.word.toNat) <;> rfl

end

/-- Settles O34: a frame by the entry that it finds and its colour; acknowledgements and timers by the frame that has no answer. -/
theorem circuitFramesTakeEffect : Obligations.CircuitFramesTakeEffect := by
  intro s d
  refine ⟨fun p f => ?frame, fun k => ⟨fun h => ?unmatched, fun x hstate hrole hdst hframe => ?matched⟩, fun l t => ⟨?timeout, ?resend⟩⟩
  case frame =>
    intro l c m o
    refine congrArg (Obl.dev s) ?_
    show d.cktFrame p.val f = _
    split
    next h => exact Dev.cktFrame_dropped h
    next h =>
      simp only [not_or, not_not] at h
      obtain ⟨hstate, hport, hsource⟩ := h
      split
      next hrole => exact Dev.cktFrame_transit hstate hport hrole
      next htransit =>
        have hrole : c.role = .dest := by cases hc : c.role <;> simp_all
        exact Dev.cktFrame_dest hstate hport hrole
  case unmatched => exact congrArg (Obl.dev s) (Dev.cktAck_unmatched h)
  case matched =>
    refine (congrArg (Obl.dev s) (Dev.cktAck_matched hstate hrole hdst hframe)).trans ?_
    refine ite_transport (Obl.dev s) Iff.rfl (fun _ => rfl) fun _ => ?_
    exact ite_transport (Obl.dev s) Iff.rfl (fun _ => rfl) fun _ => rfl
  case timeout =>
    show Obl.dev s (Dev.cktFrameTimeout l.toNat t d) = _
    dsimp only [Dev.cktFrameTimeout]
    cases (d.ckt l.toNat).sent.find? fun x => x.ftag == t with
    | none => rfl
    | some x =>
      refine ite_transport (Obl.dev s) Iff.rfl (fun _ => rfl) fun _ => ?_
      exact ite_transport (Obl.dev s) Iff.rfl (fun _ => rfl) fun _ => rfl
  case resend =>
    show Obl.dev s (Dev.cktResend l.toNat t d) = _
    unfold Dev.cktResend
    cases (d.ckt l.toNat).sent.find? fun x => x.ftag == t with
    | none => rfl
    | some x =>
      obtain hagain | ⟨r, hagain⟩ := Option.eq_none_or_eq_some x.again
      · simp only [hagain, Option.bind_some, Option.map_none]; rfl
      · simp only [hagain, Option.bind_some, Option.map_some]
        exact ite_transport (Obl.dev s) Iff.rfl (fun _ => rfl) fun _ => rfl

end Sys2Proof.Machine
end

section
/-! PROOFS. The side-band bus, MCTP control and PLDM base. -/

namespace Sys2Proof.Machine

section
variable {d : Dev}

theorem Dev.whenUp_up (f : Dev → Dev) (h : d.portUp = true) : d.whenUp f = f d := if_pos h

theorem Dev.whenUp_down (f : Dev → Dev) (h : d.portUp = false) : d.whenUp f = d := if_neg (ne_true_of_eq_false h)

theorem Dev.ccc_i3c (f : Dev → Dev) (h : d.portUp = true) (hi3c : d.side.i3c = true) : d.ccc f = f d :=
  (Dev.whenUp_up _ h).trans (if_pos hi3c)

theorem Dev.ccc_i2c (f : Dev → Dev) (h : d.portUp = true) (hi2c : d.side.i3c = false) : d.ccc f = d :=
  (Dev.whenUp_up _ h).trans (if_neg (ne_true_of_eq_false hi2c))

end

/-- Settles O48: a port that does not answer takes nothing, one that is no I3C target no common command code; else each command has its effect. -/
theorem sidebandBusAndBaseTakeEffect : Obligations.SidebandBusAndBaseTakeEffect := by
  intro s d ans side
  refine ⟨fun hdown a e n t u => ?down, fun hup =>
    ⟨fun a => ?address, ?rstdaa, fun hi2c e n => ?i2c, fun hi3c => ?i3c, fun e => ⟨?setEid, ?setTid⟩, ?eid, ?uuid, ?version, ?types, ?tid, ?pldmVersion, ?pldmTypes,
      fun t => ?pldmCommands⟩⟩
  case down =>
    have hnone (f : Dev → Dev) : Obl.dev s (d.whenUp f) = .next s := congrArg (Obl.dev s) (Dev.whenUp_down f hdown)
    simp only [List.forall_mem_cons, List.not_mem_nil, false_implies, implies_true, and_true]
    exact ⟨hnone _, hnone _, hnone _, hnone _, hnone _, hnone _, hnone _, hnone _, hnone _, hnone _, hnone _, hnone _, hnone _, hnone _, hnone _, hnone _, hnone _,
      hnone _, hnone _, hnone _, hnone _, hnone _, hnone _⟩
  case i2c =>
    have hnone (f : Dev → Dev) : Obl.dev s (d.ccc f) = .next s := congrArg (Obl.dev s) (Dev.ccc_i2c f hup hi2c)
    simp only [List.forall_mem_cons, List.not_mem_nil, false_implies, implies_true, and_true]
    exact ⟨hnone _, hnone _, hnone _, hnone _, hnone _, hnone _, hnone _, hnone _, hnone _, hnone _⟩
  case i3c =>
    have hrun (f : Dev → Dev) : Obl.dev s (d.ccc f) = Obl.dev s (f d) := congrArg (Obl.dev s) (Dev.ccc_i3c f hup hi3c)
    exact ⟨fun _ => ⟨hrun _, hrun _⟩, fun _ => ⟨hrun _, hrun _⟩, hrun _, hrun _, hrun _, hrun _, hrun _, hrun _⟩
  all_goals have hrun (f : Dev → Dev) : Obl.dev s (d.whenUp f) = Obl.dev s (f d) := congrArg (Obl.dev s) (Dev.whenUp_up f hup)
  case address =>
    have hset : Obl.dev s (d.setDynamic a) = if d.side.dynAddr = 0 ∧ a ≠ 0 then side (fun x => { x with dynAddr := a, i3c := true }) else .next s :=
      (hrun _).trans (apply_ite (Obl.dev s) _ _ _)
    simp only [List.forall_mem_cons, List.not_mem_nil, false_implies, implies_true, and_true]
    exact ⟨hset, hset⟩
  case setEid | setTid => exact (hrun _).trans (apply_ite (Obl.dev s) _ _ _)
  case pldmCommands =>
    refine (hrun _).trans ?_
    unfold Dev.pldmCmds
    cases Dev.pldmCommands t.toNat <;> rfl
  case rstdaa | eid | uuid | version | types | tid | pldmVersion | pldmTypes => exact hrun _

end Sys2Proof.Machine
end

section
/-! PROOFS. The PLDM firmware update. -/

namespace Sys2Proof.Machine

theorem Dev.fwCmd_served {d : Dev} (c : BitVec 8) (f : Dev → Dev) (hup : d.portUp = true) (hserved : d.updateUp = true) : d.fwCmd c f = f d :=
  (Dev.whenUp_up _ hup).trans (if_pos hserved)

theorem Dev.fwCmd_notReady {d : Dev} (c : BitVec 8) (f : Dev → Dev) (hup : d.portUp = true) (hserved : d.updateUp = false) : d.fwCmd c f = d.fwAnswer c 4 [] :=
  (Dev.whenUp_up _ hup).trans (if_neg (ne_true_of_eq_false hserved))

/-- Who may not erase the image region (R647): a component out of its phase, or while another path holds the store. -/
theorem fwComponent_refused_iff (p : PldmPhase) (h : Option StoreHolder) :
    (p ≠ .ready ∨ (!(h.isNone || h == some .pldm)) = true) ↔ ¬ (p = .ready ∧ (h = none ∨ h = some .pldm)) := by
  cases h <;> simp [imp_iff_not_or]

section
variable {s : State} (hup : s.dev.portUp = true) (hserved : s.dev.updateUp = true)
include hup hserved

theorem State.fwComponent_served : s.fwComponent = if s.dev.fw.pldm = .ready ∧ (s.dev.fw.holder = none ∨ s.dev.fw.holder = some .pldm) then
    s.eraseImage.onDev fun d => (d.modFw fun f =>
      { f with pldm := .download, holder := some .pldm, store := .receiving, back := .invalid, offset := 0, verified := false }).fwAnswer 0x14 0 []
    else s.onDev (Dev.fwBad 0x14) := by
  unfold State.fwComponent
  refine (ite_not_of_true hup _ _).trans ((ite_not_of_true hserved _ _).trans ?_)
  exact (if_congr (fwComponent_refused_iff _ _) rfl rfl).trans (ite_not _ _ _)

theorem State.fwData_served (b : List Byte) : s.fwData b = if s.dev.fw.pldm = .download then
    (s.modImage fun m => m.put s.dev.fw.offset (b.take 1024)).onDev (Dev.modFw fun f => { f with offset := f.offset + 1024 }) else s := by
  unfold State.fwData
  simp [hup, hserved]

end

/-- Settles O50: by whether the port answers and type 5 is served, and then each command by its phase. -/
theorem pldmUpdateTakesEffect : Obligations.PldmUpdateTakesEffect := by
  intro s d p ans wrong cmds
  refine ⟨fun hdown => ⟨?down, fun b => ?downData⟩, fun hup hserved => ⟨?notReady, fun b => ?notReadyData⟩, fun hup hserved =>
    ⟨?identifiers, ?parameters, ?request, ?table, ?component, fun b => ?data, ?transferred, ?cancelComponent, ?verify, ?apply, ?activate, ?status, ?cancel⟩⟩
  case down =>
    have hnone (c : BitVec 8) (f : Dev → Dev) : Obl.dev s (d.fwCmd c f) = .next s := congrArg (Obl.dev s) (Dev.whenUp_down _ hdown)
    simp only [cmds, List.forall_mem_cons, List.not_mem_nil, false_implies, implies_true, and_true]
    exact ⟨hnone _ _, hnone _ _, hnone _ _, hnone _ _, congrArg next (ite_not_of_false hdown _ _), hnone _ _, congrArg next (ite_not_of_false hdown _ _), hnone _ _, hnone _ _, hnone _ _,
      hnone _ _, hnone _ _⟩
  case downData => exact congrArg next (if_pos (.inl ((not_iff_false _).mpr hdown)))
  case notReady =>
    have hanswer (c : BitVec 8) (f : Dev → Dev) : Obl.dev s (d.fwCmd c f) = ans id c [4] := congrArg (Obl.dev s) (Dev.fwCmd_notReady c f hup hserved)
    simp only [cmds, List.forall_mem_cons, List.not_mem_nil, false_implies, implies_true, and_true]
    exact ⟨hanswer _ _, hanswer _ _, hanswer _ _, hanswer _ _, congrArg next ((ite_not_of_true hup _ _).trans (ite_not_of_false hserved _ _)), hanswer _ _,
      congrArg next ((ite_not_of_true hup _ _).trans (ite_not_of_false hserved _ _)), hanswer _ _, hanswer _ _, hanswer _ _, hanswer _ _, hanswer _ _⟩
  case notReadyData => exact congrArg next (if_pos (.inr (.inl ((not_iff_false _).mpr hserved))))
  case component => exact (congrArg next (State.fwComponent_served hup hserved)).trans (apply_ite next _ _ _)
  case data => exact (congrArg next (State.fwData_served hup hserved b)).trans (apply_ite next _ _ _)
  case verify =>
    refine (congrArg next ((ite_not_of_true hup _ _).trans (ite_not_of_true hserved _ _))).trans ?_
    refine ite_transport next Iff.rfl (fun _ => rfl) fun _ => ?_
    cases s.imageInfo <;> rfl
  all_goals have hrun (c : BitVec 8) (f : Dev → Dev) : Obl.dev s (d.fwCmd c f) = Obl.dev s (f d) := congrArg (Obl.dev s) (Dev.fwCmd_served c f hup hserved)
  case request | table | transferred | apply | cancel => exact (hrun _ _).trans (apply_ite (Obl.dev s) _ _ _)
  case cancelComponent =>
    refine (hrun _ _).trans ?_
    unfold Dev.fwCancelComponent
    cases hp : d.fw.pldm <;> simp only [p, hp] <;> rfl
  case activate =>
    refine (hrun _ _).trans ?_
    exact ite_transport (Obl.dev s) (and_congr Iff.rfl (and_congr Iff.rfl Option.isNone_iff_eq_none)) (fun _ => rfl) fun _ => rfl
  case identifiers | parameters | status => exact hrun _ _

end Sys2Proof.Machine
end

section
/-! PROOFS. PLDM monitoring, MCTP messages and the log over the side-band. -/

namespace Sys2Proof.Machine

/-- The answer of GetSensorReading to a reading, or to a sensor that the device does not have (R646, R649). -/
def Dev.sensorAnswer (d : Dev) : Option ((Int × Bool) × Dev) → Dev
  | none => d.pldmAnswer 2 0x11 0x80 []
  | some ((v, on), d) => d.pldmAnswer 2 0x11 0 (if on && d.sensorsUp then ([0] : List Byte) ++ leBytes 4 (BitVec.ofInt 32 v).toNat else [2])

theorem Dev.getSensor_eq (d : Dev) (i : Nat) : d.getSensor i = d.sensorAnswer (d.sensorReading i) := by
  unfold Dev.getSensor
  rcases d.sensorReading i with _ | ⟨⟨v, on⟩, e⟩ <;> rfl

section
variable {d : Dev} {i : Nat}

theorem Dev.sensorsUp_eq_false (h : d.dawn.powered = false ∨ d.dawn.step = .hold) : d.sensorsUp = false := by
  unfold Dev.sensorsUp
  rcases h with h | h <;> simp [h]

theorem Dev.sensorsUp_eq_true (hpowered : d.dawn.powered = true) (hstep : d.dawn.step ≠ .hold) : d.sensorsUp = true := by
  simp [Dev.sensorsUp, hpowered, hstep]

theorem effecterPort_none (h : i < 0x100 ∨ 0x118 ≤ i) : Dev.effecterPort i = none := if_neg (by omega)

theorem effecterPort_some (hlow : 0x100 ≤ i) (hhigh : i < 0x118) : Dev.effecterPort i = some (i - 0x100) := if_pos ⟨hlow, hhigh⟩

theorem Dev.setEffecter_none (x : Nat) (hup : d.sensorsUp = true) (h : Dev.effecterPort i = none) : d.setEffecter i x = d.pldmAnswer 2 0x39 0x80 [] := by
  unfold Dev.setEffecter
  rw [h]
  exact ite_not_of_true hup _ _

theorem Dev.setEffecter_some {p : Nat} (x : Nat) (hup : d.sensorsUp = true) (h : Dev.effecterPort i = some p) : d.setEffecter i x =
    if x = 1 then (d.modDom (36 + p) fun x => { x with fabmgr := true }).pldmAnswer 2 0x39 0 []
    else if x = 2 then ((d.modDom (36 + p) fun x => { x with fabmgr := false }).midnightEntry (36 + p)).pldmAnswer 2 0x39 0 []
    else d.pldmAnswer 2 0x39 2 [] := by
  unfold Dev.setEffecter
  rw [h]
  exact ite_not_of_true hup _ _

theorem Dev.getEffecter_none (hup : d.sensorsUp = true) (h : Dev.effecterPort i = none) : d.getEffecter i = d.pldmAnswer 2 0x3A 0x80 [] := by
  unfold Dev.getEffecter
  rw [h]
  exact ite_not_of_true hup _ _

theorem Dev.getEffecter_some {p : Nat} (hup : d.sensorsUp = true) (h : Dev.effecterPort i = some p) :
    d.getEffecter i = d.pldmAnswer 2 0x3A 0 [1, if (d.dom (36 + p)).fabmgr then 1 else 2] := by
  unfold Dev.getEffecter
  rw [h]
  exact ite_not_of_true hup _ _

end

/-- A channel that answers takes its messages (R641, R649). -/
theorem Dev.channel_open {d : Dev} {side : Bool} (h : side = true ∧ d.portUp = true ∨ side = false ∧ d.linkState = 2) :
    ¬ (side = true ∧ (!d.portUp) = true ∨ (!side) = true ∧ d.linkState ≠ 2) := by
  obtain ⟨rfl, h⟩ | ⟨rfl, h⟩ := h <;> simp [h]

section
variable {s : State} {side : Bool} (h : side = true ∧ s.dev.portUp = true ∨ side = false ∧ s.dev.linkState = 2)
include h

/-- A message of a type that its channel does not support is counted twice: received and discarded. -/
theorem State.mctpMessage_unsupported {t : BitVec 8} (b : List Byte) (h0 : t ≠ 0) (h1 : t ≠ 1) (h5 : t ≠ 5) (h6 : t ≠ 6) :
    s.mctpMessage side t b = (if side then s.onDev (Dev.bump Reg.sbm 0x040 1) else s).onDev
      (if side then Dev.bump Reg.sbm 0x048 1 else Dev.bump Reg.cmp 0x060 1) := by
  refine (if_neg (Dev.channel_open h)).trans ?_
  dsimp only
  split
  next heq => exact absurd (BitVec.eq_of_toNat_eq heq) h0
  next heq => exact absurd (BitVec.eq_of_toNat_eq heq) h1
  next heq => exact absurd (BitVec.eq_of_toNat_eq heq) h5
  next heq => exact absurd (BitVec.eq_of_toNat_eq heq) h6
  next => rfl

theorem State.mctpMessage_control (b : List Byte) :
    s.mctpMessage side 0 b = (if side then s.onDev (Dev.bump Reg.sbm 0x040 1) else s).onDev (Dev.mctpControl side b) :=
  if_neg (Dev.channel_open h)

theorem State.mctpMessage_pldm (b : List Byte) : s.mctpMessage side 1 b =
    if side then (s.onDev (Dev.bump Reg.sbm 0x040 1)).pldmRequest b else s.onDev (Dev.bump Reg.cmp 0x060 1) := by
  refine (if_neg (Dev.channel_open h)).trans ?_
  cases side <;> rfl

theorem State.mctpMessage_secured (b : List Byte) : s.mctpMessage side 6 b = if side then s.onDev (Dev.bump Reg.sbm 0x040 1) else s :=
  if_neg (Dev.channel_open h)

end

/-- Settles O49: by the channel that answers; a sensor or effecter by its number and its power, a message by its type. -/
theorem monitoringAndMessagesTakeEffect : Obligations.MonitoringAndMessagesTakeEffect := by
  intro s d ans
  refine ⟨fun hdown r i x q t b => ?down, fun hup =>
    ⟨?pdrInfo, fun r => ?pdr, fun i => ?sensor, fun i => ?states, fun hoff i x => ⟨?setOff, ?getOff⟩, fun hpowered hstep i =>
      ⟨fun hnone x => ⟨?setNone, ?getNone⟩, fun hlow hhigh => ⟨fun x => ?set, ?get⟩⟩, fun q => ?log⟩,
    fun hlink t b => ?linkDown, fun side hside => ⟨fun t b h0 h1 h5 h6 => ?unsupported, fun b => ?control, fun b => ?pldm, fun b => ?spdm, fun b => ?secured⟩⟩
  case down =>
    have hnone (f : Dev → Dev) : Obl.dev s (d.whenUp f) = .next s := congrArg (Obl.dev s) (Dev.whenUp_down f hdown)
    simp only [List.forall_mem_cons, List.not_mem_nil, false_implies, implies_true, and_true]
    exact ⟨hnone _, hnone _, hnone _, hnone _, hnone _, hnone _, hnone _, congrArg next (if_pos (.inl ⟨rfl, (not_iff_false _).mpr hdown⟩))⟩
  case linkDown => exact congrArg next (if_pos (.inr ⟨rfl, hlink⟩))
  case unsupported =>
    refine (congrArg next (State.mctpMessage_unsupported hside b h0 h1 h5 h6)).trans ?_
    cases side <;> rfl
  case control =>
    refine (congrArg next (State.mctpMessage_control hside b)).trans ?_
    rcases b with _ | ⟨_, _ | ⟨c, l⟩⟩
    · cases side <;> rfl
    · cases side <;> rfl
    · unfold Dev.mctpControl
      dsimp only
      generalize c.toNat = n
      rcases n with _ | _ | _ | _ | _ | _ | n <;> cases side <;> rfl
  case pldm =>
    refine (congrArg next (State.mctpMessage_pldm hside b)).trans ?_
    cases side <;> rfl
  case spdm =>
    refine (congrArg next (if_neg (Dev.channel_open hside))).trans ?_
    rcases b with _ | ⟨_, _ | ⟨c, l⟩⟩ <;> cases side <;> rfl
  case secured =>
    refine (congrArg next (State.mctpMessage_secured hside b)).trans ?_
    cases side <;> rfl
  all_goals have hrun (f : Dev → Dev) : Obl.dev s (d.whenUp f) = Obl.dev s (f d) := congrArg (Obl.dev s) (Dev.whenUp_up f hup)
  case pdrInfo => exact hrun _
  case pdr => exact (hrun _).trans (apply_ite (Obl.dev s) _ _ _)
  case sensor =>
    intro n up val
    refine (hrun _).trans ((congrArg (Obl.dev s) (Dev.getSensor_eq d i.toNat)).trans ?_)
    let answered (r : Option ((Int × Bool) × Dev)) : Host.Outcome State Fault Refusal := Obl.dev s (d.sensorAnswer r)
    refine ite_transport answered Iff.rfl (fun _ => rfl) fun _ => ?_
    refine ite_transport answered Iff.rfl (fun h => ?_) fun _ => ?_
    · rfl
    refine ite_transport answered Iff.rfl (fun _ => rfl) fun _ => ?_
    refine ite_transport answered Iff.rfl (fun _ => rfl) fun _ => ?_
    exact ite_transport answered Iff.rfl (fun _ => rfl) fun _ => rfl
  case states =>
    refine (hrun _).trans ?_
    refine ite_transport (Obl.dev s) Iff.rfl (fun _ => rfl) fun _ => ?_
    refine ite_transport (Obl.dev s) Iff.rfl (fun _ => rfl) fun _ => ?_
    exact ite_transport (Obl.dev s) Iff.rfl (fun _ => rfl) fun _ => rfl
  case setOff | getOff => exact (hrun _).trans (congrArg (Obl.dev s) (ite_not_of_false (Dev.sensorsUp_eq_false hoff) _ _))
  case log =>
    refine (hrun _).trans ?_
    dsimp only [Dev.pldmLog]
    generalize List.find? _ _ = found
    cases found <;> rfl
  all_goals have hanswers := Dev.sensorsUp_eq_true hpowered hstep
  case setNone => exact (hrun _).trans (congrArg (Obl.dev s) (Dev.setEffecter_none x.toNat hanswers (effecterPort_none hnone)))
  case getNone => exact (hrun _).trans (congrArg (Obl.dev s) (Dev.getEffecter_none hanswers (effecterPort_none hnone)))
  case get => exact (hrun _).trans (congrArg (Obl.dev s) (Dev.getEffecter_some hanswers (effecterPort_some hlow hhigh)))
  case set =>
    refine (hrun _).trans ((congrArg (Obl.dev s) (Dev.setEffecter_some x.toNat hanswers (effecterPort_some hlow hhigh))).trans ?_)
    refine ite_transport (Obl.dev s) (BitVec.toNat_inj (x := x) (y := 1)) (fun _ => rfl) fun _ => ?_
    exact ite_transport (Obl.dev s) (BitVec.toNat_inj (x := x) (y := 2)) (fun _ => rfl) fun _ => rfl

end Sys2Proof.Machine
end

section
/-! PROOFS. SPDM sessions, the debug port and the owner's messages. -/

namespace Sys2Proof.Machine

/-- Settles O41: requests by what is served, sessions by their state, the side-band messages by their session and the fuses; the report block by block. -/
theorem spdmSessionsTakeEffect : Obligations.SpdmSessionsTakeEffect := by
  intro s d f
  refine ⟨fun v c b => ?request, fun v m => ?keyExchange, fun i leaf ok => ?finish, fun i => ?endSession, fun i => ⟨?beatNone, ?beat⟩, fun ses nonce => ?measurements,
    fun i => ⟨?outside, fun hsession => ⟨?challenge, fun g => ⟨?unlock, ?disable⟩, fun k => ?owner⟩⟩, ?portAccess⟩
  case request =>
    refine congrArg (Obl.dev s) ?_
    refine ite_transport id (not_iff_false _) (fun _ => rfl) fun _ => ?_
    exact ite_transport id (not_iff_false _) (fun _ => rfl) fun _ => rfl
  case keyExchange =>
    refine congrArg (Obl.dev s) ?_
    refine ite_transport id (not_iff_false _) (fun _ => rfl) fun _ => ?_
    cases v <;> rfl
  case finish =>
    show Obl.dev s (Dev.finish i leaf ok d) = _
    unfold Dev.finish
    cases d.session? i with
    | none => rfl
    | some x =>
      refine ite_transport (Obl.dev s) Iff.rfl (fun _ => rfl) fun _ => ?_
      rcases x with ⟨via, mutualAuth, secured, lastBeat, y⟩
      cases via <;> exact ite_transport (Obl.dev s) (or_congr (not_iff_false _) (and_congr Iff.rfl (not_iff_false _))) (fun _ => rfl) fun _ => rfl
  case endSession => rfl
  case beatNone =>
    intro h
    show Obl.dev s (Dev.heartbeatMissed i d) = _
    unfold Dev.heartbeatMissed
    rw [h]
    rfl
  case beat =>
    intro x h
    show Obl.dev s (Dev.heartbeatMissed i d) = _
    unfold Dev.heartbeatMissed
    rw [h]
    exact apply_ite (Obl.dev s) _ _ _
  case measurements =>
    refine ite_transport (Obl.dev s) (not_iff_false _) (fun _ => rfl) fun _ => ?_
    cases ses with
    | none => rfl
    | some i =>
      dsimp only
      generalize (Dev.modSec (fun x => { x with reports := x.reports + 1 }) d) = e
      cases e.tenantOf i with
      | none => rfl
      | some p =>
        obtain hp | ⟨x, hp⟩ := Option.eq_none_or_eq_some (e.part? p)
        · simp only [hp, Option.bind_some, Option.map_none]
          rfl
        · simp only [hp, Option.bind_some, Option.map_some]
          rfl
  case outside =>
    intro h g k
    exact ⟨congrArg (Obl.dev s) (ite_not_of_false h _ _), congrArg (Obl.dev s) (ite_not_of_false h _ _), congrArg next (ite_not_of_false h _ _), congrArg next (ite_not_of_false h _ _)⟩
  case challenge => exact congrArg (Obl.dev s) (ite_not_of_true hsession _ _)
  case unlock =>
    refine congrArg (Obl.dev s) ((ite_not_of_true hsession _ _).trans ?_)
    exact ite_transport id (or_congr Iff.rfl (or_congr (not_iff_false _) Iff.rfl)) (fun _ => rfl) fun _ => rfl
  case disable =>
    refine (congrArg next (ite_not_of_true hsession _ _)).trans ?_
    exact ite_transport next (not_iff_false _) (fun _ => rfl) fun _ => rfl
  case owner =>
    refine (congrArg next (ite_not_of_true hsession _ _)).trans ?_
    exact ite_transport next Iff.rfl (fun _ => rfl) fun _ => rfl
  case portAccess => exact apply_ite (Obl.dev s) _ _ _

end Sys2Proof.Machine
end

section
/-! PROOFS. The control complexes, the ridge line and their watchdogs. -/

namespace Sys2Proof.Machine

/-- How a command of CTL goes on after its effect: a status ends it. -/
def Dev.ctlEnd (r : Option Status × Dev) : Dev :=
  match r.1 with
  | some st => r.2.cmdEnd Reg.ctl 0x4108 1 st
  | none => r.2

theorem Dev.ctlCmd_idle (f : Dev → Option Status × Dev) (d : Dev) (h : d.busy 0x4108 = false) : d.ctlCmd f = Dev.ctlEnd (f (d.cmdBegin 0x4108)) := by
  refine (if_neg (ne_true_of_eq_false h)).trans ?_
  rcases f (d.cmdBegin 0x4108) with ⟨_ | st, t⟩ <;> rfl

/-- A complex that fails a check, by its role (R534). -/
theorem Dev.complexFails_eq (h : Half) (cause : Nat) (d : Dev) : d.complexFails h cause =
    match (d.cplx h).role with | .active => d.release h cause | .standby => d.enterResync h | _ => d := by
  unfold Dev.complexFails
  cases (d.cplx h).role <;> rfl

/-- Settles O43: by BUSY, by the orders that a complex gives, by the power of the halves, and then by the roles and the times. -/
theorem controlComplexEventsTakeEffect : Obligations.ControlComplexEventsTakeEffect := by
  intro s h d e o done wake
  refine ⟨fun hidle => ⟨?nop, ?switchover, ?resync⟩, fun i => ⟨fun horders => ?inputWaits, fun horders => ?input⟩, fun csn eg => ?message, ?send, fun m => ?status, ?takeover, ?peerLost,
    ⟨?claim, ?claimWait⟩, fun hoff => ?unpowered, fun hon => ⟨?mismatch, ?memory, ?warning, ?expiry, ?resyncDone⟩⟩
  case nop => exact congrArg (Obl.dev s) (Dev.ctlCmd_idle _ d hidle)
  case switchover =>
    refine (congrArg (Obl.dev s) (Dev.ctlCmd_idle _ d hidle)).trans ?_
    exact ite_transport (fun r => Obl.dev s (Dev.ctlEnd r)) (or_congr (not_iff_false _) Iff.rfl) (fun _ => rfl) fun _ => rfl
  case resync =>
    refine (congrArg (Obl.dev s) (Dev.ctlCmd_idle _ d hidle)).trans ?_
    exact ite_transport (fun r => Obl.dev s (Dev.ctlEnd r)) Iff.rfl (fun _ => rfl) fun _ => rfl
  case inputWaits => exact congrArg (Obl.dev s) (ite_not_of_false horders _ _)
  case input => exact congrArg (Obl.dev s) (ite_not_of_true horders _ _)
  case message => exact apply_ite (Obl.dev s) _ _ _
  case send => exact ite_transport (Obl.dev s) (or_congr (not_iff_false _) Iff.rfl) (fun _ => rfl) fun _ => rfl
  case status =>
    refine ite_transport (Obl.dev s) (not_iff_false _) (fun _ => rfl) fun _ => congrArg (Obl.dev s) ?_
    cases h
    all_goals
      refine ite_transport id Iff.rfl (fun _ => rfl) fun _ => ?_
      refine ite_transport id Iff.rfl (fun _ => rfl) fun _ => ?_
      exact ite_transport id (and_congr Iff.rfl (and_congr (not_iff_false _) Iff.rfl)) (fun _ => rfl) fun _ => rfl
  case takeover =>
    show wake (Dev.ridgeTakeover d) = _
    unfold Dev.ridgeTakeover
    cases d.ctl.faultAt <;> rfl
  case peerLost => exact apply_ite (Obl.dev s) _ _ _
  case claim => exact congrArg wake (ite_transport id (not_iff_false _) (fun _ => rfl) fun _ => rfl)
  case claimWait =>
    refine congrArg wake (ite_transport id Iff.rfl (fun _ => rfl) fun _ => ?_)
    exact (ite_transport id (not_iff_false _) (fun _ => rfl) fun _ => rfl)
  case unpowered =>
    simp only [List.forall_mem_cons, List.not_mem_nil, false_implies, implies_true, and_true]
    have hstop : (!d.dawn.powered) = true := (not_iff_false _).mpr hoff
    exact ⟨congrArg (Obl.dev s) (if_neg (ne_true_of_eq_false hoff)), congrArg (Obl.dev s) (if_pos hstop), congrArg (Obl.dev s) (if_pos (.inr hstop)),
      congrArg (Obl.dev s) (if_pos (.inr hstop)), congrArg (Obl.dev s) (if_neg fun ⟨_, _, hpowered⟩ => ne_true_of_eq_false hoff hpowered)⟩
  case mismatch => exact congrArg (Obl.dev s) ((if_pos hon).trans (Dev.complexFails_eq h 1 d))
  case memory => exact congrArg (Obl.dev s) ((ite_not_of_true hon _ _).trans (Dev.complexFails_eq h 2 _))
  case warning =>
    exact ite_transport (Obl.dev s) (or_iff_left (mt (not_iff_false _).mp (ne_false_of_eq_true hon))) (fun _ => rfl) fun _ => rfl
  case expiry =>
    refine ite_transport (Obl.dev s) (or_iff_left (mt (not_iff_false _).mp (ne_false_of_eq_true hon))) (fun _ => rfl) fun _ => ?_
    exact congrArg (Obl.dev s) (Dev.complexFails_eq h 3 d)
  case resyncDone =>
    exact ite_transport (Obl.dev s) (and_congr Iff.rfl (and_iff_left hon)) (fun _ => rfl) fun _ => rfl

end Sys2Proof.Machine
end

section
/-! PROOFS. The control messages of a tenant's session, and quiet mode. -/

namespace Sys2Proof.Machine

section
variable {d : Dev} {i : Nat}

theorem Dev.tenantMsg_outside (code : BitVec 8) (f : PartId → Dev → Dev) (h : d.tenantOf i = none) : d.tenantMsg i code f = d.answerMsg code .malformed [] := by
  unfold Dev.tenantMsg
  rw [h]

theorem Dev.tenantMsg_inside {p : PartId} (code : BitVec 8) (f : PartId → Dev → Dev) (h : d.tenantOf i = some p) : d.tenantMsg i code f = f p d := by
  unfold Dev.tenantMsg
  rw [h]

end

/-! ### LOG_READ of a tenant (R515) -/

/-- The records that a tenant's LOG_READ can answer with (R515). -/
def Dev.tenantRecords (p : PartId) (seq : Word32) (d : Dev) : List LogRec :=
  ((d.ras.at d.strapHalf).log ++ (d.ras.at (otherHalf d.strapHalf)).log).filter fun e => recordPart e == some p.toNat && decide (seq.toNat ≤ e.seq.toNat)

/-- The answer to a tenant's LOG_READ that has found a record, or none. -/
def Dev.answerRecord (d : Dev) : Option LogRec → Dev
  | some e => d.answerMsg 0x07 .ok (lineBytes (tenantView e))
  | none => d.answerMsg 0x07 .stateConflict []

/-- The model's search keeps the lowest SEQ that it has met. -/
theorem Dev.tenantLog_eq (p : PartId) (q : Word32) (d : Dev) : d.tenantLog p q = d.answerRecord ((d.tenantRecords p q).argmin fun e => e.seq.toNat) := by
  unfold Dev.tenantLog
  have hstep : (fun (b : Option LogRec) e => match b with | some x => if e.seq.toNat < x.seq.toNat then some e else b | none => some e) =
      List.argAux fun b c => b.seq.toNat < c.seq.toNat := by
    funext b e
    cases b <;> rfl
  show d.answerRecord (List.foldl (fun (b : Option LogRec) e => match b with | some x => if e.seq.toNat < x.seq.toNat then some e else b | none => some e) none _) = _
  rw [hstep]
  rfl

/-- Settles O42: a message by its session, a borrowed block by its BUSY, the log by the lowest SEQ; the slots and the held results by their times. -/
theorem tenantMessagesTakeEffect : Obligations.TenantMessagesTakeEffect := by
  intro s i p d
  refine ⟨fun houtside a k x g c y w q => ?outside, fun hinside => ⟨fun a => ?install, fun k => ?destroy, fun x g => ?accept, fun q => ⟨?logNone, ?log⟩, ?commands⟩,
    ?slot, fun n => ⟨?releaseAnswer, ?releaseResult⟩⟩
  case outside =>
    have hrefused (code : BitVec 8) (f : PartId → Dev → Dev) : Obl.dev s (d.tenantMsg i code f) = Obl.dev s (d.answerMsg code .malformed []) :=
      congrArg (Obl.dev s) (Dev.tenantMsg_outside code f houtside)
    simp only [List.forall_mem_cons, List.not_mem_nil, false_implies, implies_true, and_true]
    exact ⟨hrefused _ _, hrefused _ _, hrefused _ _, hrefused _ _, hrefused _ _, hrefused _ _, hrefused _ _⟩
  case slot =>
    show Obl.dev s (Dev.quietIssue p d) = _
    unfold Dev.quietIssue
    cases d.part? p with
    | none => rfl
    | some r => exact ite_transport (Obl.dev s) (or_congr (not_iff_false _) Iff.rfl) (fun _ => rfl) fun _ => rfl
  case releaseAnswer =>
    intro h hheld
    show Obl.dev s (Dev.quietRelease p n d) = _
    unfold Dev.quietRelease
    generalize hfound : List.find? _ _ = found
    obtain rfl : found = some h := hfound.symm.trans hheld
    exact apply_ite (Obl.dev s) _ _ _
  case releaseResult =>
    intro hnone
    show Obl.dev s (Dev.quietRelease p n d) = _
    unfold Dev.quietRelease
    generalize hfound : List.find? _ _ = found
    obtain rfl : found = none := hfound.symm.trans hnone
    refine congrArg (fun f => Obl.dev s (d.modXlt fun x => { x with accs := x.accs.map f })) (funext fun a => ?_)
    cases a.state <;> rfl
  all_goals have hrun (code : BitVec 8) (f : PartId → Dev → Dev) : Obl.dev s (d.tenantMsg i code f) = Obl.dev s (f p d) :=
      congrArg (Obl.dev s) (Dev.tenantMsg_inside code f hinside)
  case install =>
    refine (hrun _ _).trans (congrArg (Obl.dev s) ?_)
    refine ite_transport id Iff.rfl (fun _ => rfl) fun _ => ?_
    refine ite_transport id Iff.rfl (fun _ => rfl) fun _ => ?_
    refine ite_transport id Iff.rfl (fun _ => rfl) fun _ => ?_
    generalize List.find? _ _ = free
    cases free <;> rfl
  case destroy => exact hrun _ _
  case accept => exact hrun _ _
  case logNone =>
    intro hnone
    refine (hrun _ _).trans (congrArg (Obl.dev s) ((Dev.tenantLog_eq p q d).trans ?_))
    rw [show d.tenantRecords p q = [] from hnone]
    rfl
  case log =>
    intro hsome
    obtain ⟨e, he⟩ : ∃ e, (d.tenantRecords p q).argmin (fun e => e.seq.toNat) = some e := Option.ne_none_iff_exists'.mp (mt List.argmin_eq_none.mp hsome)
    refine ⟨e, List.argmin_mem he, fun x hx => List.le_of_mem_argmin (f := fun e => e.seq.toNat) hx he, (hrun _ _).trans (congrArg (Obl.dev s) ((Dev.tenantLog_eq p q d).trans ?_))⟩
    exact congrArg d.answerRecord he
  case commands =>
    intro run
    have hborrow (msg : WaitMsg) (page sts base : Nat) (code : BitVec 8) (image : Nat) (f : Dev → Option Status × Dev) :
        Obl.dev s (d.borrow msg page sts 1 base code image f) = run msg page sts base code image f := by
      refine ite_transport (Obl.dev s) Iff.rfl (fun _ => rfl) fun _ => ?_
      dsimp only
      rcases f _ with ⟨_ | st, e⟩ <;> rfl
    refine ⟨fun c x => ⟨?xlt, ?opq⟩, fun w => (hrun _ _).trans (hborrow _ _ _ _ _ _ _)⟩
    case xlt =>
      refine (hrun _ _).trans ?_
      unfold Dev.xltMsg
      refine (hborrow _ _ _ _ _ _ _).trans ?_
      generalize fieldOf c 3 0 = n
      rcases n with _ | _ | _ | _ | _ | _ | _ | _ | _ | n <;> rfl
    case opq =>
      refine (hrun _ _).trans ?_
      unfold Dev.opqMsg
      refine (hborrow _ _ _ _ _ _ _).trans ?_
      generalize fieldOf c 3 0 = n
      rcases n with _ | _ | _ | _ | _ | _ | _ | _ | _ | n <;> rfl

end Sys2Proof.Machine
end

section
/-! PROOFS. The link's timers and the commands of a port. -/

namespace Sys2Proof.Machine

/-- How a command of FAB.PORT_CMD goes on after its effect: a status ends it. -/
def Dev.portEnd (p : Nat) (r : Option Status × Dev) : Dev :=
  match r.1 with
  | some st => r.2.cmdEnd (Reg.fab p) (Dev.fabA p + 0x10C) 1 st
  | none => r.2

theorem Dev.portEnd_done (p : Nat) (st : Status) (d : Dev) : Dev.portEnd p (some st, d) = d.cmdEnd (Reg.fab p) (Dev.fabA p + 0x10C) 1 st := rfl

theorem Dev.portEnd_waits (p : Nat) (d : Dev) : Dev.portEnd p (none, d) = d := rfl

theorem Dev.portCmd_idle (p : Nat) (f : Dev → Option Status × Dev) (d : Dev) (h : d.busy (Dev.fabA p + 0x10C) = false) :
    d.portCmd p f = Dev.portEnd p (f (d.cmdBegin (Dev.fabA p + 0x10C))) := by
  refine (if_neg (ne_true_of_eq_false h)).trans ?_
  rcases f (d.cmdBegin (Dev.fabA p + 0x10C)) with ⟨_ | st, t⟩ <;> rfl

theorem Dev.port_cmdBegin (sts p : Nat) (d : Dev) : (d.cmdBegin sts).port p = d.port p := rfl

/-- RETRAIN by the state of the port (R438). -/
theorem Dev.retrain_eq (p : Nat) (w : BitVec 2) (half : Bool) (d : Dev) : d.retrain p w half =
    if (d.port p).state ∈ [LinkState.active, .quiesce, .tune, .align, .down] then
      (none, (d.modPort p fun x => { x with cmdWaits := true }).startReset p ⟨1, if w = 3 then none else some w, half⟩)
    else (some .stateConflict, d) := by
  unfold Dev.retrain
  cases (d.port p).state <;> rfl

/-- Settles O32: a timer whose time has come has its effect, and a port command its effect in the states that take it. -/
theorem linkTimersAndPortCommandsTakeEffect : Obligations.LinkTimersAndPortCommandsTakeEffect := by
  intro s p d n x sts lives
  refine ⟨fun f l hreplay hlives hdue => ?ackTimer, fun q hlives hgap => ?sreq, fun t hsince hstate hdue => ?coalesce, fun husable hdue => ?status,
    fun t hleak hlives hdue => ?leak, fun hidle => ⟨fun w h => ?retrain, ?testStart, ?testStop, ?clearHeld⟩⟩
  case ackTimer =>
    show Obl.dev s (Dev.ackExpiry n d) = _
    dsimp only [Dev.ackExpiry]
    rw [show (d.port n).replay = f :: l from hreplay]
    exact congrArg (Obl.dev s) (if_pos ⟨hlives, hdue⟩)
  case sreq => exact congrArg (Obl.dev s) (if_pos ⟨hlives, hgap⟩)
  case coalesce =>
    show Obl.dev s (Dev.coalesce n d) = _
    dsimp only [Dev.coalesce]
    rw [show (d.port n).ackSince = some t from hsince]
    exact congrArg (Obl.dev s) (if_pos ⟨hstate, hdue⟩)
  case status => exact congrArg (Obl.dev s) (if_pos ⟨husable, hdue⟩)
  case leak =>
    show Obl.dev s (Dev.leakReset n d) = _
    dsimp only [Dev.leakReset]
    rw [show (d.port n).leakAt = some t from hleak]
    exact congrArg (Obl.dev s) (if_pos ⟨hlives, hdue⟩)
  all_goals
    have hrun (f : Dev → Option Status × Dev) : Obl.dev s (d.portCmd n f) = Obl.dev s (Dev.portEnd n (f (d.cmdBegin sts))) :=
      congrArg (Obl.dev s) (Dev.portCmd_idle n f d hidle)
  case retrain =>
    refine (hrun _).trans ((congrArg (fun r => Obl.dev s (Dev.portEnd n r)) (Dev.retrain_eq n w h _)).trans ?_)
    exact ite_transport (fun r => Obl.dev s (Dev.portEnd n r)) Iff.rfl (fun _ => congrArg (Obl.dev s) (Dev.portEnd_waits n _))
      fun _ => congrArg (Obl.dev s) (Dev.portEnd_done n _ _)
  case testStart | testStop =>
    refine (hrun _).trans ?_
    exact ite_transport (fun r => Obl.dev s (Dev.portEnd n r)) Iff.rfl (fun _ => congrArg (Obl.dev s) (Dev.portEnd_waits n _))
      fun _ => congrArg (Obl.dev s) (Dev.portEnd_done n _ _)
  case clearHeld =>
    refine (hrun _).trans ?_
    exact ite_transport (fun r => Obl.dev s (Dev.portEnd n r)) Iff.rfl (fun _ => congrArg (Obl.dev s) (Dev.portEnd_done n _ _))
      fun _ => congrArg (Obl.dev s) (Dev.portEnd_done n _ _)

end Sys2Proof.Machine
end

section
/-! PROOFS. The steps of a link reset. -/

namespace Sys2Proof.Machine

@[simp] theorem Dev.port_modPort (p : Nat) (f : Port → Port) (d : Dev) : (d.modPort p f).port p = f (d.port p) :=
  (Tbl.get_set _ _ _ _ _).trans (if_pos rfl)

/-- The test that a port sends (R404, R426): its seed is the one agreed before. -/
theorem Dev.sendTest_eq (p : Nat) (d : Dev) : d.sendTest p = (d.modPort p fun x => { x with testBad := false }).emit
    (.frame (Dev.portNo p) (Obl.testFrame (prbs31 (d.port p).seed 244))) := by
  dsimp only [Dev.sendTest]
  rw [Dev.port_modPort]
  rfl

section
variable {p : Nat} {d : Dev}

/-- Light ends on a port that was in no resting state (R423). -/
theorem Dev.darkCheck_ended (hdark : (d.port p).state ≠ .dark) (hoff : (d.port p).state ≠ .off) (hheld : (d.port p).state ≠ .held) :
    d.darkCheck p false = d.enter p .dark := by
  unfold Dev.darkCheck
  dsimp only
  split
  next h => exact absurd h hdark
  next h => exact absurd h hoff
  next h => exact absurd h hheld
  next => rfl

theorem Dev.darkCheck_light (hdark : (d.port p).state = .dark) (hdrain : (d.port p).drainAt = none) (hdue : (d.port p).stepAt + 1000000 ≤ d.now) :
    d.darkCheck p true = d.startReset p ⟨9, none, false⟩ := by
  unfold Dev.darkCheck
  dsimp only
  rw [hdark]
  exact if_pos ⟨rfl, Option.isNone_iff_eq_none.mpr hdrain, hdue⟩

theorem Dev.lossOfLock_locked (h : (d.port p).state ∈ [LinkState.negotiate, .verify, .resume, .active, .test]) :
    d.lossOfLock p = d.startReset p ⟨5, none, false⟩ := by
  unfold Dev.lossOfLock
  revert h
  cases (d.port p).state <;> intro h
  case negotiate | verify | resume | active | test => rfl
  all_goals exact absurd h (by decide)

end

/-- Settles O31: each step in the state and at the time that the statement names. -/
theorem linkResetStepsTakeEffect : Obligations.LinkResetStepsTakeEffect := by
  intro s p d n x test
  have htest (e : Dev) : e.sendTest n = test e := Dev.sendTest_eq n e
  refine ⟨fun hstate hend => ?quiesce, fun m hstate => ?tune, fun m hstate => ?align, fun b k hstate hts hk hstep => ?negotiate, fun bad hstate hverdict hdue => ?verify,
    fun hstate hseen hold => ?resume, fun k hlimit hdue => ?limit, fun hstate hdrain hdue => ?dark, fun hdark hoff hheld => ?darkens, fun hstate => ?lock, fun hstate hdrain hdue => ?down,
    fun t hdrain hend => ?drained⟩
  case quiesce => exact congrArg (Obl.dev s) (if_pos ⟨hstate, hend⟩)
  case tune => exact congrArg (Obl.dev s) (if_neg (not_not_intro hstate))
  case align => exact congrArg (Obl.dev s) (if_neg (not_not_intro hstate))
  case negotiate =>
    intro lead pr pw width mask e hlead
    show Obl.dev s (Dev.negotiateEnd n d) = _
    dsimp only [Dev.negotiateEnd]
    rw [show (d.port n).peerTs = some ⟨b, k⟩ from hts]
    exact (congrArg (Obl.dev s) (if_pos ⟨hstate, hk, hstep, hlead⟩)).trans (congrArg (Obl.dev s) (htest _))
  case verify =>
    refine (congrArg (Obl.dev s) (if_neg (not_or.mpr ⟨not_not_intro hstate, not_or.mpr ⟨not_not_intro hverdict, Nat.not_lt.mpr hdue⟩⟩))).trans ?_
    have hpass : (if bad = 0 ∧ ¬ x.testBad = true then 1 else 2 : BitVec 2) = if bad = 0 ∧ x.testBad = false then 1 else 2 :=
      if_congr (and_congr Iff.rfl (iff_of_eq (Bool.not_eq_true _))) rfl rfl
    exact congrArg (fun v => Obl.dev s (((d.modPort n fun y => { y with verdict := v, badRx := bad, goodRx := y.goodRx &&& ~~~bad }).sendTs n).verdicts n)) hpass
  case resume =>
    refine (congrArg (Obl.dev s) (if_pos ⟨hstate, hseen, ne_true_of_eq_false hold⟩)).trans ?_
    cases (d.port n).trigger <;> rfl
  case limit =>
    show Obl.dev s (Dev.stepExpiry n d) = _
    dsimp only [Dev.stepExpiry]
    rw [show Dev.stepLimit (d.port n).state = some k from hlimit]
    exact congrArg (Obl.dev s) (if_pos hdue)
  case dark => exact congrArg (Obl.dev s) (Dev.darkCheck_light hstate hdrain hdue)
  case darkens => exact congrArg (Obl.dev s) (Dev.darkCheck_ended hdark hoff hheld)
  case lock => exact congrArg (Obl.dev s) (Dev.lossOfLock_locked hstate)
  case down => exact congrArg (Obl.dev s) (if_pos ⟨hstate, Option.isNone_iff_eq_none.mpr hdrain, hdue⟩)
  case drained =>
    show Obl.dev s (Dev.drainEnd n d) = _
    dsimp only [Dev.drainEnd]
    rw [show (d.port n).drainAt = some t from hdrain, htest]
    have hdone : (x.replay.isEmpty ∧ x.rxq.isEmpty ∧ x.reorder.isEmpty) ∨ d.now ≥ t + 100000 := by
      simpa only [List.isEmpty_iff] using hend
    exact congrArg (Obl.dev s) (if_pos hdone)

end Sys2Proof.Machine
end

section
/-! PROOFS. What a received link frame does. -/

namespace Sys2Proof.Machine

/-- A device that has counted the corrected symbols of a frame (R402). -/
def Dev.countCorrected (p : Nat) (f : LinkFrame) (d : Dev) : Dev := if f.corrected = 0 then d else d.bump (Reg.fab p) 0x058 f.corrected

/-- Whether a port that carries a frame takes its acknowledgement (R407). -/
def Dev.ackOf (p : Nat) (f : LinkFrame) (serv : Bool) (d : Dev) : Bool × Dev := if serv ∧ f.av then d.takeAck p f.ack else (true, d)

/-- A control frame by its type (R405), once what it acknowledges, returns and shows missing has been taken. -/
def Dev.takeCtrl (p : Nat) (f : LinkFrame) (serv : Bool) (x : Port) (d : Dev) : Dev :=
  match f.len.toNat with
  | 1 => if serv then (d.rxStatus p f).pump p else d
  | 2 => if serv then (d.rxSreq p f).pump p else d
  | 3 => d.rxLinkReset p f
  | 4 => d.rxTs p f
  | 5 => d.rxLinkDown p
  | t =>
    (d.bump (Reg.fab p) 0x050 1).log (halfOfPort (Dev.portNo p))
      { type := 0x10, sev := 1, block := blockOf (Reg.fab p), node := if x.peerKnown then some x.peerNode else none,
        detail := [(40, 1, 1), (41, 1, p), (42, 1, t), (43, 1, f.vc.toNat)] }

section
variable {p : Nat} {f : LinkFrame} {d : Dev}

theorem Dev.carriesData_countCorrected (v : Nat) : (d.countCorrected p f).carriesData p v = d.carriesData p v := by
  unfold Dev.countCorrected
  split <;> rfl

theorem Dev.rxFrame_bad (h : f.crcBad = true ∨ f.fecBad = true) :
    d.rxFrame p f =
      let d1 := if (d.port p).state = .verify ∧ f.kind = 2 then (d.countCorrected p f).modPort p fun x => { x with testBad := true } else d.countCorrected p f
      (if f.fecBad then d1.bump (Reg.fab p) 0x060 1 else d1).bump (Reg.fab p) 0x050 1 :=
  if_pos (h.imp_right Or.inl)

variable (hcrc : f.crcBad = false) (hfec : f.fecBad = false)
include hcrc hfec

theorem Dev.rxFrame_test (hkind : f.kind = 2) (hstate : (d.port p).state = .verify ∨ (d.port p).state = .test) : d.rxFrame p f = d.countCorrected p f := by
  dsimp only [Dev.rxFrame]
  refine (if_neg ?_).trans ((if_neg ?_).trans (if_pos hkind))
  · rcases hstate with h | h <;> simp [hcrc, hfec, hkind, h]
  · simp [hkind]

/-- A good DATA or CTRL frame that the port carries goes on to its acknowledgement. -/
theorem Dev.rxFrame_good (hcarried : f.kind = 0 ∧ d.carriesData p f.vc.toNat = true ∨ f.kind = 1 ∧ Dev.carriesCtrl (d.port p).state f.len.toNat = true) :
    d.rxFrame p f =
      let serv := Obl.inService (d.port p).state
      let r := (d.countCorrected p f).ackOf p f serv
      if ¬ r.1 then r.2.protocolError p
      else
        let d2 := if serv then r.2.takeCret p f else r.2
        if f.kind = 0 then (d2.rxData p f).pump p
        else
          let gap := (f.seq - (d2.port p).expected).toNat
          (if serv ∧ 1 ≤ gap ∧ gap ≤ 1024 then d2.askMissing p f.seq else d2).takeCtrl p f serv (d.port p) := by
  dsimp only [Dev.rxFrame]
  refine (if_neg ?_).trans ((if_neg ?_).trans ((if_neg ?_).trans ?_))
  · rcases hcarried with ⟨hkind, h⟩ | ⟨hkind, h⟩ <;> simp [hcrc, hfec, hkind, h]
  · rcases hcarried with ⟨hkind, h⟩ | ⟨hkind, h⟩ <;> simp [hkind]
  · rcases hcarried with ⟨hkind, h⟩ | ⟨hkind, h⟩ <;> simp [hkind]
  · rfl

end

section
variable {p : Nat} {f : LinkFrame} {d d1 : Dev}

theorem Dev.rxFrame_refused (hcrc : f.crcBad = false) (hfec : f.fecBad = false)
    (hcarried : f.kind = 0 ∧ d.carriesData p f.vc.toNat = true ∨ f.kind = 1 ∧ Dev.carriesCtrl (d.port p).state f.len.toNat = true)
    (hack : (d.countCorrected p f).ackOf p f (Obl.inService (d.port p).state) = (false, d1)) : d.rxFrame p f = d1.protocolError p := by
  refine (Dev.rxFrame_good hcrc hfec hcarried).trans ?_
  dsimp only
  rw [hack]
  exact if_pos Bool.false_ne_true

theorem Dev.rxFrame_data (hcrc : f.crcBad = false) (hfec : f.fecBad = false) (hkind : f.kind = 0) (hcarried : d.carriesData p f.vc.toNat = true)
    (hack : (d.countCorrected p f).ackOf p f (Obl.inService (d.port p).state) = (true, d1)) :
    d.rxFrame p f = ((if Obl.inService (d.port p).state then d1.takeCret p f else d1).rxData p f).pump p := by
  refine (Dev.rxFrame_good hcrc hfec (.inl ⟨hkind, hcarried⟩)).trans ?_
  dsimp only
  rw [hack]
  exact (if_neg (not_not_intro rfl)).trans (if_pos hkind)

theorem Dev.rxFrame_ctrl (hcrc : f.crcBad = false) (hfec : f.fecBad = false) (hkind : f.kind = 1) (hcarried : Dev.carriesCtrl (d.port p).state f.len.toNat = true)
    (hack : (d.countCorrected p f).ackOf p f (Obl.inService (d.port p).state) = (true, d1)) :
    let serv := Obl.inService (d.port p).state
    let d2 := if serv then d1.takeCret p f else d1
    let gap := (f.seq - (d2.port p).expected).toNat
    d.rxFrame p f = (if serv ∧ 1 ≤ gap ∧ gap ≤ 1024 then d2.askMissing p f.seq else d2).takeCtrl p f serv (d.port p) := by
  refine (Dev.rxFrame_good hcrc hfec (.inr ⟨hkind, hcarried⟩)).trans ?_
  dsimp only
  rw [hack]
  exact (if_neg (not_not_intro rfl)).trans (if_neg (by simp [hkind]))

/-- The reset that a LINK_RESET frame asks for (R424, R433). -/
def Dev.resetAsked (f : LinkFrame) : Trigger :=
  ⟨2, if leAt f.payload 3 1 ≤ 2 then some (BitVec.ofNat 2 (leAt f.payload 3 1)) else none, leAt f.payload 4 1 == 1⟩

theorem Dev.rxLinkReset_joins (h : (d.port p).state ∈ [LinkState.quiesce, .tune, .align, .active, .test]) :
    d.rxLinkReset p f = (d.startReset p (Dev.resetAsked f)).modPort p fun x => { x with peerReset := true } := by
  unfold Dev.rxLinkReset
  revert h
  cases (d.port p).state <;> intro h
  case quiesce | tune | align | active | test => rfl
  all_goals exact absurd h (by decide)

theorem Dev.rxLinkReset_waits (h : (d.port p).state ∈ [LinkState.negotiate, .verify, .resume]) : d.rxLinkReset p f = d.startReset p (Dev.resetAsked f) := by
  unfold Dev.rxLinkReset
  revert h
  cases (d.port p).state <;> intro h
  case negotiate | verify | resume => rfl
  all_goals exact absurd h (by decide)

end

section
variable {p : Nat} {f : LinkFrame} {serv : Bool} {x : Port} {d : Dev}

theorem Dev.takeCtrl_status (hlen : f.len = 1) (hserv : serv = true) : d.takeCtrl p f serv x = (d.rxStatus p f).pump p := by
  unfold Dev.takeCtrl
  rw [hlen]
  exact if_pos hserv

theorem Dev.takeCtrl_sreq (hlen : f.len = 2) (hserv : serv = true) : d.takeCtrl p f serv x = (d.rxSreq p f).pump p := by
  unfold Dev.takeCtrl
  rw [hlen]
  exact if_pos hserv

theorem Dev.takeCtrl_linkReset (hlen : f.len = 3) : d.takeCtrl p f serv x = d.rxLinkReset p f := by
  unfold Dev.takeCtrl
  rw [hlen]
  rfl

theorem Dev.takeCtrl_ts (hlen : f.len = 4) : d.takeCtrl p f serv x = d.rxTs p f := by
  unfold Dev.takeCtrl
  rw [hlen]
  rfl

theorem Dev.takeCtrl_linkDown (hlen : f.len = 5) : d.takeCtrl p f serv x = d.rxLinkDown p := by
  unfold Dev.takeCtrl
  rw [hlen]
  rfl

end

section
variable {p : Nat} {f : LinkFrame} {d : Dev}

/-- The 54 bytes of a training set (R427). -/
def tsBytes (f : LinkFrame) : List Byte := (f.payload ++ List.replicate 54 0).take 54

/-- How often in a row a training set has come, this one counted (R428). -/
def tsTimes (f : LinkFrame) (x : Port) : Nat :=
  match x.peerTs with | some t => if t.bytes = tsBytes f then t.times + 1 else 1 | none => 1

/-- Whether a training set names the epochs and the peer that the port knows (R430). -/
def tsSame (f : LinkFrame) (x : Port) : Bool :=
  leAt (tsBytes f) 12 4 == x.epoch.toNat && (match x.peerEpoch with | some z => z.toNat == leAt (tsBytes f) 8 4 | none => false) &&
    x.peerNode.toNat == leAt (tsBytes f) 0 2 && x.peerPort.toNat == leAt (tsBytes f) 2 1

variable (hstate : (d.port p).state = .negotiate ∨ (d.port p).state = .verify)
include hstate

theorem Dev.rxTs_own (hnode : leAt (tsBytes f) 0 2 = d.nodeId.toNat) :
    d.rxTs p f = (((d.enter p .held).cause (Reg.fab p) 5).logLink p 2 0).endPortCmd p .stateConflict :=
  (if_neg (not_and_or.mpr (hstate.imp not_not_intro not_not_intro))).trans (if_pos hnode)

theorem Dev.rxTs_peer (hnode : leAt (tsBytes f) 0 2 ≠ d.nodeId.toNat) :
    d.rxTs p f =
      let d1 := d.modPort p fun x => { x with peerTs := some ⟨tsBytes f, tsTimes f (d.port p)⟩ }
      if (d.port p).state = .verify then d1.verdicts p
      else if (d.port p).epochSeen = true ∨ tsSame f (d.port p) = true then d1
      else ((d1.discardSeq p).modPort p fun x => { x with epochSeen := true }).sendTs p := by
  refine (if_neg (not_and_or.mpr (hstate.imp not_not_intro not_not_intro))).trans ((if_neg hnode).trans ?_)
  have hkept : (match (d.port p).peerTs with
      | some t => if t.bytes = tsBytes f then ⟨tsBytes f, t.times + 1⟩ else ⟨tsBytes f, 1⟩
      | none => ⟨tsBytes f, 1⟩ : PeerTs) = ⟨tsBytes f, tsTimes f (d.port p)⟩ := by
    unfold tsTimes
    cases (d.port p).peerTs with
    | none => rfl
    | some t => exact (apply_ite (PeerTs.mk (tsBytes f)) _ _ _).symm
  rw [← hkept]
  exact ite_congr rfl (fun _ => rfl) fun _ => (ite_or _ _ _ _).symm

end

/-- Settles O30: a bad frame is counted, a refused acknowledgement is a protocol error, and a good frame acts by its kind and type. -/
theorem linkFramesTakeEffect : Obligations.LinkFramesTakeEffect := by
  intro s p f n x st serv d0
  refine ⟨fun hbad => ?bad, fun hcrc hfec => ⟨fun hkind hstate => ?test, fun d1 hserv hav hack hcarried => ?refused, fun d1 hack => ⟨fun hkind hcarried => ?data, fun hkind hcarried => ?ctrl⟩⟩⟩
  case bad =>
    have hbadFrame := congrArg (Obl.dev s) (Dev.rxFrame_bad (p := n) (d := s.dev) hbad)
    simp only [List.forall_mem_cons, List.not_mem_nil, false_implies, implies_true, and_true]
    exact ⟨hbadFrame, hbadFrame, hbadFrame, hbadFrame, hbadFrame, hbadFrame, hbadFrame⟩
  case test => exact congrArg (Obl.dev s) (Dev.rxFrame_test hcrc hfec hkind hstate)
  all_goals have hcarries (v : Nat) : d0.carriesData n v = s.dev.carriesData n v := Dev.carriesData_countCorrected v
  case refused =>
    have htake : d0.ackOf n f serv = (false, d1) := (if_pos ⟨hserv, hav⟩).trans hack
    have hrefused := congrArg (Obl.dev s) (Dev.rxFrame_refused hcrc hfec (hcarried.imp_left fun ⟨hkind, h⟩ => ⟨hkind, (hcarries _).symm.trans h⟩) htake)
    simp only [List.forall_mem_cons, List.not_mem_nil, false_implies, implies_true, and_true]
    exact ⟨hrefused, hrefused, hrefused, hrefused, hrefused, hrefused⟩
  case data => exact congrArg (Obl.dev s) (Dev.rxFrame_data hcrc hfec hkind ((hcarries _).symm.trans hcarried) hack)
  case ctrl =>
    intro gap e t b
    have hframe : s.dev.rxFrame n f = e.takeCtrl n f serv x := Dev.rxFrame_ctrl hcrc hfec hkind hcarried hack
    have hrun {u : Dev} (h : e.takeCtrl n f serv x = u) : Obl.dev s (s.dev.rxFrame n f) = Obl.dev s u := congrArg (Obl.dev s) (hframe.trans h)
    refine ⟨fun hlen hserv => hrun (Dev.takeCtrl_status hlen hserv), fun hlen hserv => hrun (Dev.takeCtrl_sreq hlen hserv),
      fun hlen hstate => hrun ((Dev.takeCtrl_linkReset hlen).trans (Dev.rxLinkReset_joins hstate)),
      fun hlen hstate => hrun ((Dev.takeCtrl_linkReset hlen).trans (Dev.rxLinkReset_waits hstate)), fun hlen => hrun (Dev.takeCtrl_linkDown hlen),
      fun hlen hstate => ⟨fun hnode => hrun ((Dev.takeCtrl_ts hlen).trans (Dev.rxTs_own hstate hnode)), fun hnode => ?peer⟩⟩
    case peer =>
      exact hrun ((Dev.takeCtrl_ts hlen).trans (Dev.rxTs_peer hstate hnode))

end Sys2Proof.Machine
end

section
/-! PROOFS. Rising lists of numbers, and the poison marks of pool memory. -/

namespace Sys2Proof.Machine

/-! ### Rising lists -/

theorem NSet.mem_insert (i : Nat) (l : List Nat) (j : Nat) : j ∈ NSet.insert i l ↔ j = i ∨ j ∈ l := by
  induction l with
  | nil => simp [NSet.insert]
  | cons k t ih =>
    unfold NSet.insert
    split
    · rw [List.mem_cons, ih, List.mem_cons, or_left_comm]
    · split
      · next hk => simp [hk]
      · rw [List.mem_cons]

theorem NSet.mem_of_mem_erase {i j : Nat} {l : List Nat} (h : j ∈ NSet.erase i l) : j ∈ l := by
  induction l with
  | nil => exact h
  | cons k t ih =>
    unfold NSet.erase at h
    split at h
    · exact (List.mem_cons.mp h).elim (fun e => e ▸ List.mem_cons_self) fun m => List.mem_cons_of_mem k (ih m)
    · split at h
      · exact List.mem_cons_of_mem k h
      · exact h

/-- What is left of a rising list when a number is removed: every other number. -/
theorem NSet.mem_erase (i : Nat) {l : List Nat} (h : l.Pairwise (· < ·)) (j : Nat) : j ∈ NSet.erase i l ↔ j ≠ i ∧ j ∈ l := by
  induction l with
  | nil => simp [NSet.erase]
  | cons k t ih =>
    obtain ⟨habove, ht⟩ := List.pairwise_cons.mp h
    have hnot (hik : i ≤ k) : j ∈ t → j ≠ i := fun m => Nat.ne_of_gt (lt_of_le_of_lt hik (habove j m))
    unfold NSet.erase
    split
    · next hk =>
      rw [List.mem_cons, ih ht, List.mem_cons]
      exact ⟨fun m => m.elim (fun e => ⟨by omega, .inl e⟩) fun m => ⟨m.1, .inr m.2⟩, fun m => m.2.imp id fun y => ⟨m.1, y⟩⟩
    · split
      · next hk =>
        rw [List.mem_cons, hk]
        exact ⟨fun m => ⟨hnot (by omega) m, .inr m⟩, fun m => m.2.resolve_left m.1⟩
      · refine ⟨fun m => ⟨?_, m⟩, fun m => m.2⟩
        rcases List.mem_cons.mp m with e | e
        · omega
        · exact hnot (by omega) e

theorem NSet.rising_insert (i : Nat) {l : List Nat} (h : l.Pairwise (· < ·)) : (NSet.insert i l).Pairwise (· < ·) := by
  induction l with
  | nil => exact List.pairwise_singleton _ i
  | cons k t ih =>
    obtain ⟨habove, ht⟩ := List.pairwise_cons.mp h
    unfold NSet.insert
    split
    · next hk => exact List.pairwise_cons.mpr ⟨fun j m => ((NSet.mem_insert i t j).mp m).elim (fun e => e ▸ hk) (habove j), ih ht⟩
    · split
      · exact h
      · have hi : i < k := by omega
        exact List.pairwise_cons.mpr ⟨fun j m => (List.mem_cons.mp m).elim (fun e => e ▸ hi) fun m => hi.trans (habove j m), h⟩

theorem NSet.rising_erase (i : Nat) {l : List Nat} (h : l.Pairwise (· < ·)) : (NSet.erase i l).Pairwise (· < ·) := by
  induction l with
  | nil => exact h
  | cons k t ih =>
    obtain ⟨habove, ht⟩ := List.pairwise_cons.mp h
    unfold NSet.erase
    split
    · exact List.pairwise_cons.mpr ⟨fun j m => habove j (NSet.mem_of_mem_erase m), ih ht⟩
    · split
      · exact ht
      · exact h

/-! ### Lines and poison marks (R48, R249, R253) -/

theorem length_leBytes (n v : Nat) : (leBytes n v).length = n := by
  induction n generalizing v with
  | zero => rfl
  | succ n ih => simp [leBytes, ih]

theorem length_lineBytes (x : Line) : (lineBytes x).length = 64 := length_leBytes 64 x.toNat

/-- Writing bytes leaves the poison marks as they were. -/
theorem Mem.poison_setBytes (l : List Byte) (m : Mem) (a : Nat) : (m.setBytes a l).poison = m.poison := by
  induction l generalizing m a with
  | nil => rfl
  | cons b t ih => exact ih (m.setByte a b) (a + 1)

theorem Mem.poison_setLine (m : Mem) (k : Nat) (x : Line) : (m.setLine k x).poison = NSet.erase k m.poison :=
  congrArg (NSet.erase k) (Mem.poison_setBytes (lineBytes x) m (k * 64))

theorem Mem.poison_setBad (m : Mem) (k : Nat) : (m.setBad k).poison = NSet.insert k m.poison :=
  congrArg (NSet.insert k) (Mem.poison_setBytes (List.replicate 64 0) m (k * 64))

/-- The bytes after a line is written. -/
theorem Mem.byte_setLine (m : Mem) (k : Nat) (x : Line) (y : Nat) :
    (m.setLine k x).byte y = if k * 64 ≤ y ∧ y < k * 64 + 64 then (lineBytes x).getD (y - k * 64) 0 else m.byte y := by
  have h := Mem.byte_setBytes (lineBytes x) m (k * 64) y
  rwa [length_lineBytes] at h

/-- The bytes after the poison pattern is written: zeros in the line. -/
theorem Mem.byte_setBad (m : Mem) (k y : Nat) :
    (m.setBad k).byte y = if k * 64 ≤ y ∧ y < k * 64 + 64 then 0 else m.byte y := by
  have hz : ∀ n, (List.replicate 64 (0 : Byte)).getD n 0 = 0 := fun n => by
    rw [List.getD_eq_getElem?_getD, List.getElem?_replicate]
    split <;> rfl
  have h := Mem.byte_setBytes (List.replicate 64 0) m (k * 64) y
  rw [List.length_replicate, hz] at h
  simpa only [Mem.byte, Mem.setBad] using h

theorem Mem.bad_setBad (m : Mem) (k j : Nat) : (m.setBad k).bad j = if j = k then true else m.bad j := by
  rw [Bool.eq_iff_iff, Mem.bad, Mem.poison_setBad, List.contains_iff_mem, NSet.mem_insert]
  by_cases h : j = k
  · simp [h]
  · simp [h, Mem.bad]

theorem Mem.bad_setLine {m : Mem} (h : m.poison.Pairwise (· < ·)) (k : Nat) (x : Line) (j : Nat) :
    (m.setLine k x).bad j = if j = k then false else m.bad j := by
  rw [Bool.eq_iff_iff, Mem.bad, Mem.poison_setLine, List.contains_iff_mem, NSet.mem_erase k h]
  by_cases h : j = k
  · simp [h]
  · simp [h, Mem.bad]

/-- Settles O57: each write keeps the canonical form, and the bytes and the marks after it are those of its own laws. -/
theorem poolWritesKeepTheCanonicalForm : Obligations.PoolWritesKeepTheCanonicalForm := by
  intro m a k b l x
  refine ⟨fun h => ⟨m.wf_setByte h a b, Mem.wf_setBytes l m h a, m.wf_setLine h k x, m.wf_setBad h k⟩, Mem.byte_setBytes l m a,
    m.byte_setLine k x, m.byte_setBad k, m.bad_setBad k, fun h => ⟨?_, ?_, Mem.bad_setLine h k x⟩⟩
  · rw [Mem.poison_setBad]
    exact NSet.rising_insert k h
  · rw [Mem.poison_setLine]
    exact NSet.rising_erase k h

end Sys2Proof.Machine
end

section
/-! PROOFS. What a request or an engine access that passes the checks of R60 was granted, and what FROZEN withdraws. -/

namespace Sys2Proof.Machine

/-! ### Effective permissions (R52, R53) -/

/-- The effective permissions of a frozen extent: HOST_READ, ENGINE_READ and FROZEN at most. -/
theorem Dev.perm_frozen (d : Dev) (e : Ext) (h : bits e.perm.toNat 5 5 = 1) :
    d.perm e = if (d.conf e.part && !e.accepted) = true then 0 else e.perm.toNat % 2 + bits e.perm.toNat 3 3 * 8 + 32 := by
  unfold Dev.perm
  simp only [if_pos h]

/-- The bits of the permissions that a frozen extent keeps. -/
theorem bits_frozen (n : Nat) : let p := n % 2 + bits n 3 3 * 8 + 32
    bits p 1 1 = 0 ∧ bits p 2 2 = 0 ∧ bits p 4 4 = 0 ∧ bits p 0 0 = bits n 0 0 ∧ bits p 3 3 = bits n 3 3 ∧ bits p 5 5 = 1 := by
  simp only [bits]
  omega

/-- A frozen extent withholds HOST_WRITE, HOST_ATOMIC and ENGINE_WRITE, whatever their stored value. -/
theorem Dev.perm_frozen_withholds (d : Dev) (e : Ext) (h : bits e.perm.toNat 5 5 = 1) :
    bits (d.perm e) 1 1 = 0 ∧ bits (d.perm e) 2 2 = 0 ∧ bits (d.perm e) 4 4 = 0 := by
  rw [d.perm_frozen e h]
  split
  · decide
  · obtain ⟨hwrite, hatomic, hengine, -⟩ := bits_frozen e.perm.toNat
    exact ⟨hwrite, hatomic, hengine⟩

/-- Without HOST_WRITE and HOST_ATOMIC no request that writes or takes ownership is granted. -/
theorem grants_readOnly {p : Nat} {kind : ReqKind} (hwrite : bits p 1 1 = 0) (hatomic : bits p 2 2 = 0)
    (h : kindWrites kind = true ∨ kind = .loadOwn) : grants p kind = false := by
  cases kind with
  | loadShared nc => simp [kindWrites] at h
  | _ => simp [grants, hwrite, hatomic]

/-! ### What has passed the checks of R60 -/

theorem Dev.hostChecks_ok {d : Dev} {h : ReqHdr} {kind : ReqKind} {x : Nat × Ext} (hok : d.hostChecks h kind = .ok x) :
    d.extAt h.offset.toNat = some x ∧ grants (d.perm x.2) kind = true := by
  unfold Dev.hostChecks at hok
  split at hok
  · cases hok
  · next i e hext =>
    simp only [ite_eq_iff, reduceCtorEq, and_false, false_or] at hok
    obtain ⟨-, -, -, -, hgrant, -, hok⟩ := hok
    cases hok
    rw [Bool.or_eq_true, not_or, Bool.not_eq_true', Bool.not_eq_false] at hgrant
    exact ⟨hext, hgrant.1⟩

theorem Dev.engChecks_ok {d : Dev} {part : PartId} {off : Nat} {kind : EngKind} {x : Nat × Ext} (hok : d.engChecks part off kind = .ok x)
    (hwrites : engWrites kind = true) : d.extAt off = some x ∧ bits (d.perm x.2) 4 4 ≠ 0 := by
  unfold Dev.engChecks at hok
  split at hok
  · cases hok
  · next i e hext =>
    simp only [ite_eq_iff, reduceCtorEq, and_false, false_or] at hok
    obtain ⟨-, -, -, hperm, -, hok⟩ := hok
    cases hok
    refine ⟨hext, fun h => hperm ?_⟩
    simp [h, hwrites]

theorem exists_error_of_not_ok {α : Type} {r : Except Status α} (h : ∀ x, r ≠ .ok x) : ∃ st, r = .error st := by
  cases r with
  | ok x => exact absurd rfl (h x)
  | error st => exact ⟨st, rfl⟩

/-- Settles O59: the effective permissions have lost the three bits, and a request or an access that passes the checks has its bit. -/
theorem frozenExtentsGrantNoWrite : Obligations.FrozenExtentsGrantNoWrite := by
  intro d e hfrozen
  obtain ⟨hwrite, hatomic, hengine⟩ := d.perm_frozen_withholds e hfrozen
  refine ⟨hwrite, hatomic, hengine, fun hopen => ?kept, fun h kind i hext hk => ?host, fun part off i kind hext hk => ?engine⟩
  case kept =>
    obtain ⟨-, -, -, hkept⟩ := bits_frozen e.perm.toNat
    rwa [d.perm_frozen e hfrozen, hopen]
  case host =>
    refine exists_error_of_not_ok fun x hok => ?_
    obtain ⟨hx, hgrant⟩ := Dev.hostChecks_ok hok
    cases hext.symm.trans hx
    exact absurd hgrant (Bool.eq_false_iff.mp (grants_readOnly hwrite hatomic hk))
  case engine =>
    refine exists_error_of_not_ok fun x hok => ?_
    obtain ⟨hx, hgrant⟩ := Dev.engChecks_ok hok hk
    cases hext.symm.trans hx
    exact hgrant hengine

end Sys2Proof.Machine
end

section
/-! PROOFS. The commands of COH.EXT_CMD and of the hosts, and the NOP of every block: the guard of BUSY and how a command goes on. -/

namespace Sys2Proof.Machine

/-! ### Commands of COH.EXT_CMD (R66, R68, R69) -/

theorem Dev.extCmd_guards (f : Dev → Option Status × Dev) : Dev.Guards Reg.coh 0x9104 (Dev.extCmd f) := fun _ h => if_pos h

/-- Every command of COH.EXT_CMD runs under the guard of its status register. -/
theorem exec_extGuarded (c : Instr) (h : Obl.isExtCommand c = true) (s : State) : ∃ f, exec c s = .next (s.onDev (Dev.extCmd f)) := by
  cases c
  case cohNop | extRead | extAssign | extGrant | extRestrict | extRevoke | extScrub | hsetRead | hsetWrite | regionCreate |
      regionDestroy =>
    exact ⟨_, rfl⟩
  all_goals exact nomatch h

/-- An ERR_STS event writes ERR_STS of its block, INT_CAUSE of its block and of GLB and, through a message interrupt, CTL.CSN. -/
theorem Dev.notified_errEvent (page bit : Nat) (d : Dev) :
    Dev.Notified (fun a => a = Reg.errSts page ∨ a = Reg.intCause page ∨ a = Reg.intCause Reg.glb ∨ Dev.isCsn a) d (d.errEvent page bit) := by
  have hsts := Dev.notified_setReg (ch := fun a => a = Reg.errSts page ∨ a = Reg.intCause page ∨ a = Reg.intCause Reg.glb ∨ Dev.isCsn a)
    (.inl rfl) (d.reg (Reg.errSts page) ||| (1#32 <<< bit)) d
  unfold Dev.errEvent
  simp only []
  split
  · exact hsts
  · have hblock := hsts.trans ((Dev.notified_cause page 0 _).mono fun a h => .inr (h.imp id .inr))
    split
    · exact hblock.trans ((Dev.notified_cause Reg.glb 3 _).mono fun a h => .inr (.inr h))
    · exact hblock

/-- ERR_STS is no INT_CAUSE and not CTL.CSN: they stand at other offsets of their pages. -/
theorem Reg.errSts_ne (page q : Nat) : Reg.errSts page ≠ Reg.intCause q ∧ ¬ Dev.isCsn (Reg.errSts page) := by
  unfold Dev.isCsn Reg.errSts Reg.intCause
  omega

/-- The bit that an ERR_STS event sets. -/
theorem Dev.errEvent_sets (page bit : Nat) (d : Dev) (hbit : bit < 32) : ((d.errEvent page bit).reg (Reg.errSts page)).getLsbD bit = true := by
  have hset : ((d.setReg (Reg.errSts page) (d.reg (Reg.errSts page) ||| (1#32 <<< bit))).reg (Reg.errSts page)).getLsbD bit = true := by
    simp [hbit]
  have hcause (q b : Nat) (x : Dev) : (x.cause q b).reg (Reg.errSts page) = x.reg (Reg.errSts page) :=
    (Dev.notified_cause q b x).reg _ (not_or.mpr (Reg.errSts_ne page q))
  unfold Dev.errEvent
  simp only []
  split
  · exact hset
  · split
    · rwa [hcause, hcause]
    · rwa [hcause]

/-- Settles O9: a command under the guard does an illegal write while BUSY, and its end is the end of every block command. -/
theorem extCommandBusyAndCompletion : Obligations.ExtCommandBusyAndCompletion := by
  refine ⟨fun c s hc hbusy => ⟨?illegal, s.dev.errEvent_sets Reg.coh 0 (by decide), fun a hsts hcause hglb hcsn => ?frame,
    s.dev.rest_illegal Reg.coh⟩, fun d st hb => ?ends⟩
  case illegal =>
    obtain ⟨f, hf⟩ := exec_extGuarded c hc s
    rw [hf]
    simp only [State.onDev, Dev.extCmd_guards f s.dev hbusy]
  case frame =>
    exact (Dev.notified_errEvent Reg.coh 0 s.dev).reg a (not_or.mpr ⟨hsts, not_or.mpr ⟨hcause, not_or.mpr ⟨hglb, hcsn⟩⟩⟩)
  case ends =>
    obtain ⟨hbusy, hstatus, hcause, -⟩ :=
      commandEndChangesStatusAndCause d Reg.coh 0x9104 1 st hb (by decide) (by decide) (by decide)
    exact ⟨hbusy, hstatus, hcause⟩

section
variable {f : Dev → Option Status × Dev} {d d' : Dev} (hidle : d.busy 0x9104 = false)
include hidle

theorem Dev.extCmd_ends {st : Status} (h : f (d.cmdBegin 0x9104) = (some st, d')) : d.extCmd f = d'.cmdEnd Reg.coh 0x9104 1 st := by
  unfold Dev.extCmd
  rw [if_neg (ne_true_of_eq_false hidle), h]

theorem Dev.extCmd_waits (h : f (d.cmdBegin 0x9104) = (none, d')) : d.extCmd f = d' := by
  unfold Dev.extCmd
  rw [if_neg (ne_true_of_eq_false hidle), h]

end

/-! ### Commands of the hosts and of GLB, SEC (R155, R521, R674) -/

theorem Dev.hostCmd_idle (f : Dev → Status × Dev) (d : Dev) (h : d.busy 0x9144 = false) :
    d.hostCmd f = (f (d.cmdBegin 0x9144)).2.cmdEnd Reg.coh 0x9144 4 (f (d.cmdBegin 0x9144)).1 :=
  if_neg (ne_true_of_eq_false h)

/-- How a command of SEC goes on after its effect: a status ends it. -/
def Dev.secEnd (r : Option Status × Dev) : Dev :=
  match r.1 with
  | some st => r.2.cmdEnd Reg.sec 0x6104 1 st
  | none => r.2

theorem Dev.secCmd_idle (f : Dev → Option Status × Dev) (d : Dev) (h : d.busy 0x6104 = false) :
    d.secCmd f = Dev.secEnd (f (d.cmdBegin 0x6104)) := by
  unfold Dev.secCmd Dev.secEnd
  rw [if_neg (ne_true_of_eq_false h)]
  generalize f (d.cmdBegin 0x6104) = r
  obtain ⟨_ | st, e⟩ := r <;> rfl

/-- How a command of GLB goes on after its effect: a status ends it. -/
def Dev.glbEnd (r : Option Status × Dev) : Dev :=
  match r.1 with
  | some st => r.2.cmdEnd Reg.glb 0x118 1 st
  | none => r.2

theorem Dev.glbCmd_early (f : Dev → Option Status × Dev) (d : Dev) (h : d.busy 0x118 = false) (hearly : d.dawn.step ≠ .service) :
    d.glbCmd f = (d.cmdBegin 0x118).cmdEnd Reg.glb 0x118 1 .stateConflict :=
  (if_neg (ne_true_of_eq_false h)).trans (if_pos hearly)

theorem Dev.glbCmd_idle (f : Dev → Option Status × Dev) (d : Dev) (h : d.busy 0x118 = false) (hservice : d.dawn.step = .service) :
    d.glbCmd f = Dev.glbEnd (f (d.cmdBegin 0x118)) := by
  unfold Dev.glbCmd Dev.glbEnd
  rw [if_neg (ne_true_of_eq_false h)]
  refine (if_neg (not_not.mpr hservice)).trans ?_
  generalize f (d.cmdBegin 0x118) = r
  obtain ⟨_ | st, e⟩ := r <;> rfl

/-- Settles O7: under the guard of its idle block, the NOP has no effect and ends at once with OK. -/
theorem blockNopsCompleteOk : Obligations.BlockNopsCompleteOk := by
  intro s
  refine ⟨fun h => ?coh, fun h => ?host, fun h => ?xlt, fun h => ?tier, fun h => ?opq, fun h => ?rte, fun h => ?shp, fun h => ?sec, fun h => ?ctl,
    fun h => ?pwr, fun h => ?cmp, fun c h => ?ddr, fun half h => ?ras, fun p h => ?fab, fun hservice h => ?glb, fun hservice h => ?cal⟩
  case coh => exact congrArg (Obl.dev s) (Dev.extCmd_ends h rfl)
  case host => exact congrArg (Obl.dev s) (Dev.hostCmd_idle _ s.dev h)
  case xlt => exact Dev.xltCmd_ends h rfl
  case tier => exact congrArg (Obl.dev s) (Dev.tierCmd_ends h rfl)
  case opq => exact State.opqCmd_idle h rfl
  case rte => exact congrArg (Obl.dev s) (Dev.rteCmd_idle _ s.dev h)
  case shp => exact congrArg (Obl.dev s) (Dev.shpCmd_idle _ s.dev h)
  case sec => exact congrArg (Obl.dev s) (Dev.secCmd_idle _ s.dev h)
  case ctl => exact congrArg (Obl.dev s) (Dev.ctlCmd_idle _ s.dev h)
  case pwr => exact congrArg (Obl.dev s) (Dev.pwrCmd_idle _ s.dev h)
  case cmp => exact congrArg (Obl.dev s) (Dev.cmpCmd_status .ok s.dev h)
  case ddr => exact congrArg (Obl.dev s) (Dev.trainCmd_ends h rfl)
  case ras => exact congrArg (Obl.dev s) (Dev.rasCmd_idle h rfl)
  case fab => exact congrArg (Obl.dev s) (Dev.portCmd_idle p.val _ s.dev h)
  case glb => exact congrArg (Obl.dev s) (Dev.glbCmd_idle _ s.dev h hservice)
  case cal => exact congrArg (Obl.dev s) (Dev.calCmd_ends h hservice rfl)

end Sys2Proof.Machine
end

section
/-! PROOFS. The extent commands: what each command answers in each case. -/

namespace Sys2Proof.Machine

/-! ### Commands of one entry (R69 to R72, R78) -/

/-- The entry of an image with the permissions, the host set and the read-only fields of another: what is left to differ is what EXT_RESTRICT
may not change (R69). -/
def Ext.withAccessOf (n e : Ext) : Ext :=
  { n with perm := e.perm, hset := e.hset, state := e.state, gen := e.gen, accepted := e.accepted, secret := e.secret }

section
variable {d : Dev} {i : ExtIdx} {e n : Ext} (he : d.ext i.toNat = e) (hn : extOfImage d.extData = n)
include he

theorem Dev.extAssign_notFree (h : e.state ≠ .free) : d.extAssign i = (some .stateConflict, d) := by
  subst he
  exact if_pos h

theorem Dev.extAssign_refused (h : e.state = .free) (hcheck : d.assignChecks d.extData ≠ .ok) :
    d.extAssign i = (some (d.assignChecks d.extData), d) := by
  subst he
  refine (if_neg (not_not.mpr h)).trans ?_
  generalize d.assignChecks d.extData = st at hcheck
  cases st
  case ok => exact absurd rfl hcheck
  all_goals rfl

theorem Dev.extScrub_revoked (h : e.state = .revoked) : d.extScrub i = (none, d.setExt i.toNat { e with state := .scrubbing }) := by
  subst he
  exact if_neg (not_not.mpr h)

theorem Dev.extScrub_refused (h : e.state ≠ .revoked) : d.extScrub i = (some .stateConflict, d) := by
  subst he
  exact if_pos h

theorem Dev.extGrant_notActive (h : e.state ≠ .active) : d.extGrant i = (some .stateConflict, d) := by
  subst he
  exact if_pos h

theorem Dev.extRestrict_notActive (h : e.state ≠ .active) : d.extRestrict i = (some .stateConflict, d) := by
  subst he
  exact if_pos h

include hn

theorem Dev.extAssign_assigns (h : e.state = .free) (hcheck : d.assignChecks d.extData = .ok) :
    d.extAssign i = (none, d.setExt i.toNat { n with state := .init, gen := e.gen, accepted := !d.conf n.part }) := by
  subst he hn
  refine (if_neg (not_not.mpr h)).trans ?_
  rw [hcheck]

variable (hactive : e.state = .active)
include hactive

theorem Dev.extGrant_active : d.extGrant i =
    if extReservedBits d.extData = true then (some .malformed, d)
    else if (d.conf e.part && !e.accepted) = true ∨ e.perm &&& n.perm ≠ e.perm ∨ n.hset ≠ e.hset ∨ n.perm.getLsbD 5 ≠ e.perm.getLsbD 5 then
      (some .stateConflict, d)
    else (some .ok, d.setExt i.toNat { e with perm := n.perm }) := by
  subst he hn
  refine (if_neg (not_not.mpr hactive)).trans (ite_transport id Iff.rfl (fun _ => rfl) fun _ => ?_)
  refine ite_transport id ?_ (fun _ => rfl) fun _ => rfl
  simp only [Bool.or_eq_true, bne_iff_ne, or_assoc]

theorem Dev.extRestrict_active : d.extRestrict i =
    if extReservedBits d.extData = true then (some .malformed, d)
    else if e.perm ||| n.perm ≠ e.perm ∨ n.perm.getLsbD 5 ≠ e.perm.getLsbD 5 ∨ n.withAccessOf e ≠ e then (some .stateConflict, d)
    else (none, (d.setExt i.toNat { e with perm := n.perm, hset := n.hset, gen := e.gen + 1 }).beginChange .restrict [(i, e.gen)]
      (d.slots e.hset.toNat) true) := by
  subst he hn
  refine (if_neg (not_not.mpr hactive)).trans (ite_transport id Iff.rfl (fun _ => rfl) fun _ => ?_)
  refine ite_transport id ?_ (fun _ => rfl) fun _ => rfl
  simp only [Bool.or_eq_true, bne_iff_ne, or_assoc]
  exact Iff.rfl

end

/-! ### EXT_REVOKE (R69, R72, R84) -/

/-- Whether every entry of a list of numbers is one of the table and ACTIVE. -/
def Dev.AllActive (d : Dev) (l : List Nat) : Prop := ∀ k ∈ l, k < 32768 ∧ (d.ext k).state = .active

theorem Dev.allActive_iff (d : Dev) (l : List Nat) :
    (l.any fun k => decide (k ≥ 32768) || (d.ext k).state != .active) = true ↔ ¬ d.AllActive l := by
  simp only [List.any_eq_true, Bool.or_eq_true, decide_eq_true_eq, bne_iff_ne, Dev.AllActive, not_forall, not_and_or, not_lt, exists_prop]

/-- The entries that an EXT_REVOKE of INDEX and COUNT names. -/
def revokedRange (i : ExtIdx) (count : BitVec 8) : List Nat := (List.range (count.toNat + 1)).map (i.toNat + ·)

theorem Dev.extRevoke_refused {d : Dev} {i : ExtIdx} {count : BitVec 8} (h : ¬ d.AllActive (revokedRange i count)) :
    d.extRevoke i count = (some .stateConflict, d) :=
  if_pos ((d.allActive_iff _).mpr h)

/-- Settles O11: an idle COH runs the effect of a command; each command answers what its cases say. -/
theorem extentCommandsTakeEffect : Obligations.ExtentCommandsTakeEffect := by
  intro s i hidle d e n no
  have ends {f : Dev → Option Status × Dev} {st : Status} {t : Dev} (h : f d = (some st, t)) :
      Obl.dev s (s.dev.extCmd f) = .next { s with dev := t.cmdEnd Reg.coh 0x9104 1 st } := congrArg (Obl.dev s) (Dev.extCmd_ends hidle h)
  have waits {f : Dev → Option Status × Dev} {t : Dev} (h : f d = (none, t)) : Obl.dev s (s.dev.extCmd f) = .next { s with dev := t } :=
    congrArg (Obl.dev s) (Dev.extCmd_waits hidle h)
  refine ⟨ends rfl, fun hfree hcheck => waits (Dev.extAssign_assigns rfl rfl hfree hcheck), fun hactive hform hacc hperm hset hfrozen => ?grant,
    fun hactive hform hperm hfrozen honly => ?restrict, fun count hall => ?revoke, fun hrev => waits (Dev.extScrub_revoked rfl hrev),
    ⟨fun hfree => ends (Dev.extAssign_notFree rfl hfree), fun hfree hcheck => ends (Dev.extAssign_refused rfl hfree hcheck)⟩,
    ⟨fun hstate => ⟨ends (Dev.extGrant_notActive rfl hstate), ends (Dev.extRestrict_notActive rfl hstate)⟩,
      fun hactive hform => ⟨ends ?grantForm, ends ?restrictForm⟩,
      fun hactive hform => ⟨fun hno => ends ?grantRefused, fun hno => ends ?restrictRefused⟩⟩,
    fun count hall => ends (Dev.extRevoke_refused hall), fun hrev => ends (Dev.extScrub_refused rfl hrev)⟩
  case grant =>
    refine ends ((Dev.extGrant_active rfl rfl hactive).trans ((if_neg (ne_true_of_eq_false hform)).trans (if_neg ?_)))
    rintro (h | h | h | h)
    · exact ne_true_of_eq_false hacc h
    · exact h hperm
    · exact h hset
    · exact h hfrozen
  case restrict =>
    refine waits ((Dev.extRestrict_active rfl rfl hactive).trans ((if_neg (ne_true_of_eq_false hform)).trans (if_neg ?_)))
    rintro (h | h | h)
    · exact h hperm
    · exact h hfrozen
    · exact h honly
  case revoke => exact waits (if_neg ((d.allActive_iff _).not.mpr (not_not.mpr hall)))
  case grantForm => exact (Dev.extGrant_active rfl rfl hactive).trans (if_pos hform)
  case restrictForm => exact (Dev.extRestrict_active rfl rfl hactive).trans (if_pos hform)
  case grantRefused => exact (Dev.extGrant_active rfl rfl hactive).trans ((if_neg (ne_true_of_eq_false hform)).trans (if_pos hno))
  case restrictRefused => exact (Dev.extRestrict_active rfl rfl hactive).trans ((if_neg (ne_true_of_eq_false hform)).trans (if_pos hno))

end Sys2Proof.Machine
end

section
/-! PROOFS. The commands of host sets and publication regions. -/

namespace Sys2Proof.Machine

/-! ### HSET_WRITE (R58, R69, R74) -/

/-- A range slot of a host set is stored. -/
def Dev.putSlot (set : BitVec 12) (sl : BitVec 4) (w : Word64) (d : Dev) : Dev :=
  d.modCoh fun c => { c with hsets := Tbl.set 0 (set.toNat * 16 + sl.toNat) w c.hsets }

/-- The ACTIVE extents that name a host set. -/
def Dev.usersOf (d : Dev) (set : BitVec 12) : List (Nat × Ext) := d.coh.exts.filter fun x => x.2.state == .active && x.2.hset == set

/-- Whether the image of a slot has a 1 in a reserved bit or a range past 0xFFFF. -/
def slotMalformed (w : Word64) : Prop := bits w.toNat 63 46 ≠ 0 ∨ w.toNat % 65536 + bits w.toNat 31 16 > 0xFFFF

section
variable {d : Dev} {set : BitVec 12} {sl : BitVec 4} {w : Word64} (hw : BitVec.ofNat 64 (d.data 0x9110 2) = w)
include hw

theorem Dev.hsetWrite_malformed (h : slotMalformed w) : d.hsetWrite set sl = (some .malformed, d) := by
  subst hw
  exact if_pos h

variable (hformed : ¬ slotMalformed w)
include hformed

theorem Dev.hsetWrite_stores (h : (d.slot set.toNat sl.toNat).getLsbD 45 = false ∨ d.slot set.toNat sl.toNat = w ∨ d.usersOf set = []) :
    d.hsetWrite set sl = (some .ok, d.putSlot set sl w) := by
  subst hw
  refine (if_neg hformed).trans ?_
  by_cases hkept : (!(d.slot set.toNat sl.toNat).getLsbD 45) = true ∨ d.slot set.toNat sl.toNat = BitVec.ofNat 64 (d.data 0x9110 2)
  · exact if_pos hkept
  · rw [not_iff_false] at hkept
    have hnone := (h.resolve_left fun x => hkept (.inl x)).resolve_left fun x => hkept (.inr x)
    refine (if_neg ?_).trans (if_pos (List.isEmpty_iff.mpr hnone))
    rwa [not_iff_false]

theorem Dev.hsetWrite_drains (hvalid : (d.slot set.toNat sl.toNat).getLsbD 45 = true) (hchange : d.slot set.toNat sl.toNat ≠ w)
    (husers : d.usersOf set ≠ []) :
    d.hsetWrite set sl = (none, (((d.usersOf set).foldl (fun x y => x.setExt y.1 { y.2 with gen := y.2.gen + 1 }) (d.putSlot set sl w)).beginChange
      .hset ((d.usersOf set).map fun x => (BitVec.ofNat 15 x.1, x.2.gen)) (d.slots set.toNat) true)) := by
  subst hw
  refine (if_neg hformed).trans ((if_neg ?_).trans (if_neg (mt List.isEmpty_iff.mp husers)))
  rw [not_iff_false, hvalid]
  exact not_or.mpr ⟨Bool.true_eq_false.mp, hchange⟩

end

/-! ### REGION_CREATE (R69, R79) -/

/-- A region is listed with VERSION 0 for an owner, and the write of its record line begins. -/
def Dev.listRegion (n : BitVec 12) (owner : PartId) (off : Nat) (d : Dev) : Dev :=
  (d.modCoh fun c => { c with regions := Tbl.put n.toNat ⟨owner, BitVec.ofNat 42 (off / 64), 0, none, []⟩ c.regions, regionWait := some n.toNat }).tryRegion

/-- Whether an ACTIVE extent of a partition holds a pool offset that an image names. -/
def Dev.OwnerHolds (d : Dev) (off : Nat) (owner : PartId) : Prop := off < 2 ^ 48 ∧ ∃ e, d.extAt off = some e ∧ e.2.state = .active ∧ e.2.part = owner

theorem Dev.regionCreate_listed {d : Dev} {n : BitVec 12} (h : (Tbl.find d.coh.regions n.toNat).isSome = true) :
    d.regionCreate n = (some .stateConflict, d) := if_pos h

section
variable {d : Dev} {n : BitVec 12} (hnew : Tbl.find d.coh.regions n.toNat = none)
include hnew

theorem Dev.regionCreate_unaligned (h : d.data 0x9110 2 % 64 ≠ 0) : d.regionCreate n = (some .malformed, d) :=
  (if_neg (by simp [hnew])).trans (if_pos h)

theorem Dev.regionDestroy_absent : d.regionDestroy n = (some .stateConflict, d) := if_neg (by simp [hnew])

variable (haligned : d.data 0x9110 2 % 64 = 0)
include haligned

theorem Dev.regionCreate_lists {e : Nat × Ext} (hlow : d.data 0x9110 2 < 2 ^ 48) (hext : d.extAt (d.data 0x9110 2) = some e)
    (hactive : e.2.state = .active) (hpart : e.2.part = BitVec.ofNat 12 (d.data 0x9118 1)) :
    d.regionCreate n = (none, d.listRegion n e.2.part (d.data 0x9110 2)) := by
  refine (if_neg (by simp [hnew])).trans ((if_neg (not_not.mpr haligned)).trans ?_)
  rw [hext]
  refine (if_pos ⟨hlow, hactive, hpart⟩).trans ?_
  rw [hpart]
  rfl

theorem Dev.regionCreate_refused (h : ¬ d.OwnerHolds (d.data 0x9110 2) (BitVec.ofNat 12 (d.data 0x9118 1))) :
    d.regionCreate n = (some .stateConflict, d) := by
  refine (if_neg (by simp [hnew])).trans ((if_neg (not_not.mpr haligned)).trans ?_)
  split
  · next i e hext => exact if_neg fun ⟨hlow, hactive, hpart⟩ => h ⟨hlow, (i, e), hext, hactive, hpart⟩
  · rfl

end

/-- Settles O12: an idle COH runs the effect of a command; each command answers what its cases say. -/
theorem hostSetAndRegionCommandsTakeEffect : Obligations.HostSetAndRegionCommandsTakeEffect := by
  intro s set sl n hidle d w old put users no
  have ends {f : Dev → Option Status × Dev} {st : Status} {t : Dev} (h : f d = (some st, t)) :
      Obl.dev s (s.dev.extCmd f) = Obl.dev s (t.cmdEnd Reg.coh 0x9104 1 st) := congrArg (Obl.dev s) (Dev.extCmd_ends hidle h)
  have waits {f : Dev → Option Status × Dev} {t : Dev} (h : f d = (none, t)) : Obl.dev s (s.dev.extCmd f) = Obl.dev s t :=
    congrArg (Obl.dev s) (Dev.extCmd_waits hidle h)
  refine ⟨ends rfl, fun hbits hrange => ⟨fun hquiet => ends (Dev.hsetWrite_stores rfl ?_ hquiet), fun hvalid hchange husers =>
      waits (Dev.hsetWrite_drains rfl ?_ hvalid hchange husers)⟩,
    fun e hnew haligned hlow hext hactive hpart => waits (Dev.regionCreate_lists hnew haligned hlow hext hactive hpart),
    fun hlisted => ends (if_pos hlisted), fun hform => ends (Dev.hsetWrite_malformed rfl hform),
    fun hlisted => ends (Dev.regionCreate_listed hlisted), fun hnew hoff => ends (Dev.regionCreate_unaligned hnew hoff),
    fun hnew haligned hno => ends (Dev.regionCreate_refused hnew haligned hno), fun hnew => ends (Dev.regionDestroy_absent hnew)⟩
  all_goals exact not_or.mpr ⟨not_not.mpr hbits, Nat.not_lt.mpr hrange⟩

end Sys2Proof.Machine
end

section
/-! PROOFS. The host commands. -/

namespace Sys2Proof.Machine

/-! ### HOST_READ, CLEAR_DEAD and DECLARE_DEAD (R154, R155) -/

/-- A dead host returns to normal, with a record (R155). -/
def Dev.clearHost (n : NodeId) (d : Dev) : Dev :=
  (d.setHost n { state := .normal, since := 0, nonces := [], probed := 0, swept := ⟨true, true⟩, serving := ⟨false, false⟩ }).logHost n 0 6 0 none

theorem Dev.clearDead_swept {d : Dev} {n : NodeId} (hdead : (d.host n).state = .dead) (hwest : (d.host n).swept.west = true)
    (heast : (d.host n).swept.east = true) : d.clearDead n = (.ok, d.clearHost n) := if_pos ⟨hdead, hwest, heast⟩

theorem Dev.declareDeadCmd_dead {d : Dev} {n : NodeId} (h : d.isDead n = true) : d.declareDeadCmd n = (.stateConflict, d) := if_pos h

theorem Dev.declareDeadCmd_self {d : Dev} {n : NodeId} (h : d.isDead n = false) (hself : n = d.nodeId) : d.declareDeadCmd n = (.malformed, d) :=
  (if_neg (ne_true_of_eq_false h)).trans (if_pos hself)

theorem Dev.declareDeadCmd_declares {d : Dev} {n : NodeId} (h : d.isDead n = false) (hother : n ≠ d.nodeId) :
    d.declareDeadCmd n = (.ok, d.declareDead n 5) :=
  (if_neg (ne_true_of_eq_false h)).trans (if_neg hother)

/-- Settles O14: an idle block runs the effect of a host command and ends it; each command answers what its cases say. -/
theorem hostCommandsTakeEffect : Obligations.HostCommandsTakeEffect := by
  intro s n hidle d x
  have run {f : Dev → Status × Dev} {st : Status} {t : Dev} (h : f d = (st, t)) :
      Obl.dev s (s.dev.hostCmd f) = Obl.dev s (t.cmdEnd Reg.coh 0x9144 4 st) := by
    rw [Dev.hostCmd_idle f s.dev hidle, h]
  refine ⟨run ?reads, fun hdead hwest heast => run (Dev.clearDead_swept hdead hwest heast),
    fun hlive hother => run (Dev.declareDeadCmd_declares hlive hother), fun hno => run (if_neg hno), fun hdead => run (Dev.declareDeadCmd_dead hdead),
    fun hlive hself => run (Dev.declareDeadCmd_self hlive hself)⟩
  case reads =>
    unfold Dev.hostRead Dev.hostCode
    rfl

end Sys2Proof.Machine
end

section
/-! PROOFS. The events of extents: the end of INIT and of a scrub, the end of a change, and the sweep passes. -/

namespace Sys2Proof.Machine

/-! ### INIT and scrub end (R71, R78, R179) -/

theorem Dev.extInitDone_init {d : Dev} {i : ExtIdx} (h : (d.ext i.toNat).state = .init) :
    d.extInitDone i = ((d.zeroExtent (d.ext i.toNat)).setExt i.toNat
      { d.ext i.toNat with state := .active, secret := d.slotSecret (d.ext i.toNat) }).cmdEnd Reg.coh 0x9104 1 .ok := if_pos h

theorem Dev.extInitDone_other {d : Dev} {i : ExtIdx} (h : (d.ext i.toNat).state ≠ .init) : d.extInitDone i = d := if_neg h

/-- Whether a writeback of a tiered extent runs. -/
def Dev.WritesBack (d : Dev) (i : ExtIdx) : Prop := (d.ext i.toNat).tiered = true ∧ ∃ w ∈ d.tier.wbs, (d.frame w.frame).ext = i

theorem Dev.writesBack_iff (d : Dev) (i : ExtIdx) :
    ((d.ext i.toNat).tiered = true ∧ (d.tier.wbs.any fun w => (d.frame w.frame).ext == i) = true) ↔ d.WritesBack i := by
  simp only [Dev.WritesBack, List.any_eq_true, beq_iff_eq]

/-- The content of a scrubbed extent is gone: its frames, its fills and its lines (R78, R179). -/
def Dev.scrubContent (i : ExtIdx) (e : Ext) (d : Dev) : Dev :=
  (((d.tier.frames.filter fun f => e.tiered && f.2.ext == i).foldl (fun d f => d.freeFrame f.1) d).modTier fun t =>
    { t with fills := t.fills.filter fun f => !(e.tiered && f.ext == i) }).zeroExtent e

/-- A scrub is recorded in the security log and counted (R78, R510). -/
def Dev.recordScrub (i : ExtIdx) (e : Ext) (d : Dev) : Dev :=
  (d.secLog 4 0 { type := 0, sev := 0, block := 0, part := some e.part,
                  detail := [(41, 2, e.keySlot.toNat), (44, 4, i.toNat), (48, 8, e.size)] }).bump Reg.sec 0x068 1

theorem Dev.scrubDone_other {d : Dev} {i : ExtIdx} (h : (d.ext i.toNat).state ≠ .scrubbing) : d.scrubDone i = d := if_pos h

theorem Dev.scrubDone_waits {d : Dev} {i : ExtIdx} (h : d.WritesBack i) : d.scrubDone i = d := by
  unfold Dev.scrubDone
  dsimp only
  rw [if_pos ((d.writesBack_iff i).mpr h), ite_self]

theorem Dev.scrubDone_frees {d : Dev} {i : ExtIdx} {e : Ext} (he : d.ext i.toNat = e) (h : e.state = .scrubbing) (hidle : ¬ d.WritesBack i) :
    d.scrubDone i = (((d.scrubContent i e).recordScrub i e).setExt i.toNat { extReset with gen := e.gen }).cmdEnd Reg.coh 0x9104 1 .ok := by
  subst he
  exact (if_neg (not_not.mpr h)).trans (if_neg ((d.writesBack_iff i).not.mpr hidle))

/-! ### The end of a change (R72, R73) -/

theorem Dev.changeEnd_absent {d : Dev} {id : Nat} (h : (d.coh.changes.find? fun x => x.id == id) = none) : d.changeEnd id = d := by
  unfold Dev.changeEnd
  rw [h]

/-- The extents of a revocation that are still REVOKING become REVOKED. -/
def Dev.revoked (l : List (ExtIdx × BitVec 16)) (d : Dev) : Dev :=
  l.foldl (fun d x =>
    if (d.ext x.1.toNat).state = .revoking then d.setExt x.1.toNat { d.ext x.1.toNat with state := .revoked } else d) d

/-- The command that a change holds back completes OK. -/
def Dev.endChangeOf (c : Change) (d : Dev) : Dev := if c.command = true then d.cmdEnd Reg.coh 0x9104 1 .ok else d

section
variable {d : Dev} {c : Change} (hc : (d.coh.changes.find? fun x => x.id == c.id) = some c)
include hc

theorem Dev.changeEnd_running (h : d.changeOver c = false) : d.changeEnd c.id = d := by
  unfold Dev.changeEnd
  rw [hc]
  exact if_pos (by simp [h])

theorem Dev.changeEnd_publish {n : BitVec 12} (h : c.why = .publish n) : d.changeEnd c.id = d := by
  unfold Dev.changeEnd
  rw [hc]
  dsimp only
  rw [h]
  exact ite_self d

theorem Dev.changeEnd_over (hover : d.changeOver c = true) (hwhy : ∀ n, c.why ≠ .publish n) :
    let d1 := d.modCoh fun x => { x with changes := x.changes.filter fun y => y.id ≠ c.id }
    d.changeEnd c.id = Dev.endChangeOf c (if c.why = .revoke then d1.revoked c.exts else d1) := by
  unfold Dev.changeEnd
  rw [hc]
  refine (if_neg (by simp [hover])).trans ?_
  cases h : c.why
  case publish n => exact absurd h (hwhy n)
  all_goals rfl

end

/-! ### Sweep passes (R75, R152) -/

/-- A sweep pass of a half opens: it takes the first 256 changes that the half has not swept, and its dead hosts. -/
def Dev.openPass (h : Half) (d : Dev) : Dev :=
  let ids := ((d.coh.changes.filter fun c => !c.swept.at h).map (·.id)).take 256
  d.modCoh fun c => { c with
    sweeping := c.sweeping.set h (some d.now),
    changes := c.changes.map fun x => if ids.contains x.id then { x with serving := x.serving.set h true } else x,
    hosts := c.hosts.map fun x => if x.2.state == .dead && !x.2.swept.at h then (x.1, { x.2 with serving := x.2.serving.set h true }) else x }

/-- A sweep pass of a half closes: what it served is swept. -/
def Dev.closePass (h : Half) (d : Dev) : Dev :=
  d.modCoh fun c => { c with
    sweeping := c.sweeping.set h none,
    changes := c.changes.map fun x => if x.serving.at h then { x with serving := x.serving.set h false, swept := x.swept.set h true } else x,
    hosts := c.hosts.map fun x =>
      if x.2.serving.at h then (x.1, { x.2 with serving := x.2.serving.set h false, swept := x.2.swept.set h true }) else x }

theorem Dev.sweepStart_opens {d : Dev} {h : Half} (hidle : d.coh.sweeping.at h = none) (hwanted : d.sweepWanted h = true) :
    d.sweepStart h = (d.openPass h).sweepVisit h := if_neg (by simp [hidle, hwanted])

theorem Dev.sweepStart_not {d : Dev} {h : Half} (hno : d.coh.sweeping.at h ≠ none ∨ d.sweepWanted h = false) : d.sweepStart h = d :=
  if_pos (hno.imp Option.isSome_iff_ne_none.mpr (by simp))

theorem Dev.sweepEnd_idle {d : Dev} {h : Half} (hidle : d.coh.sweeping.at h = none) : d.sweepEnd h = d := by
  unfold Dev.sweepEnd
  rw [hidle]

theorem Dev.sweepEnd_running {d : Dev} {h : Half} {t : Nat} (hrun : d.coh.sweeping.at h = some t) : d.sweepEnd h =
    if d.now < t + 81920 then d
    else if (d.sweepVisit h).sweepClean h = true then (d.sweepVisit h).closePass h else d.sweepVisit h := by
  unfold Dev.sweepEnd
  rw [hrun]
  exact ite_transport id Iff.rfl (fun _ => rfl) fun _ => ite_not_true _ _ _

/-- Settles O13: each event does what its cases say. -/
theorem extentEventsTakeEffect : Obligations.ExtentEventsTakeEffect := by
  refine ⟨fun s i hinit => congrArg (Obl.dev s) (Dev.extInitDone_init hinit), fun s i hscrub hwbs => ?scrub, fun s i => ?others,
    fun s id hnone => congrArg (Obl.dev s) (Dev.changeEnd_absent hnone), fun s c hc hno => congrArg (Obl.dev s) ?kept, fun s c hc hover => ?ended,
    fun s h hidle hwanted => congrArg (Obl.dev s) (Dev.sweepStart_opens hidle hwanted), fun s h t hrun hlate hclean => congrArg (Obl.dev s) ?closes,
    fun s h => ⟨fun hno => congrArg (Obl.dev s) (Dev.sweepStart_not hno), fun hidle => congrArg (Obl.dev s) (Dev.sweepEnd_idle hidle),
      fun t hrun => ⟨fun hearly => congrArg (Obl.dev s) ?early, fun hlate hclean => congrArg (Obl.dev s) ?unclean⟩⟩⟩
  case scrub =>
    exact congrArg (Obl.dev s) (Dev.scrubDone_frees rfl hscrub fun ⟨htiered, w, hw, hext⟩ => hwbs htiered w hw hext)
  case others =>
    exact ⟨fun hstate => congrArg (Obl.dev s) (Dev.extInitDone_other hstate), fun hstate => congrArg (Obl.dev s) (Dev.scrubDone_other hstate),
      fun w hw htiered hext => congrArg (Obl.dev s) (Dev.scrubDone_waits ⟨htiered, w, hw, hext⟩)⟩
  case kept =>
    rcases hno with hrun | ⟨n, hpub⟩
    · exact Dev.changeEnd_running hc hrun
    · exact Dev.changeEnd_publish hc hpub
  case ended =>
    refine ⟨fun hwhy => congrArg (Obl.dev s) ?plain, fun hwhy => congrArg (Obl.dev s) ?revocation⟩
    case plain =>
      rw [Dev.changeEnd_over hc hover fun n h => by simp [h] at hwhy, if_neg fun h => by simp [h] at hwhy]
      rfl
    case revocation =>
      rw [Dev.changeEnd_over hc hover fun n h => by simp [h] at hwhy, if_pos hwhy]
      rfl
  case closes =>
    rw [Dev.sweepEnd_running hrun, if_neg (Nat.not_lt.mpr hlate), if_pos hclean]
    rfl
  case early => exact (Dev.sweepEnd_running hrun).trans (if_pos hearly)
  case unclean =>
    rw [Dev.sweepEnd_running hrun, if_neg (Nat.not_lt.mpr hlate), if_neg (ne_true_of_eq_false hclean)]

end Sys2Proof.Machine
end

section
/-! PROOFS. The commands of SEC and the partition commands of GLB. -/

namespace Sys2Proof.Machine

/-! ### SEC_LOG_READ, QUIET_SET and FKEY_FLUSH (R495, R513, R514, R521) -/

theorem Dev.secLogRead_eq (d : Dev) : d.secLogRead =
    match d.sec.log.find? fun e => e.seq.toNat == bits d.secData 31 0 with
    | some e => (some .ok, d.setData 0x6120 16 e.view.toNat)
    | none => (some .stateConflict, d) := rfl

/-- The quiet mode that QUIET_SET sets: it clears the overruns when it turns on (R513, R514). -/
def Quiet.setBy (x : Nat) (q : Quiet) : Quiet :=
  { on := decide (bits x 0 0 = 1), period := BitVec.ofNat 8 (bits x 15 8), lat := BitVec.ofNat 6 (bits x 31 16),
    overruns := if bits x 0 0 = 1 ∧ ¬ q.on = true then 0 else q.overruns, lastSlot := q.lastSlot }

theorem Dev.quietSet_absent {p : PartId} {x : Nat} {d : Dev} (h : d.part? p = none) : d.quietSet p x =
    if bits x 15 8 < 2 ∨ bits x 31 16 < 5 ∨ 35 < bits x 31 16 then (some .malformed, d) else (some .stateConflict, d) := by
  unfold Dev.quietSet
  rw [h]

theorem Dev.quietSet_live {p : PartId} {x : Nat} {d : Dev} {q : Part} (h : d.part? p = some q) : d.quietSet p x =
    if bits x 15 8 < 2 ∨ bits x 31 16 < 5 ∨ 35 < bits x 31 16 then (some .malformed, d)
    else if ((d.queuesOf p).any fun x => x.2.state != .stopped) = true ∨ (bits x 0 0 = 1 ∧ q.spill.isNone = true) then (some .stateConflict, d)
    else (some .ok, d.modPart p fun y => { y with quiet := y.quiet.setBy x }) := by
  unfold Dev.quietSet
  rw [h]
  rfl

theorem Dev.partDestroy_absent {p : PartId} {d : Dev} (h : d.part? p = none) : d.partDestroy p = (some .stateConflict, d) := by
  unfold Dev.partDestroy
  rw [h]

/-- The keys of a partition are flushed, its destruction is recorded, and it is gone (R511, R677). -/
def Dev.removePart (p : PartId) (d : Dev) : Dev :=
  let d := (d.flushKeys p).secLog 5 0 { type := 0, sev := 0, block := 0, part := some p, detail := [(41, 2, p.toNat)] }
  { d with parts := Tbl.drop p.toNat d.parts }

theorem Dev.partDestroy_live {p : PartId} {d : Dev} {x : Part} (h : d.part? p = some x) :
    d.partDestroy p = if d.partBusy p x = true then (some .stateConflict, d) else (some .ok, d.removePart p) := by
  unfold Dev.partDestroy
  rw [h]
  rfl

/-- Settles O40: an idle block runs the effect of a command; each command answers what its cases say. -/
theorem securityAndPartitionCommandsTakeEffect : Obligations.SecurityAndPartitionCommandsTakeEffect := by
  intro s p d x g sec glb
  let afterSec (r : Option Status × Dev) : Host.Outcome State Fault Refusal := Obl.dev s (Dev.secEnd r)
  let afterGlb (r : Option Status × Dev) : Host.Outcome State Fault Refusal := Obl.dev s (Dev.glbEnd r)
  refine ⟨fun hidle => ?security, ite_transport next Iff.rfl (fun _ => rfl) fun _ => rfl, fun hidle => ⟨fun hearly c hc => ?early, fun hservice => ?global⟩⟩
  case security =>
    have run (f : Dev → Option Status × Dev) : Obl.dev s (s.dev.secCmd f) = afterSec (f d) := congrArg (Obl.dev s) (Dev.secCmd_idle f s.dev hidle)
    refine ⟨run _, run _, (run _).trans ?log, fun hconf => (run _).trans (congrArg afterSec (Dev.unlessConf_confidential p _ d hconf)),
      fun hopen => (run _).trans ((congrArg afterSec (Dev.unlessConf_open p _ d hopen)).trans ?quiet), (run _).trans ?flush, (run _).trans ?svn⟩
    case log =>
      rw [Dev.secLogRead_eq]
      cases d.sec.log.find? fun e => e.seq.toNat == bits x 31 0 <;> rfl
    case quiet =>
      cases hp : d.part? p with
      | none =>
        rw [Dev.quietSet_absent hp]
        exact ite_transport afterSec Iff.rfl (fun _ => rfl) fun _ => rfl
      | some q =>
        rw [Dev.quietSet_live hp]
        exact ite_transport afterSec Iff.rfl (fun _ => rfl) fun _ => ite_transport afterSec Iff.rfl (fun _ => rfl) fun _ => rfl
    case flush => exact ite_transport afterSec Iff.rfl (fun _ => rfl) fun _ => rfl
    case svn => exact ite_transport afterSec Iff.rfl (fun _ => rfl) fun _ => rfl
  case early =>
    have run (f : Dev → Option Status × Dev) : Obl.dev s (s.dev.glbCmd f) = glb .stateConflict g :=
      congrArg (Obl.dev s) (Dev.glbCmd_early f s.dev hidle hearly)
    simp only [List.mem_cons, List.not_mem_nil, or_false] at hc
    rcases hc with rfl | rfl | rfl | rfl | rfl <;> exact run _
  case global =>
    have run (f : Dev → Option Status × Dev) : Obl.dev s (s.dev.glbCmd f) = afterGlb (f g) :=
      congrArg (Obl.dev s) (Dev.glbCmd_idle f s.dev hidle hservice)
    refine ⟨run _, fun c => (run _).trans ?create, (run _).trans ?destroy, run _⟩
    case create => exact ite_transport afterGlb Iff.rfl (fun _ => rfl) fun _ => rfl
    case destroy =>
      cases hp : g.part? p with
      | none => rw [Dev.partDestroy_absent hp]; rfl
      | some y =>
        rw [Dev.partDestroy_live hp]
        exact ite_transport afterGlb Iff.rfl (fun _ => rfl) fun _ => rfl

end Sys2Proof.Machine
end

section
/-! PROOFS. The machine right after reset. -/

namespace Sys2Proof.Machine

/-- At reset no register word is listed, so each reads its reset value. -/
theorem Dev.reg_reset (a : Nat) : Dev.reset.reg a = regReset a := rfl

/-- At reset no counter is listed, so each is 0. -/
theorem Dev.ctr_reset (p o : Nat) : Dev.reset.ctr p o = 0 := rfl

/-- At reset no extent entry is listed, so each is absent. -/
theorem Dev.ext_reset (i : Nat) : Dev.reset.ext i = extReset := rfl

/-- DDR.SCHED_CFG of every channel has one reset value (R232). -/
theorem regReset_schedCfg : ∀ c, c < 24 → regReset (Dev.ddrA c + 0x104) = 0x144430 := by decide

/-- Settles O56: what is listed at reset is nothing, and the named registers have the reset values of their rows. -/
theorem resetLeavesTheStatedValues : Obligations.ResetLeavesTheStatedValues := by
  refine ⟨rfl, .refl _, .refl _, ?node, ?comp, ?syncCfg, ?syncSts, rfl, rfl, ?hold, ?nack, ?drive, fun c hc => ?sched, ?cap,
    fun e => ⟨congrArg Ext.state (Dev.ext_reset e), congrArg Ext.gen (Dev.ext_reset e)⟩, rfl, rfl, Dev.ctr_reset⟩
  case sched => exact (Dev.reg_reset _).trans (regReset_schedCfg c hc)
  all_goals decide

end Sys2Proof.Machine
end

section
/-! PROOFS. Doorbells and the security mailbox. -/

namespace Sys2Proof.Machine

/-! ### The header of a request at its home (R635) -/

@[simp] theorem Dev.sentBy_offset (d : Dev) (h : ReqHdr) : (d.sentBy h).offset = h.offset := by unfold Dev.sentBy; split <;> rfl
@[simp] theorem Dev.sentBy_tag (d : Dev) (h : ReqHdr) : (d.sentBy h).tag = h.tag := by unfold Dev.sentBy; split <;> rfl
@[simp] theorem Dev.sentBy_pv (d : Dev) (h : ReqHdr) : (d.sentBy h).pv = h.pv := by unfold Dev.sentBy; split <;> rfl

/-! ### Doorbell writes (R543 to R545) -/

/-- A request comes under a fabric key of a partition, if the partition is confidential (R506, R544). -/
def Dev.KeyedFor (d : Dev) (part : PartId) (g : ReqHdr) : Prop :=
  d.conf part = false ∨ ∃ k f, g.fkey = some k ∧ d.fkey k.toNat = some f ∧ f.part = part

theorem Dev.doorbellKeyed_iff (d : Dev) (part : PartId) (g : ReqHdr) : d.doorbellKeyed part false g = true ↔ d.KeyedFor part g := by
  unfold Dev.doorbellKeyed Dev.KeyedFor
  cases hk : g.fkey with
  | none => simp
  | some k => cases hf : d.fkey k.toNat <;> simp [hf]

/-- A partition exists and one of its ACTIVE extents admits the node of a request (R496, R544). -/
def Dev.AdmitsTo (d : Dev) (part : PartId) (g : ReqHdr) : Prop := (d.part? part).isSome = true ∧ d.admitsNode part g.src (ReqHdr.spart? g) = true

/-- A refused doorbell write is counted, and recorded with its source and queue (R544, R705). -/
def Dev.refuseBell (cause : Nat) (b : Option (List Byte)) (part : PartId) (g : ReqHdr) (d : Dev) : Dev :=
  (d.bump Reg.irq 0x048 1).logPolicy (viaHalf g.via) cause (b.elim 0 (leAt · 4 2)) (b.elim 0 (leAt · 0 2)) part (some g.src) .noAccess

/-- A doorbell as 8 bytes spell it (R542). -/
def bellOf (part : PartId) (node : NodeId) (a : Option ReqHdr) (x : List Byte) : Bell :=
  ⟨BitVec.ofNat 16 (leAt x 0 2), part, BitVec.ofNat 16 (leAt x 2 2), BitVec.ofNat 16 (leAt x 4 2), node, a⟩

theorem Dev.doorbellWrite_malformed {d : Dev} {g : ReqHdr} {form : DoorbellForm}
    (h : doorbellBytes form = none ∨ g.offset.toNat % 4096 ≥ 2048) :
    d.doorbellWrite g form false = (some .noAccess, d.bump Reg.irq 0x048 1) := by
  unfold Dev.doorbellWrite
  by_cases hat : ¬ inGutter g.offset.toNat = true ∨ g.offset.toNat % 4096 ≥ 2048
  · exact if_pos hat
  · rw [h.resolve_right fun hhigh => hat (.inr hhigh)]
    exact if_neg hat

section
variable {d : Dev} {g : ReqHdr} {form : DoorbellForm} {l : List (List Byte)} {part : PartId}
  (hin : inGutter g.offset.toNat = true) (hlow : g.offset.toNat % 4096 < 2048) (hpart : gutterPart g.offset.toNat = part)
  (hform : doorbellBytes form = some l)
include hin hlow hpart hform

theorem Dev.doorbellWrite_closed (hopen : ¬ d.AdmitsTo part g) : d.doorbellWrite g form false = (some .noAccess, d.refuseBell 1 l.head? part g) := by
  subst hpart
  have hb : ((d.part? (gutterPart g.offset.toNat)).isSome && d.admitsNode (gutterPart g.offset.toNat) g.src (ReqHdr.spart? g)) = false := by
    rwa [← Bool.not_eq_true, Bool.and_eq_true]
  unfold Dev.doorbellWrite
  refine (if_neg (by simp [hin, hlow])).trans ?_
  simp only [hform, ← Bool.not_and, hb, Bool.false_and, Bool.not_false, Bool.true_or, if_true, Bool.false_eq_true, if_false]
  cases l <;> rfl

variable (hopen : d.AdmitsTo part g)
include hopen

theorem Dev.doorbellWrite_unkeyed (hkey : ¬ d.KeyedFor part g) :
    d.doorbellWrite g form false = (some .noAccess, d.refuseBell 3 l.head? part g) := by
  subst hpart
  rw [← Dev.doorbellKeyed_iff, Bool.not_eq_true] at hkey
  unfold Dev.doorbellWrite
  refine (if_neg (by simp [hin, hlow])).trans ?_
  simp only [hform, hopen.1, hopen.2, hkey, Bool.not_true, Bool.not_false, Bool.or_true, Bool.true_or, Bool.and_false, Bool.and_true,
    Bool.false_eq_true, if_true, if_false]
  cases l <;> rfl

variable (hkey : d.KeyedFor part g)
include hkey

theorem Dev.doorbellWrite_reserved {b : List Byte} (hres : (l.find? fun b => leAt b 6 2 != 0) = some b) :
    d.doorbellWrite g form false = (some .noAccess, d.refuseBell 1 (some b) part g) := by
  subst hpart
  rw [← Dev.doorbellKeyed_iff] at hkey
  unfold Dev.doorbellWrite
  refine (if_neg (by simp [hin, hlow])).trans ?_
  simp only [hform, hopen.1, hopen.2, hkey, hres, Bool.not_true, Option.isSome_some, Bool.or_true, Bool.and_true, Bool.and_false,
    Bool.false_eq_true, if_true, if_false]
  rfl

theorem Dev.doorbellWrite_admitted (hres : (l.find? fun b => leAt b 6 2 != 0) = none) :
    d.doorbellWrite g form false = let t := (d.bump Reg.irq 0x040 l.length).noteBell part
      if l.isEmpty then (some .ok, t)
      else (none, t.ring (l.zipIdx.map fun x => bellOf part g.src (if x.2 + 1 == l.length then some g else none) x.1)) := by
  subst hpart
  rw [← Dev.doorbellKeyed_iff] at hkey
  unfold Dev.doorbellWrite
  refine (if_neg (by simp [hin, hlow])).trans ?_
  simp only [hform, hopen.1, hopen.2, hkey, hres, Bool.not_true, Option.isSome_none, Bool.or_false, Bool.and_true, Bool.not_false,
    Bool.false_eq_true, if_false]
  rfl

end

/-- The last of a list that ends in an element is that element. -/
theorem map_zipIdx_concat {α β : Type} (l : List α) (b : α) (f : α → Bool → β) :
    ((l ++ [b]).zipIdx.map fun x => f x.1 (x.2 + 1 == (l ++ [b]).length)) = l.map (f · false) ++ [f b true] := by
  have hfirst : (l.zipIdx.map fun x => f x.1 (x.2 + 1 == l.length + 1)) = l.zipIdx.map ((f · false) ∘ Prod.fst) := by
    refine List.map_congr_left fun x hx => ?_
    have hlt : x.2 < l.length := by simpa using List.snd_lt_add_of_mem_zipIdx hx
    rw [Function.comp_apply, show (x.2 + 1 == l.length + 1) = false by simpa using hlt.ne]
  rw [List.zipIdx_append, List.map_append, List.length_append, List.length_singleton, hfirst, ← List.map_map, List.zipIdx_map_fst]
  simp

/-- How a doorbell write goes on: a status answers it, and without one its last doorbell does (R545). -/
def Dev.bellEnd (g : ReqHdr) (r : Option Status × Dev) : Dev :=
  match r.1 with
  | some st => r.2.reply g 0x20 (answerWord st false false false 0 false g.retry.toNat) []
  | none => r.2

section
variable {d : Dev} {h : ReqHdr} (hnode : h.via = .companion → d.compNode ≠ 0xFFFF)
include hnode

theorem Dev.node_set : (h.via == .companion && d.compNode == 0xFFFF) = false := by
  rw [← Bool.not_eq_true, Bool.and_eq_true, beq_iff_eq, beq_iff_eq]
  exact fun hx => hnode hx.1 hx.2

theorem Dev.doorbellReq_dead (form : DoorbellForm) (hdead : d.isDead (d.sentBy h).src = true) :
    d.doorbellReq h form = d.nack (d.sentBy h) .fenced 0 false := by
  unfold Dev.doorbellReq
  simp only [Dev.node_set hnode]
  exact if_pos ⟨rfl, hdead⟩

theorem Dev.hostRequest_dead (kind : ReqKind) (hdead : d.isDead (d.sentBy h).src = true) :
    d.hostRequest h kind = d.nack (d.sentBy h) .fenced 0 false :=
  (if_neg fun hx => hnode hx.1 hx.2).trans (if_pos hdead)

variable (hlive : d.isDead (d.sentBy h).src = false)
include hlive

theorem Dev.doorbellReq_live (form : DoorbellForm) :
    d.doorbellReq h form = Dev.bellEnd (d.sentBy h) (d.doorbellWrite (d.sentBy h) form false) := by
  unfold Dev.doorbellReq
  simp only [Dev.node_set hnode]
  refine (if_neg (by simp [hlive])).trans ?_
  simp only [Bool.false_eq_true, if_false]
  generalize d.doorbellWrite (d.sentBy h) form false = r
  obtain ⟨_ | st, t⟩ := r <;> rfl

variable (hin : inGutter h.offset.toNat = true)
include hin

theorem Dev.hostRequest_gutter (kind : ReqKind) (hop : Dev.badAop kind = false) : d.hostRequest h kind =
    if h.offset.toNat % 4096 ≥ 2048 then d.mailboxReq (d.sentBy h) kind
    else match kind with
      | .writePartial x m => d.doorbellReq (d.sentBy h) (.writePartial x m)
      | _ => (d.bump Reg.irq 0x048 1).ackStatus (d.sentBy h) .noAccess := by
  have habove : ¬ h.offset.toNat < gutterBase := by
    have := hin
    simp only [inGutter, decide_eq_true_eq] at this
    omega
  unfold Dev.hostRequest
  refine (if_neg fun hx => hnode hx.1 hx.2).trans ?_
  refine (if_neg (ne_true_of_eq_false hlive)).trans ?_
  refine (if_neg (ne_true_of_eq_false hop)).trans ((if_neg habove).trans ((if_pos hin).trans ?_))
  cases kind <;> rfl

end

/-! ### Doorbells at their queues (R270) -/

theorem Dev.ringQueue_absent {d : Dev} {b : Bell} (h : d.queue? b.queue = none) : d.ringQueue b = d.bump Reg.opq 0x058 1 := by
  unfold Dev.ringQueue
  rw [h]

section
variable {d : Dev} {b : Bell} {q : Queue} (hq : d.queue? b.queue = some q)
include hq

theorem Dev.ringQueue_foreign (h : q.part ≠ b.part) : d.ringQueue b =
    (d.bump Reg.opq 0x058 1).logPolicy q.half 2 b.source.toNat b.queue.toNat b.part (some b.node) .ok := by
  unfold Dev.ringQueue
  rw [hq]
  exact if_pos h

/-- A doorbell whose queue is on chip, with no earlier one waiting for it, is handled at once. -/
theorem Dev.ring_onChip (hchip : q.onChip = true) (hfirst : (d.opq.bells.any fun x => x.queue == b.queue) = false) :
    d.ring [b] = d.takeBell b := by
  have hwaits : d.bellWaits b = false := by
    unfold Dev.bellWaits
    rw [hq]
    simp [hchip]
  unfold Dev.ring
  simp only [List.foldl_cons, List.foldl_nil, hwaits, hfirst, Bool.or_false, Bool.false_eq_true, if_false]

variable (hpart : q.part = b.part)
include hpart

theorem Dev.ringQueue_own : d.ringQueue b =
    if q.state = .lost ∨ b.tail = q.sqTail ∨ (q.sqTail - q.sqHead).toNat + (b.tail - q.sqTail).toNat > 2 ^ q.sizeLog2 then
      d.bump Reg.opq 0x058 1
    else (d.modOpq fun o => { o with lastUse := o.lastUse + 1 }).modQueue b.queue fun q =>
      { q with sqTail := b.tail, usedAt := d.opq.lastUse + 1 } := by
  have hsame : (b.tail - q.sqTail).toNat = 0 ↔ b.tail = q.sqTail := by
    constructor <;> intro h <;> bv_omega
  unfold Dev.ringQueue
  rw [hq]
  refine (if_neg (not_not.mpr hpart)).trans ?_
  by_cases hlost : q.state = .lost
  · rw [if_pos hlost, if_pos (.inl hlost)]
  · rw [if_neg hlost]
    refine ite_transport id ?_ (fun _ => rfl) fun _ => rfl
    rw [hsame]
    exact (or_iff_right hlost).symm

end

/-! ### The security mailbox (R496, R497) -/

/-- A write of a mailbox line that is taken: a header with STATE 1 starts an exchange, and a line of the payload is stored (R497). -/
def Dev.storeMailbox (part : PartId) (node : NodeId) (line : Nat) (l : List Byte) (d : Dev) : Dev :=
  if line = 0x800 then
    if leAt l 3 1 = 1 then d.modPart part fun q => { q with mailbox := { q.mailbox with
      len := BitVec.ofNat 16 (leAt l 0 2), state := 2, seq := BitVec.ofNat 16 (leAt l 4 2), node := node } } else d
  else d.modPart part fun q => { q with mailbox := Dev.putPayload q.mailbox (line - 0x840) l }

section
variable {d : Dev} {g : ReqHdr} {x : Line} {bad : Bool} {part : PartId} (hpart : gutterPart g.offset.toNat = part)
include hpart

theorem Dev.mailboxReq_closed (h : ¬ d.AdmitsTo part g) : d.mailboxReq g (.writeInval x bad) = d.ackStatus g .noAccess := by
  subst hpart
  unfold Dev.mailboxReq
  dsimp only
  cases hp : d.part? (gutterPart g.offset.toNat) with
  | none => rfl
  | some p => exact if_neg fun hok => h ⟨by rw [hp]; rfl, hok⟩

variable (hopen : d.AdmitsTo part g) {p : Part} (hp : d.part? part = some p)
include hopen hp

theorem Dev.mailboxReq_refused (h : d.heldFor g (BitVec.ofNat 42 (g.offset.toNat / 64)) = true ∨ p.mailbox.state = 2) :
    d.mailboxReq g (.writeInval x bad) = d.refuse g d.now d.baseHint (viaHalf g.via) := by
  subst hpart
  unfold Dev.mailboxReq
  dsimp only
  rw [hp]
  refine (if_pos hopen.2).trans ?_
  cases hheld : d.heldFor g (BitVec.ofNat 42 (g.offset.toNat / 64)) with
  | true => exact if_pos rfl
  | false =>
    refine (if_neg Bool.false_ne_true).trans ?_
    unfold Dev.mailboxWrite
    rw [hp]
    simp only [h.resolve_left (ne_true_of_eq_false hheld), if_true]
    rfl

variable (hheld : d.heldFor g (BitVec.ofNat 42 (g.offset.toNat / 64)) = false) (hidle : p.mailbox.state ≠ 2)
include hheld hidle

theorem Dev.mailboxReq_writes : d.mailboxReq g (.writeInval x bad) =
    ((d.storeMailbox part g.src (g.offset.toNat % 4096 / 64 * 64) (lineBytes x)).ackStatus g .ok).endResv g.src g.tag
      (BitVec.ofNat 42 (g.offset.toNat / 64)) := by
  subst hpart
  have hstore : d.mailboxWrite (gutterPart g.offset.toNat) g.src (g.offset.toNat % 4096 / 64 * 64) x =
      (true, d.storeMailbox (gutterPart g.offset.toNat) g.src (g.offset.toNat % 4096 / 64 * 64) (lineBytes x)) := by
    unfold Dev.mailboxWrite
    rw [hp]
    refine (if_neg hidle).trans (Eq.symm ?_)
    exact ite_transport (Prod.mk true) Iff.rfl (fun _ => ite_transport (Prod.mk true) Iff.rfl (fun _ => rfl) fun _ => rfl) fun _ => rfl
  unfold Dev.mailboxReq
  dsimp only
  rw [hp]
  refine (if_pos hopen.2).trans ((if_neg (ne_true_of_eq_false hheld)).trans ?_)
  rw [hstore]
  rfl

end

theorem Dev.mailboxResponse_idle {pn : PartId} {data : List Byte} {d : Dev} (h : ∀ p, d.part? pn = some p → p.mailbox.state ≠ 2) :
    d.mailboxResponse pn data = d := by
  unfold Dev.mailboxResponse
  split
  · rfl
  · next p hp => exact if_pos (h p hp)

theorem Dev.mailboxResponse_busy {pn : PartId} {data : List Byte} {d : Dev} {p : Part} (hp : d.part? pn = some p) (hbusy : p.mailbox.state = 2) :
    let ty := Tbl.get (0 : Byte) p.mailbox.payload 0
    let r := if ty = 5 ∨ ty = 6 then data.take 1984 else [0xFF]
    d.mailboxResponse pn data = d.modPart pn fun q =>
      { q with mailbox := { Dev.putPayload q.mailbox 0 r with len := BitVec.ofNat 16 r.length, state := 3 } } := by
  unfold Dev.mailboxResponse
  rw [hp]
  exact if_neg (not_not.mpr hbusy)

/-- Settles O18: a doorbell write is refused or rings, a mailbox request is refused or stored, by the cases of the page it comes to. -/
theorem gutterRequestsTakeEffect : Obligations.GutterRequestsTakeEffect := by
  intro s h hnode hin g off part
  have hoff : g.offset = h.offset := s.dev.sentBy_offset h
  have hline : g.offset.toNat = off := congrArg BitVec.toNat hoff
  have hgin : inGutter g.offset.toNat = true := by rwa [hoff]
  have hgpart : gutterPart g.offset.toNat = part := congrArg gutterPart hline
  refine ⟨fun hlive hadmits => ⟨fun form b l hform hres hlow hpart hkey => ?rings, fun d b q hq hpart hlost hchip hhdr hfirst htail hroom => ?bell,
      fun x p hhigh hp hidle hheld => ?mailbox, fun pn p data hp hbusy => congrArg (Obl.dev s) (Dev.mailboxResponse_busy hp hbusy)⟩,
    fun form x hdead => ⟨congrArg (Obl.dev s) (Dev.doorbellReq_dead hnode form hdead), congrArg (Obl.dev s) (Dev.hostRequest_dead hnode _ hdead)⟩,
    fun hlive => ?refused, fun pn data hidle => congrArg (Obl.dev s) (Dev.mailboxResponse_idle hidle),
    fun d b => ⟨Dev.ringQueue_absent, fun q hq => ⟨Dev.ringQueue_foreign hq, fun hpart hno => (Dev.ringQueue_own hq hpart).trans (if_pos hno)⟩⟩⟩
  case rings =>
    have hnone : ((l ++ [b]).find? fun b => leAt b 6 2 != 0) = none := by
      simpa only [List.find?_eq_none, bne_iff_ne, ne_eq, not_not] using hres
    have hlast := map_zipIdx_concat l b fun x last => bellOf part g.src (if last then some g else none) x
    refine congrArg (Obl.dev s) ((Dev.doorbellReq_live hnode hlive form).trans ?_)
    rw [Dev.doorbellWrite_admitted hgin (hline.symm ▸ hlow) hgpart hform ⟨hpart, hadmits⟩ hkey hnone]
    dsimp only
    rw [if_neg (by simp), hlast, List.length_append]
    rfl
  case bell =>
    have hno : ¬ (q.state = .lost ∨ b.tail = q.sqTail ∨ (q.sqTail - q.sqHead).toNat + (b.tail - q.sqTail).toNat > 2 ^ q.sizeLog2) :=
      not_or.mpr ⟨hlost, not_or.mpr ⟨htail, Nat.not_lt.mpr hroom⟩⟩
    rw [Dev.ring_onChip hq hchip hfirst]
    unfold Dev.takeBell
    rw [hhdr, Dev.ringQueue_own hq hpart, if_neg hno]
  case mailbox =>
    refine congrArg (Obl.dev s) ((Dev.hostRequest_gutter hnode hlive hin _ rfl).trans ((if_pos hhigh).trans ?_))
    have hopen : s.dev.AdmitsTo part g := ⟨Option.isSome_iff_exists.mpr ⟨p, hp⟩, hadmits⟩
    rw [← hline] at hheld
    refine (Dev.mailboxReq_writes hgpart hopen hp hheld hidle).trans ?_
    rw [hline]
    rfl
  case refused =>
    intro keyed open_ no counted logged
    have bells (form : DoorbellForm) {r : Option Status × Dev} (hr : s.dev.doorbellWrite g form false = r) :
        exec (.doorbellWrite h form) s = Obl.dev s (Dev.bellEnd g r) :=
      congrArg (Obl.dev s) ((Dev.doorbellReq_live hnode hlive form).trans (congrArg (Dev.bellEnd g) hr))
    have mail (x : Line) (hhigh : off % 4096 ≥ 2048) : exec (.mailboxRequest h x) s = Obl.dev s (s.dev.mailboxReq g (.writeInval x false)) :=
      congrArg (Obl.dev s) ((Dev.hostRequest_gutter hnode hlive hin _ rfl).trans (if_pos hhigh))
    refine ⟨fun form hno => bells form (Dev.doorbellWrite_malformed (hline.symm ▸ hno)), fun form l hform hlow => ?form,
      fun x hhigh => ⟨fun hclosed => (mail x hhigh).trans (congrArg (Obl.dev s) (Dev.mailboxReq_closed hgpart hclosed)), fun p hopen hp hno =>
        (mail x hhigh).trans (congrArg (Obl.dev s) (Dev.mailboxReq_refused hgpart hopen hp (hline.symm ▸ hno)))⟩,
      fun x hlow => congrArg (Obl.dev s) ((Dev.hostRequest_gutter hnode hlive hin _ rfl).trans (if_neg (Nat.not_le.mpr hlow)))⟩
    case form =>
      have hglow : g.offset.toNat % 4096 < 2048 := hline.symm ▸ hlow
      refine ⟨fun hclosed => bells form (Dev.doorbellWrite_closed hgin hglow hgpart hform hclosed),
        fun hopen hkey => bells form (Dev.doorbellWrite_unkeyed hgin hglow hgpart hform hopen hkey),
        fun b hopen hkey hres => bells form (Dev.doorbellWrite_reserved hgin hglow hgpart hform hopen hkey hres), fun hopen hkey hempty => ?_⟩
      subst hempty
      exact bells form (Dev.doorbellWrite_admitted hgin hglow hgpart hform hopen hkey rfl)

end Sys2Proof.Machine
end

section
/-! PROOFS. The operations of the front end: what each does once it is the running operation of its descriptor. -/

namespace Sys2Proof.Machine

/-! ### PUBLISH (R81, R334) -/

section
variable {d : Dev} {id : Nat} {o : Op} {m : Member} {b : List Byte} (hrun : d.frontOp id 0x20 = some (o, m, b))
include hrun

theorem Dev.publish_ended {i : Nat} {st : Status} (hfound : (d.coh.pubEnds.find? fun x => x.1 == id) = some (i, st)) :
    d.publish id = (d.modCoh fun c => { c with pubEnds := c.pubEnds.filter fun x => x.1 ≠ id }).frontEnds id st
      (if st = .ok then Desc.u32 b 52 else 0) := by
  unfold Dev.publish
  rw [hrun]
  dsimp only
  rw [hfound]

/-- How a PUBLISH goes on that its region's home has been given: it ends at once, or waits to be told (R81). -/
def Dev.afterSubmit (id : Nat) (r : Option (Status × Nat)) (d : Dev) : Dev :=
  match r with
  | some (st, res) => d.frontEnds id st res
  | none => d.modOp id fun o => { o with target := some 0 }

theorem Dev.publish_submits {r : Option (Status × Nat)} {d1 : Dev} (hnone : (d.coh.pubEnds.find? fun x => x.1 == id) = none)
    (htarget : o.target = none) (hsubmit : d.pubSubmit id o.part (Desc.u16 b 48) (Desc.u32 b 52) (Desc.u64 b 56) = (r, d1)) :
    d.publish id = Dev.afterSubmit id r d1 := by
  unfold Dev.publish
  rw [hrun]
  dsimp only
  rw [hnone]
  refine (if_neg (by simp [htarget])).trans ?_
  rw [hsubmit]
  cases r <;> rfl

end

/-- A PUBLISH leaves its region, and the change that it made is gone (R81, R83). -/
def Dev.forgetPublish (n : Nat) (c : Change) (d : Dev) : Dev :=
  (d.modCoh fun x => { x with changes := x.changes.filter fun y => y.id ≠ c.id }).modRegion n fun r => { r with running := none }

section
variable {d : Dev} {n : Nat} {r : Region} {p : Publish} {c : Change} (hregion : Tbl.find d.coh.regions n = some r) (hrunning : r.running = some p)
  (hchange : (d.coh.changes.find? fun c => c.id == p.change) = some c) (hover : d.changeOver c = true)
include hregion hrunning hchange hover

theorem Dev.pubDrained_over : d.pubDrained n =
    if p.revoked = true then (((Dev.forgetPublish n c d).pubEnd p .revoked).pubNext 9 n)
    else match d.extAt (r.line.toNat * 64) with
      | none => ((Dev.forgetPublish n c d).pubEnd p .revoked).pubNext 9 n
      | some (ri, re) =>
        let w := Dev.homeWrite ri re r.line.toNat (some (d.recordLine p (p.ext.getD 0) (d.ext (p.ext.getD 0).toNat)))
          ⟨d.nodeId, r.owner, 0x04, r.line.toNat * 64⟩ d
        if w.1 = true then
          (((Dev.forgetPublish n c w.2).modRegion n fun r => { r with version := p.version }).pubEnd p .ok).pubNext 9 n
        else w.2 := by
  unfold Dev.pubDrained
  rw [hregion]
  dsimp only
  rw [hrunning]
  dsimp only
  rw [hchange]
  refine (if_neg (by simp [hover])).trans (ite_transport id Iff.rfl (fun _ => rfl) fun _ => ?_)
  cases d.extAt (r.line.toNat * 64) <;> rfl

theorem Dev.pubDrained_revoked (h : p.revoked = true ∨ d.extAt (r.line.toNat * 64) = none) :
    d.pubDrained n = ((Dev.forgetPublish n c d).pubEnd p .revoked).pubNext 9 n := by
  rw [Dev.pubDrained_over hregion hrunning hchange hover]
  by_cases hrev : p.revoked = true
  · exact if_pos hrev
  · rw [if_neg hrev, h.resolve_left hrev]

theorem Dev.pubDrained_writes {ri : Nat} {re : Ext} {ok : Bool} {d1 : Dev} (hrev : p.revoked = false)
    (hext : d.extAt (r.line.toNat * 64) = some (ri, re))
    (hwrite : Dev.homeWrite ri re r.line.toNat (some (d.recordLine p (p.ext.getD 0) (d.ext (p.ext.getD 0).toNat)))
      ⟨d.nodeId, r.owner, 0x04, r.line.toNat * 64⟩ d = (ok, d1)) :
    d.pubDrained n = if ok = true then
      (((Dev.forgetPublish n c d1).modRegion n fun r => { r with version := p.version }).pubEnd p .ok).pubNext 9 n else d1 := by
  rw [Dev.pubDrained_over hregion hrunning hchange hover, if_neg (ne_true_of_eq_false hrev), hext]
  dsimp only
  rw [hwrite]

end

/-! ### ADVISE, FENCE, SIGNAL and WAIT_COUNT (R335 to R338) -/

theorem Dev.advise_runs {d : Dev} {id : Nat} {o : Op} {m : Member} {b : List Byte} (hrun : d.frontOp id 0x21 = some (o, m, b)) :
    d.advise id = d.frontRun o (Dev.adviseProg b) (fun n d => d.frontEnds id .ok n) (fun st d => d.frontEnds id st 0) := by
  unfold Dev.advise
  rw [hrun]

theorem Dev.fence_ends {d : Dev} {id : Nat} {o : Op} {m : Member} {b : List Byte} {q : Queue} (hrun : d.frontOp id 0x30 = some (o, m, b))
    (hq : d.queue? o.queue = some q) (hearlier : d.earlierWritten o m = true) (hheld : q.held = []) :
    d.fence id = (d.frontEnds id .ok q.failures).modQueue o.queue fun q =>
      { q with failures := 0, aborting := Desc.u8 b 48 = 1 ∧ q.failures ≠ 0 } := by
  unfold Dev.fence
  rw [hrun]
  dsimp only
  rw [hq]
  exact if_neg (by simp [hearlier, hheld])

theorem Dev.signal_runs {d : Dev} {id : Nat} {o : Op} {m : Member} {b : List Byte} (hrun : d.frontOp id 0x31 = some (o, m, b))
    (hready : Desc.u8 b 65 % 2 = 0 ∨ d.earlierWritten o m = true) : d.signal id =
      match Desc.u8 b 64 with
      | 0 => d.frontRun o (Prog.write (Desc.u64 b 48) (sub b 56 8)) (fun _ d => d.frontEnds id .ok 0) (fun st d => d.frontEnds id st 0)
      | 1 => d.frontRun o (Prog.need (.acc (Prog.at_ (Desc.u64 b 48)) (.update 0 true (sub b 56 8)) false))
          (fun old d => d.frontEnds id .ok (leNat old)) (fun st d => d.frontEnds id st 0)
      | 2 => d.signalDoorbell o b
      | _ => (d.arriveVec (Desc.u16 b 66 % 2048)).frontEnds id .ok 0 := by
  have hgo : ¬ (Desc.u8 b 65 % 2 = 1 ∧ (!d.earlierWritten o m) = true) := by
    rintro ⟨hodd, hwait⟩
    rcases hready with heven | hwritten
    · omega
    · simp [hwritten] at hwait
  unfold Dev.signal
  rw [hrun]
  refine (if_neg hgo).trans ?_
  rfl

theorem Dev.waitCount_reached {d : Dev} {id : Nat} {o : Op} {m : Member} {b : List Byte} (hrun : d.frontOp id 0x32 = some (o, m, b))
    (hcount : Desc.u64 b 48 ≤ d.gtc.count.toNat) : d.waitCount id = d.frontEnds id .ok 0 := by
  unfold Dev.waitCount
  rw [hrun]
  exact if_neg (Nat.not_lt.mpr hcount)

/-! ### SAVE_STATE (R340) -/

/-- A unit outside its write phase is dropped with its access. -/
def Dev.dropUnlessWriting (tid : Nat) (d : Dev) (x : Nat × UnitSt) : Dev :=
  if x.2.phase = .writing then d else
    (match x.2.acc with | some a => d.dropAcc a | none => d).modOp tid fun t => { t with units := Tbl.drop x.1 t.units }

/-- The target of a SAVE_STATE takes no further unit, and the units outside their write phase are dropped. -/
def Dev.pauseTarget (id : Nat) (t : Op) (d : Dev) : Dev :=
  (t.units.foldl (Dev.dropUnlessWriting t.id) (d.modOp t.id fun t => { t with state := .saving })).modOp id fun o => { o with target := some t.id }

/-- The target of a SAVE_STATE whose last write phase has ended, with the time that is left to it. -/
def Op.withTimeLeft (o t : Op) (now : Nat) : Op :=
  if o.trace.isEmpty then { t with startAt := now, budget := (t.startAt + t.budget * 1000 - now) / 1000 } else t

section
variable {d : Dev} {id : Nat} {o : Op} {m : Member} {b : List Byte} (hrun : d.frontOp id 0x38 = some (o, m, b))
include hrun

theorem Dev.saveState_noTarget (htarget : o.target = none) (hnone : d.saveTarget o (Desc.u16 b 64) = none) :
    d.saveState id = d.frontEnds id .stateConflict 0 := by
  unfold Dev.saveState
  rw [hrun]
  dsimp only
  rw [htarget]
  dsimp only
  rw [hnone]

theorem Dev.saveState_target {t : Op} (htarget : o.target = none) (hfound : d.saveTarget o (Desc.u16 b 64) = some t) :
    d.saveState id = if Desc.u64 b 56 < Dev.imageSize (t.desc 0) then d.frontEnds id .quota (Dev.imageSize (t.desc 0)) else d.pauseTarget id t := by
  unfold Dev.saveState
  rw [hrun]
  dsimp only
  rw [htarget]
  dsimp only
  rw [hfound]
  rfl

theorem Dev.saveState_writes {tid : Nat} {t : Op} (htarget : o.target = some tid) (hop : d.op? tid = some t) (hunits : t.units = []) :
    let t1 := o.withTimeLeft t d.now
    d.saveState id = (d.modOp tid fun _ => t1).frontRun o
      (Prog.write (Desc.u64 b 48) (Dev.saveImage ((d.modOp tid fun _ => t1).hashKeyOf o.part) t1 t1.budget))
      (fun _ d => (d.endOp tid fun _ => (.cancelled, t1.result 0, 0xFFFFFFFF)).frontEnds id .ok (Dev.imageSize (t1.desc 0)))
      (fun st d => (d.modOp tid fun t => { t with state := .running }).frontEnds id st 0) := by
  unfold Dev.saveState
  rw [hrun]
  dsimp only
  rw [htarget]
  dsimp only
  rw [hop]
  exact if_neg (by simp [hunits])

end

/-! ### RESTORE_STATE (R342) -/

/-- The operation that a RESTORE_STATE runs on, from what its image holds. -/
def Op.restoredFrom (r : Dev.Restored) (now : Nat) (o : Op) : Op :=
  { o with restored := some r.mem, done := r.done, maxima := r.maxima, accs := r.accs, tops := r.tops, counts := r.counts,
           results := r.adds.map fun a => (0, a.1, a.2), startAt := now, budget := r.left }

/-- How a RESTORE_STATE goes on whose program has been carried on. -/
def Dev.afterRestore (id : Nat) (o : Op) (res : ProgEnd (Option Dev.Restored)) (tr : List (Status × List Byte)) (acc : Option Nat) (d : Dev) : Dev :=
  let e := d.modOp o.id fun o => { o with trace := [], acc := none }
  match res with
  | .waits => d.modOp o.id fun o => { o with trace := tr, acc := acc }
  | .failed st => e.frontEnds id st 0
  | .done none => e.frontEnds id .stateConflict 0
  | .done (some r) => (e.modOp id (Op.restoredFrom r e.now)).opFinish id

theorem Dev.restoreState_carried {d d1 : Dev} {id : Nat} {o : Op} {m : Member} {b : List Byte} {res : ProgEnd (Option Dev.Restored)}
    {tr : List (Status × List Byte)} {acc : Option Nat} (hrun : d.frontOp id 0x39 = some (o, m, b))
    (hcarry : d.carryOn ⟨.frontEnd o.queue, o.part, none⟩
      (Dev.restoreProg o.part (d.hashKeyOf o.part) (d.sramLimit o.part) m.index (Desc.u64 b 48)) o.trace o.acc = (res, tr, acc, d1)) :
    d.restoreState id = Dev.afterRestore id o res tr acc d1 := by
  unfold Dev.restoreState
  rw [hrun]
  unfold Dev.frontRun
  dsimp only
  rw [hcarry]
  obtain (_ | r) | st | _ := res <;> rfl

/-- Settles O29: each operation does what its case says, once it is the running operation of its descriptor. -/
theorem frontEndOperationsTakeEffect : Obligations.FrontEndOperationsTakeEffect := by
  intro s id o m b d
  refine ⟨fun hrun => ⟨fun i st hfound => congrArg (Obl.dev s) (Dev.publish_ended hrun hfound), fun r d1 hnone htarget hsubmit =>
      congrArg (Obl.dev s) ((Dev.publish_submits hrun hnone htarget hsubmit).trans (by cases r <;> rfl))⟩,
    fun n r p c hregion hrunning hchange hover => ⟨fun hrev => congrArg (fun d => Obl.dev s (Dev.dropPubChanges d)) ?revoked, fun ri re ok d1 hrev hext hwrite =>
      congrArg (fun d => Obl.dev s (Dev.dropPubChanges d)) ?written⟩,
    fun hrun => congrArg (Obl.dev s) (Dev.advise_runs hrun),
    fun q hrun hq hearlier hheld => congrArg (Obl.dev s) (Dev.fence_ends hrun hq hearlier hheld),
    fun hrun hready => ?signal,
    fun hrun hcount => ⟨congrArg (Obl.dev s) (Dev.waitCount_reached hrun hcount), congrArg (Obl.dev s) (Dev.waitCount_reached hrun hcount)⟩,
    fun hrun => ⟨fun htarget hnone => congrArg (Obl.dev s) (Dev.saveState_noTarget hrun htarget hnone),
      fun t htarget hfound => congrArg (Obl.dev s) (Dev.saveState_target hrun htarget hfound),
      fun tid t htarget hop hunits => congrArg (Obl.dev s) (Dev.saveState_writes hrun htarget hop hunits)⟩,
    fun res tr acc d1 hrun hcarry => congrArg (Obl.dev s) ((Dev.restoreState_carried hrun hcarry).trans ?restore)⟩
  case revoked => exact Dev.pubDrained_revoked hregion hrunning hchange hover hrev
  case written => exact Dev.pubDrained_writes hregion hrunning hchange hover hrev hext hwrite
  case signal =>
    have signals := congrArg (Obl.dev s) (Dev.signal_runs hrun hready)
    refine ⟨fun h => signals.trans ?_, fun h => signals.trans ?_, fun h => signals.trans ?_, fun h => signals.trans ?_⟩ <;> rw [h] <;> rfl
  case restore => obtain (_ | r) | st | _ := res <;> rfl

end Sys2Proof.Machine
end

section
/-! PROOFS. Host requests at the home: what one that is admitted does on a stable line, and how one is refused. -/

namespace Sys2Proof.Machine

/-! ### No step of a request lets time pass -/

theorem Dev.now_of_rest {d t : Dev} (h : t.rest = d.rest) : t.now = d.now :=
  (congrArg Dev.now h : t.rest.now = d.rest.now)

@[simp] theorem Dev.now_setPanic (c : Nat) (d : Dev) : (d.setPanic c).now = d.now := by
  unfold Dev.setPanic
  dsimp only
  split
  · rfl
  · split <;> rfl

@[simp] theorem Dev.now_noteRead (host : Bool) (k : Nat) (d : Dev) : (d.noteRead host k).now = d.now := by
  unfold Dev.noteRead
  rw [Dev.now_setPanic]
  rfl

theorem Dev.now_foldl_noteRead (host : Bool) (f : Nat → Nat) (l : List Nat) (d : Dev) :
    (l.foldl (fun d j => d.noteRead host (f j)) d).now = d.now := by
  induction l generalizing d with
  | nil => rfl
  | cons j l ih => rw [List.foldl_cons, ih, Dev.now_noteRead]

@[simp] theorem Dev.now_lookTag (i : Nat) (e : Ext) (off : Nat) (d : Dev) : (d.lookTag i e off).now = d.now := by
  unfold Dev.lookTag Dev.tagLookup
  split
  · dsimp only
    split
    · rfl
    · unfold foldN
      rw [Dev.modTier_now, Dev.now_foldl_noteRead]
      rfl
  · rfl

@[simp] theorem Dev.now_touch (e : Ext) (off : Nat) (d : Dev) : (d.touch e off).now = d.now := by
  unfold Dev.touch
  split
  · split <;> rfl
  · rfl

@[simp] theorem Dev.now_didRead (host : Bool) (e : Ext) (off : Nat) (d : Dev) : (d.didRead host e off).now = d.now := by
  unfold Dev.didRead
  split
  · rfl
  · rw [Dev.now_noteRead]

@[simp] theorem Dev.now_markDirty (e : Ext) (off : Nat) (d : Dev) : (d.markDirty e off).now = d.now := by
  unfold Dev.markDirty
  split
  · dsimp only
    split <;> rfl
  · rfl

@[simp] theorem Dev.now_writeKey (k : Nat) (x : Option Line) (w : WriteBy) (d : Dev) : (d.writeKey k x w).now = d.now := by
  unfold Dev.writeKey
  dsimp only
  split
  · exact Dev.now_of_rest (d.rest_log _ _)
  · split
    · exact Dev.now_of_rest (d.rest_log _ _)
    · rfl

@[simp] theorem Dev.now_writePool (e : Ext) (off : Nat) (x : Option Line) (w : WriteBy) (d : Dev) : (d.writePool e off x w).now = d.now := by
  unfold Dev.writePool
  split
  · rfl
  · rw [Dev.now_markDirty, Dev.now_writeKey]

@[simp] theorem Dev.now_freeDir (line : Nat) (d : Dev) : (d.freeDir line).now = d.now := rfl

/-! ### Serving a request on a line that no other host holds (R130, R139, R140) -/

/-- A line's transaction of a request that waits for its grant (R137). -/
def grantTx (r : HomeReq) : LineTx :=
  { why := .demand, req := some r, snoops := [], data := none, stored := false, owed := false, badData := false, keep := 0,
    grant := some ⟨r.hdr.src, r.hdr.tag, none⟩ }

/-- A host's request writes a line: DRAM has the new content, and no host holds the line. -/
def Dev.hostWrites (line : Nat) (e : Ext) (g : ReqHdr) (opc : Nat) (x : Option Line) (d : Dev) : Dev :=
  (d.writePool e (line * 64) x ⟨g.src, e.part, opc, line * 64⟩).freeDir line

/-- An ATOMIC of another node keeps its answer in the reply cache of the half (R455). -/
def Dev.keepReply (half : Half) (g : ReqHdr) (was : List Byte) (t : Nat) (d : Dev) : Dev :=
  if g.pv then d.modCoh fun c => { c with replies := c.replies ++ [⟨half, g.src, g.tag, g.offset, was, t⟩] } else d

section
variable {d : Dev} {line : Nat} {e : Ext} {g : ReqHdr} {x : ExtIdx} {gen : BitVec 16} {t : Nat}
  (hwr : d.mem.wrBad.contains line = false) (hrd : d.mem.rdBad.contains line = false)

include hwr

theorem Dev.serve_store (v : Line) : d.serve line ⟨g, none, .store v, x, gen, t⟩ e =
    ((d.touch e (line * 64)).hostWrites line e g 3 (some v)).finishReq g t .ok [] := by
  unfold Dev.serve
  simp only [kindReads, kindWrites, hwr, Bool.false_and, Bool.and_false, Bool.not_true, Bool.false_eq_true, if_false]
  rfl

theorem Dev.serve_writeInval (v : Line) (bad : Bool) : d.serve line ⟨g, none, .writeInval v bad, x, gen, t⟩ e =
    (if bad then ((d.touch e (line * 64)).hostWrites line e g 4 none).bump (Reg.ras (homeHalf e (line * 64))) 0x058 1
      else (d.touch e (line * 64)).hostWrites line e g 4 (some v)).finishReq g t .ok [] := by
  unfold Dev.serve
  simp only [kindReads, kindWrites, hwr, Bool.false_and, Bool.and_false, Bool.not_true, Bool.false_eq_true, if_false]
  cases bad <;> simp only [if_true, Bool.false_eq_true, if_false] <;> rfl

variable (hheld : d.readHeld e (line * 64) = false) {v : Line} (hdata : (d.touch e (line * 64)).readPool e (line * 64) = some (.data v))
include hheld hdata

theorem Dev.serve_writePartial (y : Line) (m : Word64) : d.serve line ⟨g, none, .writePartial y m, x, gen, t⟩ e =
    (((d.touch e (line * 64)).didRead true e (line * 64)).hostWrites line e g 5 (some (lineMerge v y m))).finishReq g t .ok [] := by
  unfold Dev.serve
  simp only [kindReads, kindWrites, hwr, hheld, hdata, Bool.true_and, Bool.false_and, Bool.not_true, Bool.false_eq_true, if_false]
  rfl

theorem Dev.serve_atomic {aop : BitVec 4} {wide : Bool} {operand was : List Byte} {new : Line}
    (hop : atomicLine aop wide operand (g.offset.toNat % 64) v = some (new, was)) :
    d.serve line ⟨g, none, .atomic aop wide operand, x, gen, t⟩ e =
      ((((d.touch e (line * 64)).didRead true e (line * 64)).hostWrites line e g 6 (some new)).keepReply (homeHalf e (line * 64)) g was
        d.now).finishReq g t .ok was := by
  have hnow : (((d.touch e (line * 64)).didRead true e (line * 64)).hostWrites line e g 6 (some new)).now = d.now := by
    simp [Dev.hostWrites]
  unfold Dev.serve
  simp only [kindReads, kindWrites, hwr, hheld, hdata, hop, Bool.true_and, Bool.false_and, Bool.not_true, Bool.false_eq_true, if_false]
  rw [← hnow]
  rfl

omit hwr
include hrd

theorem Dev.serve_loadShared (nc : Bool) : d.serve line ⟨g, none, .loadShared nc, x, gen, t⟩ e =
    (if nc then (d.touch e (line * 64)).didRead true e (line * 64)
      else ((d.touch e (line * 64)).didRead true e (line * 64)).addSharer line g.src).finishReq g t .ok (lineBytes v) := by
  unfold Dev.serve
  simp only [kindReads, kindWrites, hrd, hheld, hdata, Bool.and_false, Bool.false_and, Bool.false_eq_true, if_false]
  rfl

theorem Dev.serve_loadOwn : d.serve line ⟨g, none, .loadOwn, x, gen, t⟩ e =
    (((d.touch e (line * 64)).didRead true e (line * 64)).setTx line (grantTx ⟨g, none, .loadOwn, x, gen, t⟩)).openGrant line := by
  unfold Dev.serve
  simp only [kindReads, kindWrites, hrd, hheld, hdata, Bool.and_false, Bool.false_and, Bool.false_eq_true, if_false]
  rfl

end

/-! ### Admission (R60, R61) -/

/-- A request of a host as the home admits it. -/
def Dev.reqOf (d : Dev) (h : ReqHdr) (kind : ReqKind) (i : Nat) (e : Ext) : HomeReq :=
  ⟨d.sentBy h, none, kind, BitVec.ofNat 15 i, e.gen, d.now⟩

theorem exec_homeCommand (h : ReqHdr) (k : ReqKind) (s : State) : exec (Obl.homeCommand h k) s = Obl.dev s (s.dev.hostRequest h k) := by
  cases k <;> rfl

theorem Dev.ok_of_toOption {α : Type} {r : Except Status α} {x : α} (h : r.toOption = some x) : r = .ok x := by
  cases r with
  | error st => cases h
  | ok y => cases h; rfl

/-- A line without reservations is not reserved for any request. -/
theorem Dev.not_reserved {d : Dev} {line : LineNo} (h : d.firstResv line = none) (n : NodeId) (t : Tag) : d.reserved n t line = false := by
  have hno := List.find?_eq_none.mp h
  unfold Dev.reserved
  rw [List.any_eq_false]
  intro r hr hres
  rw [Bool.and_eq_true] at hres
  exact hno r hr hres.2

theorem Dev.badAop_of_formed {h : ReqHdr} {k : ReqKind} (hk : Obl.Formed h k) : Dev.badAop k = false := by
  cases k with
  | atomic aop wide o => simpa [Dev.badAop] using hk.1
  | _ => rfl

section
variable {d : Dev} {h : ReqHdr} {k : ReqKind} {i : Nat} {e : Ext}

/-- A request that may start at once passes the checks of R60 at its home. -/
theorem Dev.checked_of_admits (ha : Obl.Admits d h k i e) : Obl.Checked d h k i e := by
  obtain ⟨hvia, hlow, hlive, hroom, hchecks, -, -, hfree, -⟩ := ha
  exact ⟨hvia, hlow, hlive, hroom, Dev.not_reserved hfree _ _, hchecks⟩

/-- No uncorrectable word stands in the data of a request that may start at once (R250). -/
theorem Dev.goodWords_of_admits (ha : Obl.Admits d h k i e) : (d.lookTag i e h.offset.toNat).mem.wrBad.contains (h.offset.toNat / 64) = false ∧
    (d.lookTag i e h.offset.toNat).mem.rdBad.contains (h.offset.toNat / 64) = false := by
  obtain ⟨-, -, -, -, -, -, -, -, -, -, hwr, hrd⟩ := ha
  exact ⟨hwr, hrd⟩

/-- A request that may start at once is dispatched. -/
theorem Dev.hostRequest_dispatched (ha : Obl.Admits d h k i e) (hm : Obl.WellMade (d.lookTag i e h.offset.toNat) h e k)
    (hnode : ∀ aop wide o, k = .atomic aop wide o → (d.lookTag i e h.offset.toNat).sentBy h = d.sentBy h) :
    d.hostRequest h k = (d.lookTag i e h.offset.toNat).dispatch i e (d.reqOf h k i e) := by
  obtain ⟨hvia, hlow, hlive, hroom, hchecks, hdead, htx, hfree, hfree0, hres, -, -⟩ := ha
  refine Dev.hostRequest_admitted d h k i e hvia hlow hlive hroom (Dev.ok_of_toOption hchecks) (Dev.deadLookup_none _ _ hdead) htx hfree hfree0 hres ?_
  cases k with
  | atomic aop wide o =>
    obtain ⟨hop, halign, hlen, hreply, hcache⟩ := hm
    rw [hnode aop wide o rfl] at hreply
    exact ⟨hop, halign, hlen, hreply, hcache⟩
  | writePartial x m => exact hm
  | _ => trivial

/-- A request that passes the checks of R60 is admitted, whatever its line. -/
theorem Dev.hostRequest_admits (hc : Obl.Checked d h k i e) (hop : Dev.badAop k = false) : d.hostRequest h k = d.admitReq i e (d.reqOf h k i e) := by
  obtain ⟨hvia, hlow, hlive, hroom, hresv, hchecks⟩ := hc
  exact Dev.hostRequest_checked d h k i e hvia hlow hlive hroom hresv (Dev.ok_of_toOption hchecks) hop

/-- A request that needs no snoops, with a directory entry to be had, is served at once. -/
theorem Dev.hostRequest_serves (ha : Obl.Admits d h k i e) (hm : Obl.WellMade (d.lookTag i e h.offset.toNat) h e k)
    (hnode : ∀ aop wide o, k = .atomic aop wide o → (d.lookTag i e h.offset.toNat).sentBy h = d.sentBy h) (hk : ∀ x, k ≠ .store x)
    (hown : k = .loadOwn ∨ k = .loadShared false → ∀ ent, (d.lookTag i e h.offset.toNat).dirEnt (h.offset.toNat / 64) = some ent →
      ent.modified = false)
    (hsn : (d.lookTag i e h.offset.toNat).neededSnoops i e (h.offset.toNat / 64) (d.sentBy h) false k = [])
    (hroom : k = .loadOwn → (d.lookTag i e h.offset.toNat).snoopRoom (homeHalf e (h.offset.toNat / 64 * 64)) = true)
    (hset : (d.lookTag i e h.offset.toNat).fullSet (h.offset.toNat / 64) = none ∨
      (d.lookTag i e h.offset.toNat).needsEntry (h.offset.toNat / 64) k = false) :
    d.hostRequest h k = (d.lookTag i e h.offset.toNat).serve (h.offset.toNat / 64) (d.reqOf h k i e) e := by
  have hoff : (d.reqOf h k i e).hdr.offset = h.offset := d.sentBy_offset h
  refine (Dev.hostRequest_dispatched ha hm hnode).trans ?_
  rw [Dev.dispatch_begin _ i e _ hk fun ent hent hmod => ?_, hoff]
  · exact Dev.beginReq_serve _ i e _ _ _ hsn hroom hset
  · rw [hoff] at hent
    refine .inr (not_or.mp fun hload => ?_)
    rw [hown hload ent hent] at hmod
    cases hmod

end

/-- A request that writes without ownership needs no snoops where no other host holds the line. -/
theorem Dev.neededSnoops_alone {d : Dev} {i : Nat} {e : Ext} {line : Nat} {g : ReqHdr} {k : ReqKind} (hk : ∀ nc, k ≠ .loadShared nc)
    (halone : ∀ ent, d.dirEnt line = some ent → d.holders i e ent (some g.src) = [])
    (hown : k = .loadOwn → ∀ ent, d.dirEnt line = some ent → ent.modified = false) : d.neededSnoops i e line g false k = [] := by
  unfold Dev.neededSnoops
  cases hent : d.dirEnt line with
  | none => rfl
  | some ent =>
    have hnone := halone ent hent
    cases k with
    | loadShared nc => exact absurd rfl (hk nc)
    | loadOwn => simp [hown rfl ent hent, hnone]
    | store x => simp
    | _ => cases ent.modified <;> simp [hnone]

/-- A read needs no snoops on a line that no host holds in M. -/
theorem Dev.neededSnoops_read {d : Dev} {i : Nat} {e : Ext} {line : Nat} {g : ReqHdr} {nc : Bool}
    (hclean : ∀ ent, d.dirEnt line = some ent → ent.modified = false) : d.neededSnoops i e line g false (.loadShared nc) = [] := by
  unfold Dev.neededSnoops
  cases hent : d.dirEnt line with
  | none => rfl
  | some ent => simp [hclean ent hent]

/-- A line that has a directory entry needs none. -/
theorem Dev.needsEntry_held {d : Dev} {line : Nat} (h : d.dirEnt line ≠ none) (k : ReqKind) : d.needsEntry line k = false := by
  have hsome : (d.dirEnt line).isNone = false := by rwa [← Bool.not_eq_true, Option.isNone_iff_eq_none]
  cases k <;> simp only [Dev.needsEntry, hsome, Bool.and_false]

/-! ### STOREs on a stable line (R130, R131) -/

section
variable {d : Dev} {i : Nat} {e : Ext} {r : HomeReq} {v : Line} (hk : r.kind = .store v)
include hk

/-- A STORE of the host that holds its line in M is served. -/
theorem Dev.dispatch_ownStore {ent : DirEnt} (hent : d.dirEnt (r.hdr.offset.toNat / 64) = some ent) (hmod : ent.modified = true)
    (hown : ent.sharers.head? = some r.hdr.src) : d.dispatch i e r = d.serve (r.hdr.offset.toNat / 64) r e := by
  obtain ⟨hdr, eng, kind, x, gen, t⟩ := r
  subst hk
  unfold Dev.dispatch
  dsimp only at hent hown ⊢
  rw [hent]
  exact if_pos ((if_pos hmod).trans hown)

/-- A STORE of any other host is discarded and recorded. -/
theorem Dev.dispatch_otherStore
    (hother : ∀ ent, d.dirEnt (r.hdr.offset.toNat / 64) = some ent → ent.modified = true → ent.sharers.head? ≠ some r.hdr.src) :
    d.dispatch i e r = (d.discardReq 3 r.hdr r.kind e.part (homeHalf e (r.hdr.offset.toNat / 64 * 64)) .stateConflict).complete r .stateConflict [] := by
  obtain ⟨hdr, eng, kind, x, gen, t⟩ := r
  subst hk
  unfold Dev.dispatch
  dsimp only at hother ⊢
  cases hent : d.dirEnt (hdr.offset.toNat / 64) with
  | none => exact if_neg nofun
  | some ent =>
    refine if_neg ?_
    dsimp only
    split
    · next hmod => exact hother ent hent hmod
    · nofun

end

/-! ### Refusals (R60 to R63, R122, R145, R152, R635) -/

theorem Dev.hostRequest_unset {d : Dev} {h : ReqHdr} (k : ReqKind) (hvia : h.via = .companion) (hunset : d.compNode = 0xFFFF) :
    d.hostRequest h k = d.ackStatus h .noAccess := if_pos ⟨hvia, hunset⟩

section
variable {d : Dev} {h : ReqHdr} {k : ReqKind} (hnode : h.via = .companion → d.compNode ≠ 0xFFFF) (hlive : d.isDead (d.sentBy h).src = false)
include hnode hlive

theorem Dev.hostRequest_reservedAop (hop : Dev.badAop k = true) : d.hostRequest h k =
    (d.logMalformed (d.sentBy h).via (some (d.lineHalf (h.offset.toNat / 64))) 4 0x06 0 (some (d.sentBy h).src) .malformed).nack (d.sentBy h)
      .malformed 0 false :=
  (if_neg fun hx => hnode hx.1 hx.2).trans ((if_neg (ne_true_of_eq_false hlive)).trans (if_pos hop))

variable (hop : Dev.badAop k = false)
include hop

theorem Dev.hostRequest_reservedRange (habove : gutterBase ≤ h.offset.toNat) (hout : inGutter h.offset.toNat = false) :
    d.hostRequest h k = d.ackStatus (d.sentBy h) .noAccess :=
  (if_neg fun hx => hnode hx.1 hx.2).trans ((if_neg (ne_true_of_eq_false hlive)).trans ((if_neg (ne_true_of_eq_false hop)).trans
    ((if_neg (Nat.not_lt.mpr habove)).trans (if_neg (ne_true_of_eq_false hout)))))

theorem Dev.hostRequest_home (hlow : h.offset.toNat < gutterBase) : d.hostRequest h k = d.homeRequest (d.sentBy h) k :=
  (if_neg fun hx => hnode hx.1 hx.2).trans ((if_neg (ne_true_of_eq_false hlive)).trans ((if_neg (ne_true_of_eq_false hop)).trans (if_pos hlow)))

end

/-- The discarded write of a request that failed a check is recorded (R63). -/
def Dev.recordDiscard (g : ReqHdr) (k : ReqKind) (half : Half) (st : Status) (d : Dev) : Dev :=
  match d.failedCheck g st with
  | some (c, x) => if kindWrites k then d.discardReq c g k x.part half st else d
  | none => d

section
variable {d : Dev} {g : ReqHdr} {k : ReqKind} {half : Half} {no : LineNo} (hhalf : d.lineHalf (g.offset.toNat / 64) = half)
  (hno : BitVec.ofNat 42 (g.offset.toNat / 64) = no)
include hhalf hno

theorem Dev.homeRequest_full (hroom : d.trackerRoom half = false) (hresv : d.reserved g.src g.tag no = false) :
    d.homeRequest g k = d.refuse g d.now d.baseHint half := by
  subst hhalf hno
  exact if_pos (by simp [hroom, hresv])

theorem Dev.homeRequest_failed {st : Status} (hroom : d.trackerRoom half = true ∨ d.reserved g.src g.tag no = true)
    (hcheck : d.hostChecks g k = .error st) :
    d.homeRequest g k = (d.recordDiscard g k half st).finishReq g (d.recordDiscard g k half st).now st [] := by
  subst hhalf hno
  refine (if_neg ?_).trans ?_
  · rintro ⟨hfull, hfree⟩
    rcases hroom with h | h
    · simp [h] at hfull
    · simp [h] at hfree
  · rw [hcheck]
    rfl

end

/-- An ATOMIC off its alignment, or with operands of another length, completes MALFORMED. -/
theorem Dev.admitReq_malformed {d : Dev} {i : Nat} {e : Ext} {g : ReqHdr} {aop : BitVec 4} {wide : Bool} {o : List Byte} {x : ExtIdx}
    {gen : BitVec 16} {t : Nat} (hbad : g.offset.toNat % (if wide then 8 else 4) ≠ 0 ∨ o.length ≠ atomicLen aop wide) :
    d.admitReq i e ⟨g, none, .atomic aop wide o, x, gen, t⟩ = d.finishReq g t .malformed [] := by
  refine if_pos ?_
  rw [Bool.not_eq_true', ← Bool.not_eq_true, Bool.and_eq_true, beq_iff_eq, beq_iff_eq]
  exact fun hgood => hbad.elim (· hgood.1) (· hgood.2)

/-- A WRITE_PARTIAL with an empty mask completes OK and changes nothing. -/
theorem Dev.admitReq_empty {d : Dev} {i : Nat} {e : Ext} {g : ReqHdr} {y : Line} {x : ExtIdx} {gen : BitVec 16} {t : Nat} :
    d.admitReq i e ⟨g, none, .writePartial y 0, x, gen, t⟩ = d.finishReq g t .ok [] := rfl

/-- What a host's request that is formed meets, but for a STORE of the owner on a line in transition. -/
theorem Dev.hostRequest_meets {d d1 : Dev} {h : ReqHdr} {k : ReqKind} {i : Nat} {e : Ext} (hc : Obl.Checked d h k i e) (hk : Obl.Formed h k)
    (h1 : (d.lookTag i e h.offset.toNat).deadLookup (h.offset.toNat / 64) = d1)
    (hs : d1.ownerStores (h.offset.toNat / 64) (d.reqOf h k i e) = false ∨ d1.tx? (h.offset.toNat / 64) = none) :
    d.hostRequest h k = if d1.resident e h.offset.toNat = false then Dev.admitReq.missing i e (d.reqOf h k i e) d1
      else match d1.tx? (h.offset.toNat / 64) with
        | some t => d1.refuse (d.sentBy h) d.now (d1.lineHint t) (homeHalf e h.offset.toNat)
        | none => if d1.heldFor (d.sentBy h) (BitVec.ofNat 42 (h.offset.toNat / 64)) = true then
            d1.refuse (d.sentBy h) d.now d1.baseHint (homeHalf e h.offset.toNat) else Dev.admitReq.admitted i e (d.reqOf h k i e) d1 := by
  have hoff : (d.reqOf h k i e).hdr.offset = h.offset := d.sentBy_offset h
  have hformed : match (d.reqOf h k i e).kind with
      | .atomic aop wide o => (d.reqOf h k i e).hdr.offset.toNat % (if wide then 8 else 4) = 0 ∧ o.length = atomicLen aop wide
      | .writePartial _ m => m ≠ 0
      | _ => True := by
    cases k with
    | atomic aop wide o => rw [hoff]; exact hk.2
    | writePartial y m => exact hk
    | _ => trivial
  have hmeets := Dev.admitReq_host i e (d.reqOf h k i e) d d1 rfl (hoff.symm ▸ h1) hformed (hoff.symm ▸ hs)
  rw [hoff] at hmeets
  exact (Dev.hostRequest_admits hc (Dev.badAop_of_formed hk)).trans hmeets

/-- Settles O16: a request is served, begins its snoops, or is refused, by what its home finds in the order of R60 and R133 to R148. -/
theorem homeRequestsTakeEffect : Obligations.HomeRequestsTakeEffect := by
  intro s h i e line off g d0 d dr req alone write
  have hoff : g.offset = h.offset := s.dev.sentBy_offset h
  have htag : g.tag = h.tag := s.dev.sentBy_tag h
  have hline : g.offset.toNat / 64 = line := congrArg (fun o : Offset => o.toNat / 64) hoff
  have hoffR (k : ReqKind) : (s.dev.reqOf h k i e).hdr.offset = h.offset := hoff
  have answer {k : ReqKind} {t : Dev} (ht : s.dev.hostRequest h k = t) : exec (Obl.homeCommand h k) s = Obl.dev s t :=
    (exec_homeCommand h k s).trans (congrArg (Obl.dev s) ht)
  have noAtomic {k : ReqKind} (hk : ∀ aop wide o, k ≠ .atomic aop wide o) (aop : BitVec 4) (wide : Bool) (o : List Byte)
      (h1 : k = .atomic aop wide o) : d0.sentBy h = s.dev.sentBy h := absurd h1 (hk aop wide o)
  refine ⟨fun nc v ha hclean hset hheld hdata => answer (k := .loadShared nc) ?loadShared,
    fun v ha halone hclean hset hroom hheld hdata => answer (k := .loadOwn) ?loadOwn,
    fun x ent ha hent hmod hsharers => answer (k := .store x) ?store,
    fun x bad ha halone => answer (k := .writeInval x bad) ?writeInval,
    fun x m old ha halone hheld hdata => answer (k := .writePartial x m) ?writePartial,
    fun aop wide operand old new was ha hm hnode halone hheld hdata hop => answer (k := .atomic aop wide operand) ?atomic,
    fun k ha hm hnode hk hown hsn hroom => answer ?snoops, fun k => ?refusals⟩
  case loadShared =>
    obtain ⟨-, hrd⟩ := Dev.goodWords_of_admits ha
    refine (Dev.hostRequest_serves ha trivial (noAtomic fun _ _ _ => nofun) (fun _ => nofun) (fun _ => hclean) (Dev.neededSnoops_read hclean) nofun ?_).trans
      (Dev.serve_loadShared hrd hheld hdata nc)
    rcases hset with rfl | hent | hfree
    · exact .inr rfl
    · exact .inr (Dev.needsEntry_held hent _)
    · exact .inl hfree
  case loadOwn =>
    obtain ⟨-, hrd⟩ := Dev.goodWords_of_admits ha
    refine (Dev.hostRequest_serves ha trivial (noAtomic fun _ _ _ => nofun) (fun _ => nofun) (fun _ => hclean)
      (Dev.neededSnoops_alone (fun _ => nofun) halone fun _ => hclean) (fun _ => hroom) ?_).trans ((Dev.serve_loadOwn hrd hheld hdata).trans ?_)
    · exact hset.symm.imp id fun hent => Dev.needsEntry_held hent _
    · rw [grantTx, htag]
  case store =>
    obtain ⟨hwr, -⟩ := Dev.goodWords_of_admits ha
    have hserves := Dev.dispatch_ownStore (d := d0) (i := i) (e := e) (r := s.dev.reqOf h (.store x) i e) rfl
      ((congrArg d0.dirEnt hline).trans hent) hmod (by rw [hsharers]; rfl)
    rw [hoffR] at hserves
    exact (Dev.hostRequest_dispatched ha trivial (noAtomic fun _ _ _ => nofun)).trans (hserves.trans (Dev.serve_store hwr x))
  case writeInval =>
    obtain ⟨hwr, -⟩ := Dev.goodWords_of_admits ha
    refine (Dev.hostRequest_serves ha trivial (noAtomic fun _ _ _ => nofun) (fun _ => nofun) nofun
      (Dev.neededSnoops_alone (fun _ => nofun) halone nofun) nofun (.inr rfl)).trans (Dev.serve_writeInval hwr x bad)
  case writePartial =>
    by_cases hm : m = 0
    · rw [if_pos hm]
      subst hm
      exact (Dev.hostRequest_admits (Dev.checked_of_admits ha) rfl).trans Dev.admitReq_empty
    · rw [if_neg hm]
      obtain ⟨hwr, -⟩ := Dev.goodWords_of_admits ha
      exact (Dev.hostRequest_serves ha hm (noAtomic fun _ _ _ => nofun) (fun _ => nofun) nofun
        (Dev.neededSnoops_alone (fun _ => nofun) halone nofun) nofun (.inr rfl)).trans (Dev.serve_writePartial hwr hheld hdata x m)
  case atomic =>
    obtain ⟨hwr, -⟩ := Dev.goodWords_of_admits ha
    have hop' : atomicLine aop wide operand (g.offset.toNat % 64) old = some (new, was) := by rwa [hoff]
    refine (Dev.hostRequest_serves ha hm (fun _ _ _ _ => hnode) (fun _ => nofun) nofun (Dev.neededSnoops_alone (fun _ => nofun) halone nofun) nofun
      (.inr rfl)).trans ((Dev.serve_atomic hwr hheld hdata hop').trans ?_)
    rw [Dev.now_lookTag, Dev.keepReply, htag, hoff, show g.pv = h.pv from s.dev.sentBy_pv h]
    rfl
  case snoops =>
    refine (Dev.hostRequest_dispatched ha hm fun _ _ _ _ => hnode).trans ?_
    rw [Dev.dispatch_begin d0 i e (s.dev.reqOf h k i e) hk (by rw [hoffR]; exact hown), hoffR]
    exact Dev.beginReq_snoops d0 i e (s.dev.reqOf h k i e) line _ hsn hroom
  case refusals =>
    intro gives no d1 half blk stores here
    refine ⟨fun hvia hunset => answer (Dev.hostRequest_unset k hvia hunset), fun hhere hdead => answer (Dev.hostRequest_dead hhere k hdead),
      fun hhere hlive hop => answer (Dev.hostRequest_reservedAop hhere hlive hop),
      fun hhere hlive hop habove hout => answer (Dev.hostRequest_reservedRange hhere hlive hop habove hout),
      fun hhere hlive hop hlow => ?checks, fun hc => ⟨fun aop wide o hk hop hbad => answer ?malformed, fun t x hk hstores htx => answer ?owner,
        fun hformed hs => ⟨fun hres => answer ?missing, fun t hres htx => answer ?transient, fun hres htx hheld => answer ?held⟩⟩,
      fun ha => ⟨fun x hk hother => answer ?otherStore, fun ent hk hent hmod hown => answer ?ownRead⟩⟩
    case checks =>
      have hhalf : s.dev.lineHalf (g.offset.toNat / 64) = s.dev.lineHalf line := congrArg s.dev.lineHalf hline
      have hno : BitVec.ofNat 42 (g.offset.toNat / 64) = no := congrArg (BitVec.ofNat 42) hline
      have hhome := Dev.hostRequest_home hhere hlive hop hlow
      exact ⟨fun hroom hresv => answer (hhome.trans (Dev.homeRequest_full hhalf hno hroom (by rwa [htag]))),
        fun st hroom hcheck => answer (hhome.trans (Dev.homeRequest_failed hhalf hno (by rwa [htag]) hcheck))⟩
    case malformed =>
      subst hk
      exact (Dev.hostRequest_admits hc (by simpa [Dev.badAop] using hop)).trans (Dev.admitReq_malformed (by rwa [hoff]))
    case owner =>
      subst hk
      have howner := Dev.admitReq_owner i e (s.dev.reqOf h (.store x) i e) s.dev d1 t x rfl
      rw [hoffR] at howner
      exact (Dev.hostRequest_admits hc rfl).trans (howner rfl hstores htx)
    case missing =>
      refine (Dev.hostRequest_meets hc hformed rfl hs).trans ((if_pos hres).trans ?_)
      unfold Dev.admitReq.missing
      rw [hoffR]
      rfl
    case transient =>
      refine (Dev.hostRequest_meets hc hformed rfl (.inl (hs.resolve_right (by rw [htx]; nofun)))).trans ((if_neg (by rw [hres]; nofun)).trans ?_)
      rw [htx]
    case held =>
      refine (Dev.hostRequest_meets hc hformed rfl (.inr htx)).trans ((if_neg (by rw [hres]; nofun)).trans ?_)
      rw [htx]
      exact if_pos hheld
    case otherStore =>
      subst hk
      have hother' := Dev.dispatch_otherStore (d := d0) (i := i) (e := e) (r := s.dev.reqOf h (.store x) i e) rfl
      rw [hoffR] at hother'
      exact (Dev.hostRequest_dispatched ha trivial (noAtomic fun _ _ _ => nofun)).trans (hother' hother)
    case ownRead =>
      have hread := Dev.dispatch_ownRead i e (s.dev.reqOf h k i e) d0 ent hk
      rw [hoffR] at hread
      have hready : Obl.WellMade d0 h e k ∧ ∀ aop wide o, k ≠ .atomic aop wide o := by
        rcases hk with rfl | rfl <;> exact ⟨trivial, fun _ _ _ => nofun⟩
      exact (Dev.hostRequest_dispatched ha hready.1 (noAtomic hready.2)).trans (hread hent hmod hown)

end Sys2Proof.Machine
end
